-- ==== Sys2Proof/Word.lean ====
section
/-! DEFINITION. The word types of the model: a byte, a 32-bit register word, a 64-bit word, and the sparse table (an
address- or number-keyed list in one canonical form) in which every addressed store of the machine is held. -/

namespace Sys2Proof

/-- A byte of memory or of a command. -/
abbrev Byte := BitVec 8

/-- A 32-bit register word (R71), a vector element (R188) or a binary32 pattern (R164). -/
abbrev Word := BitVec 32

/-- A 64-bit word: a lap counter (R114), a scalar register (R188), a device time (R86). -/
abbrev Dword := BitVec 64

/-- A sparse table: pairs of a key and a value, the keys strictly rising, no value equal to what its key reads as
when it is not listed. -/
abbrev Table (α : Type) := List (Nat × α)

end Sys2Proof
end

