-- ==== Sys2Proof/Syntax.lean ====
section
/-! DEFINITION. The commands of the block: one constructor for each row of the spec's opcode table, with the row's
operands. What comes from outside the module with a command (the levels of pins, the bytes of a host ring, the answers
of partners, the words that fail parity) is an operand of the command. -/

namespace Sys2Proof

/-- A transaction header and its data (R266): the channel it travels on, source, destination, op, the flags reissue,
first and status, tag, chan_seq, epoch, length, address, operand, route and data. -/
structure Packet where
  vc : Nat
  src : Nat
  dst : Nat
  op : Nat
  reissue : Bool := false
  first : Bool := false
  status : Nat := 0
  tag : Nat := 0
  seq : Nat := 0
  epoch : Nat := 0
  length : Nat := 0
  addr : Nat := 0
  operand : Nat := 0
  route : Nat := 0
  data : List Byte := []
  deriving DecidableEq, Repr

/-- A VC0 link-control message (R257, R258, R263, R275, R340). Times are picoseconds. -/
inductive LinkMsg where
  | identity (dev port : Nat)
  | swapRequest (lane : Nat)
  | swapAnswer (lane : Nat)
  | drain
  | insertDone
  | timeRequest (t1 : Nat)
  | timeAnswer (t1 t2 t3 : Nat)
  deriving DecidableEq, Repr

/-- A flit (R260). A VC0 flit's payload is its link-control message. crc is the trailer's CRC-32C. -/
structure Flit where
  vc : Nat
  cls : Nat := 0
  som : Bool := false
  eom : Bool := false
  null : Bool := false
  nak : Bool := false
  ackSeq : Nat := 0
  crdSel : Nat := 0
  crdTotal : Nat := 0
  payload : List Byte := []
  ctl : Option LinkMsg := none
  seq : Nat := 0
  crc : Nat := 0
  deriving DecidableEq, Repr

/-- What begins a function-level reset (R58, R82). The D3hot-to-D0 transition comes in two halves: toD3hot is the write that
takes the function to D3hot, d3hotToD0 the one that brings it back and resets it. -/
inductive FlrCause where
  | pcieFlr | perstEnd | toD3hot | d3hotToD0
  deriving DecidableEq, Repr

/-- The levels that others drive on the low-speed pins of the boundary scan (R50): the strap pins as POWER_ON spells them,
the SMBus lines and PPS_IN; and TDI, which the port shifts in. -/
structure BoardPins where
  tdi : Bool := false
  straps : BitVec 18 := 0
  smbClk : Bool := true
  smbDat : Bool := true
  ppsIn : Bool := false
  deriving DecidableEq, Repr

/-- A memory word that fails its parity check when a command reads its 64-byte line (R218, R227): rest where the
re-read fails too. -/
structure Hit where
  line : Nat
  rest : Bool
  deriving DecidableEq, Repr

/-- Where in a lane a word fails parity (R148, R149, R210) or on a data-path stage (R392). -/
inductive HitPlace where
  | shelfReread | shelfRefetch | shelfLost | accumulator | array | vecReg
  | progReread | progLost | pathReplayed | pathLost
  deriving DecidableEq, Repr

/-- A word of a lane that fails parity while a command runs: the lane, the array, the place and the shelf line. -/
structure LaneHit where
  lane : Nat
  right : Bool
  place : HitPlace
  line : Nat
  deriving DecidableEq, Repr

/-- A partner's answer to one of a command's own remote requests: the stadium-global address it answers, its status
(R267) and its data. -/
structure Answer where
  addr : Nat
  status : Nat
  data : List Byte
  deriving DecidableEq, Repr

/-- The bubbles a lane starts while a row of a product runs: those of a feeder run dry, those of a backed-up drain (R133). -/
structure LaneBubbles where
  lane : Nat
  dry : Nat
  drain : Nat
  deriving DecidableEq, Repr

/-- The words that the data-path stages of an engine lose while it works (R392): those replayed in order, and one that is lost
for good, with whether the origin's further reading failed too. -/
structure Stages where
  replays : Nat := 0
  lost : Option Bool := none
  deriving DecidableEq, Repr

/-- What meets a command while it runs: failing words, partners' answers, those to a second reading (R316), a command table
word that fails parity (R391), the Cabouz blocks whose first reading fails a check and whose second passes (source address
and detail, R246), the destinations and ranks whose table entry fails parity when it is looked up (R391), the chunks whose
write to a destination fails parity after its replay (by index, R290, R392), the counts that depend on timing alone
(bubbles by lane, R133; the slots a vector instruction waits, R208), and what the path of an engine loses (R392; a lane's
stands in laneHits). -/
structure Surround where
  hits : List Hit := []
  laneHits : List LaneHit := []
  answers : List Answer := []
  again : List Answer := []
  table : Bool := false
  flaky : List (Nat × Nat) := []
  routeFails : List Nat := []
  roleFails : List Nat := []
  lostChunks : List Nat := []
  bubbles : List LaneBubbles := []
  slots : Nat := 0
  stage : Stages := {}
  deriving DecidableEq, Repr

/-- What meets a partner's message while it is served: a word of it that fails in the receive buffer (R393), failing words
of the memory it reads, a lap counter that fails parity twice (R391), a write that fails parity after replay (R288,
R290), and what the path to the memory loses (R392). -/
structure Meet where
  bad : Bool := false
  hits : List Hit := []
  counterFails : Bool := false
  writeFails : Bool := false
  drifts : List Int := []
  stage : Stages := {}
  deriving DecidableEq, Repr

/-- What an access of the host meets: whether key material unwraps (R335), whether the lap counter fails parity twice (R391),
the lines that fail their parity check, the drifts a retraining measures (R224), and what the path of a window access loses
(R392). -/
structure BusSur where
  unwraps : Bool := false
  counterFails : Bool := false
  hits : List Hit := []
  drifts : List Int := []
  stage : Stages := {}
  deriving DecidableEq, Repr

/-- A collective chunk message (R281): the device it came from, its header's fields, and the chunk's data as they
travelled. A VOID's data is its reason in one byte. -/
structure ChunkMsg where
  src : Nat
  msg : Nat
  ovf : Bool := false
  coded : Bool := false
  minus : Bool := false
  k5 : Bool := false
  cmdId : Nat
  epoch : Nat
  opcode : Nat
  pos : Nat
  owner : Nat
  step : Nat
  chunk : Nat
  crc : Nat := 0
  sqnorm : Word := 0
  count : Nat
  data : List Byte := []
  deriving DecidableEq, Repr

/-- A parcel (R330): its header's fields and its body. -/
structure Parcel where
  kind : Nat
  resend : Bool := false
  first : Bool := false
  last : Bool := false
  stream : Nat := 0
  seq : Nat := 0
  offset : Nat := 0
  srcBld : Nat := 0
  dstBld : Nat := 0
  srcRank : Nat := 0
  dstRank : Nat := 0
  msgLen : Nat := 0
  sent : Nat := 0
  body : List Byte := []
  deriving DecidableEq, Repr

/-- What the line says of a frame beside its bytes (R327, R328): the address it comes from, whether it carries a VLAN tag,
and the codewords corrected and uncorrectable since the frame before it. -/
structure Wire where
  peer : Nat := 0
  vlan : Bool := false
  corrected : Nat := 0
  uncorrectable : Nat := 0
  deriving DecidableEq, Repr

/-- A MACsec frame that holds a parcel, as it arrived: its association and packet number, whether its ICV verifies, its
bytes from the SecTAG through the ICV (R332), and the parcel. -/
structure DataFrame where
  an : Nat := 0
  pn : Nat := 0
  icv : Bool := true
  span : List Byte := []
  parcel : Parcel
  wire : Wire := {}
  deriving DecidableEq, Repr

/-- A repair frame (R332): j, n, the association, the first packet number, L, the group number, the members' packet-number
offsets and span lengths, and r. -/
structure Repair where
  j : Nat
  n : Nat
  an : Nat
  pnFirst : Nat
  len : Nat
  group : Nat
  entries : List (Nat × Nat)
  bytes : List Byte
  wire : Wire := {}
  deriving DecidableEq, Repr

/-- A PTP message (R341): times in picoseconds. -/
inductive PtpMsg where
  | sync (seq : Nat)
  | followUp (seq t1 : Nat)
  | delayReq (seq : Nat)
  | delayResp (seq t4 : Nat)
  | other
  deriving DecidableEq, Repr

/-- A PTP message as it comes in (R341). -/
structure PtpFrame where
  msg : PtpMsg
  wire : Wire := {}
  deriving DecidableEq, Repr

/-- A management request over SMBus (R49): read a numeric sensor, or set or clear its threshold. The sensors: 0 to 3 the
blades' millivolts and milliamperes (A, then B), 4 module power in W, 5 and 6 coolant inlet and outlet, 7 the hottest
junction, in quarter kelvin. -/
inductive MgmtReq where
  | read (sensor : Nat)
  | threshold (sensor : Nat) (limit : Option Int)
  deriving DecidableEq, Repr

/-- A lane that fails the start-up known-answer test (R154): the array, mode, row and column of the first mismatch. -/
structure BistFail where
  lane : Nat
  array : Nat
  mode : Nat
  row : Nat
  col : Nat
  deriving DecidableEq, Repr

/-- What the boot ROM and the Steward find at a start: whether an image read twice misses its digest both times (R368),
whether profile 3's record fails its check (R387), and the lanes that fail the start-up test (R154). -/
structure BootFacts where
  reloadBad : Bool := false
  prof3Bad : Bool := false
  bist : List BistFail := []
  deriving DecidableEq, Repr

/-- A clock domain that loses lock, and whether the reference it runs from is missing (R56, R57). -/
structure ClockLoss where
  domain : Nat
  refLost : Bool := false
  deriving DecidableEq, Repr

/-- One reading of the thermal loop (R383, R49): the junctions of every die, compute dies 0 to 3 first, raw, in quarter
kelvin; and the cold plate's inlet and outlet, in 0.01 K. -/
structure ThermalReading where
  junctions : List Int
  inlet : Int := 0
  outlet : Int := 0
  deriving DecidableEq, Repr

/-- The end of a droop episode (R381): the slots it stretched, and the lowest voltage in mV of the 64 slots above the release
level. -/
structure DroopEnd where
  slots : Nat
  mv : Nat
  deriving DecidableEq, Repr

/-- The commands of the KM7 model: every row of the spec's opcode table. -/
inductive Instr where
  /-- POWER_ON (R58): Both blades rise above 39 V and the module runs a power-on reset, then the start-up timeline. -/
  | powerOn (straps : BitVec 18) (bladeA bladeB : Nat) (sysRef netRef : Bool)
  /-- SUPPLY_STOP (R36): Either blade stays below 37 V for 50 µs, so the keeper drives fall and all module state is lost. -/
  | supplyStop (bladeB : Bool) (millivolts : Nat)
  /-- MOD_RST_FALL (R53): MOD_RST_N falls and the hardware releases both keeper drives without firmware. -/
  | modRstFall
  /-- MODULE_RESET (R58): MOD_RST_N rises after at least 10 µs low, resetting everything except flash and starting up again. -/
  | moduleReset (straps : BitVec 18)
  /-- PERST_ASSERT (R58): PERST_N goes low while MOD_RST_N is high, resetting the PCIe link and endpoint. -/
  | perstAssert
  /-- FUNCTION_LEVEL_RESET (R59): A PCIe FLR, the end of PERST_N or a D3hot-to-D0 transition abandons issued commands and resets the queues, the rings and the host pages. -/
  | functionLevelReset (cause : FlrCause)
  /-- FLR_COMPLETE (R59): The function-level reset finishes and the function answers configuration requests again. -/
  | flrComplete
  /-- THERMAL_SHUTDOWN (R383): A junction at or above 110 °C makes the power stages shut down in hardware, asserting FAULT_N and releasing the keepers. -/
  | thermalShutdown (die : Nat) (celsius : Int)
  /-- THERMAL_RESTART (R41): After thermal shutdown the module restarts once it has been reset or power-cycled and has cooled below 90 °C. -/
  | thermalRestart (compute io : List Int)
  /-- COOLANT_RISE (R34): The outlet exceeds the inlet by more than 22 K for 1 s, raising the event and asserting THERM_WARN_N. -/
  | coolantRise (inlet outlet : Int)
  /-- SUPPLY_LOW (R95): A blade stays below 41 V for 1 ms, setting low_a or low_b and raising module.supply.low. -/
  | supplyLow (bladeB : Bool) (steps : Nat)
  /-- ROOT_PLL_RETRY (R56): After every 10 ms without lock the root PLL tries to lock again. -/
  | rootPllRetry (locks : Bool)
  /-- CLOCK_UNLOCK (R57): A clock domain loses lock, relock_count increments and clk.domain.unlock is raised. -/
  | clockUnlock (loss : ClockLoss)
  /-- STEWARD_IMAGE_VERIFIED (R367): The boot ROM finishes choosing and verifying a bank and the Steward becomes ready. -/
  | stewardImageVerified (facts : BootFacts)
  /-- CELLAR_TRAINING_DONE (R222): Training of the LPDDR5X groups ends; hard PPR is applied, the bitmap is cleared and cellar_ready is set. -/
  | cellarTrainingDone (failed : List (Nat × Nat)) (spares : List (Nat × Nat × Nat))
  /-- FABRIC_READY (R68): Every enabled port has trained or been left dark and the tables are loaded, so the module enters fabric-ready. -/
  | fabricReady (ms : Nat)
  /-- PCIE_CONFIG_REQUEST (R62): A PCIe configuration request is answered with Request Retry Status until the Steward is ready. -/
  | pcieConfigRequest
  /-- PORT_KNOCK_START (R66): A calibration engine takes the next port from the training queue and sends knock ordered sets. -/
  | portKnockStart
  /-- KNOCK_RECEIVED (R66): A knock arrives and is answered with ready if an engine is on the port, or with false start otherwise. -/
  | knockReceived (port : Nat)
  /-- KNOCK_ANSWER_READY (R66): The far end answers ready and both ends train the link. -/
  | knockAnswerReady (port : Nat)
  /-- KNOCK_ANSWER_FALSE_START (R66): The far end answers false start, so the port backs off and its engine moves on. -/
  | knockAnswerFalseStart (port : Nat)
  /-- KNOCK_TIMEOUT (R66): No light arrives within 5 ms of the knock and the port backs off. -/
  | knockTimeout (port : Nat)
  /-- PORT_BACKOFF_EXPIRY (R67): A port's back-off wait ends and it rejoins the training queue. -/
  | portBackoffExpiry (port : Nat)
  /-- PORT_TRAIN_TIMEOUT (R67): train_timeout passes without training, so the port is left dark and port.train.failed is raised. -/
  | portTrainTimeout (port : Nat)
  /-- PORT_TRAINED (R66): Link training on a port completes and the link comes up. -/
  | portTrained (port : Nat)
  /-- LINK_IDENTITY (R257): The far end's device identifier and port arrive on VC0 and are checked against the cabling rules. -/
  | linkIdentity (port dev farPort : Nat)
  /-- REGISTER_WRITE (R79): A write to a register that has no behaviour of its own takes effect, with the last write winning. -/
  | registerWrite (bar off size : Nat) (v : Dword) (x : BusSur)
  /-- BAR0_BAD_ACCESS (R71): A BAR0 write of 1 or 2 bytes, or any unaligned access, is ignored and counted in size_errors. -/
  | bar0BadAccess (off size : Nat) (write : Bool)
  /-- BAR0_UNMAPPED_WRITE (R73): A write to an unassigned BAR0 page is ignored, counted and raises hif.bar0.unmapped. -/
  | bar0UnmappedWrite (off : Nat) (v : Word)
  /-- BLOCK_ENABLE (R404): Writing enable 1 starts a block or queue, which passes through starting to ready. -/
  | blockEnable (page : Nat) (unlock : BitVec 16)
  /-- BLOCK_DISABLE (R75): Writing enable 0 makes a block drain its accepted work and take no more. -/
  | blockDisable (page : Nat) (unlock : BitVec 16)
  /-- BLOCK_DRAINED (R75): A draining block finishes its accepted work and reads off. -/
  | blockDrained (page : Nat)
  /-- BLOCK_SOFT_RESET (R74): Writing soft_reset resets the block as its chapter states and closes its expert area. -/
  | blockSoftReset (page : Nat) (unlock : BitVec 16)
  /-- EXPERT_UNLOCK (R78): Writing 0x5EA7 to unlock opens the page's expert area. -/
  | expertUnlock (page : Nat)
  /-- EXPERT_LOCK (R78): A BLK_CTRL write with unlock 0x0000 closes the expert area. -/
  | expertLock (page : Nat)
  /-- EVENT_CLEAR (R77): Writing 1 to BLK_EVENT bits clears them, except where a set falls in the same cycle and wins. -/
  | eventClear (page : Nat) (bits : Word) (occ : List (Nat × Nat × List Nat))
  /-- EVENT_INJECT (R76): A write to BLK_EVENT_SET raises an injected occurrence of severity 7. -/
  | eventInject (page : Nat) (bits : Word)
  /-- EVENT_RING_ENABLE (R89): Writing EVQ_CFG enable 1 zeroes head and tail and flushes the holding log into the ring. -/
  | eventRingEnable (ring : Nat) (cfg : Word)
  /-- EVENT_RING_DISABLE (R89): Writing EVQ_CFG enable 0 disables the ring after the record in progress. -/
  | eventRingDisable (ring : Nat) (cfg : Word)
  /-- EVQ_HEAD_WRITE (R91): The host advances EVQ_HEAD, freeing slots and letting evq.ring.resumed be written. -/
  | evqHeadWrite (ring : Nat) (v : Word)
  /-- EVQ_HOLDOFF_EXPIRY (R93): holdoff microseconds pass since the first unsignalled record and the ring's MSI-X vector is sent. -/
  | evqHoldoffExpiry (ring : Nat)
  /-- PARTNER_REGISTER_ACCESS (R81): A partner's remote load or store to a register page on VC6 is served or refused under the permission rules. -/
  | partnerRegisterAccess (port : Nat) (p : Packet) (x : Meet)
  /-- BAR2_READ (R83): A host read through the BAR2 window reaches local or stadium-global memory. -/
  | bar2Read (off size : Nat) (x : BusSur)
  /-- BAR2_WRITE (R83): A host write through the BAR2 window reaches memory, or stores to a lap counter. -/
  | bar2Write (off : Nat) (data : List Byte) (x : BusSur)
  /-- DOE_DISCOVERY (R85): A DOE Discovery object is answered as PCI-SIG defines. -/
  | doeDiscovery (index : Nat)
  /-- DOE_ABORT (R85): A DOE abort discards the object in transfer. -/
  | doeAbort
  /-- MANAGEMENT_REQUEST (R49): An MCTP/PLDM request over SMBus is answered with sensor readings or control. -/
  | managementRequest (addr : Nat) (req : MgmtReq)
  /-- DOORBELL (R98): A write to CMD_Q_TAIL publishes new commands, or is ignored as a bad doorbell. -/
  | doorbell (q : Nat) (v : Word)
  /-- COMMAND_FETCH (R99): When table, queue and completion room allow, the KM7 fetches and issues a command and advances CMD_Q_HEAD. -/
  | commandFetch (q : Nat) (fetched : Option (List Byte))
  /-- COMMAND_TIMEOUT (R113): A command's timeout expires, so it ends with TIMEOUT and withdraws its watches. -/
  | commandTimeout (q idx : Nat)
  /-- COMMAND_RETIRE (R118): A unit ends a command; its events, remote signal, completion record, local signal and interrupt follow in order. -/
  | commandRetire (q idx : Nat) (tableFails counterFails : Bool)
  /-- MATMUL (R140): A matrix product is tiled over lanes and arrays and drained to C. -/
  | matmul (q idx : Nat) (sur : Surround)
  /-- MATMUL_TWIN (R145): The backward pair dX and dW is formed on the two arrays of each lane from one fetch of G. -/
  | matmulTwin (q idx : Nat) (sur : Surround)
  /-- FUSED_CHUNK_READY (R143): A fused product that waits for landing chunks loads its next stationary tile once they are usable. -/
  | fusedChunkReady (q idx : Nat) (sur : Surround)
  /-- ARRAY_WAKE (R152): An array with a row ready wakes, enabling its row groups along the ramp. -/
  | arrayWake (lane : Nat) (right : Bool)
  /-- ARRAY_CLOCK_OFF (R151): After more than 256 idle slots an array turns its clock off. -/
  | arrayClockOff (lane : Nat) (right : Bool)
  /-- VEC_RUN (R207): A vector program is loaded if needed, checked and run on each named lane. -/
  | vecRun (q idx : Nat) (sur : Surround)
  /-- VEC_NOP (R193): The nop instruction does nothing. -/
  | vecNop (lane : Nat) (sur : Surround)
  /-- VEC_END (R208): The end instruction ends the lane's program with status OK and an exit code. -/
  | vecEnd (lane : Nat) (sur : Surround)
  /-- VEC_BR (R193): The br instruction branches unconditionally. -/
  | vecBr (lane : Nat) (sur : Surround)
  /-- VEC_BZ (R193): The bz instruction branches when its scalar is zero. -/
  | vecBz (lane : Nat) (sur : Surround)
  /-- VEC_BNZ (R193): The bnz instruction branches when its scalar is not zero. -/
  | vecBnz (lane : Nat) (sur : Surround)
  /-- VEC_BLT (R193): The blt instruction branches when sa is less than sb, signed. -/
  | vecBlt (lane : Nat) (sur : Surround)
  /-- VEC_LOOP (R193): The loop instruction decrements its scalar and branches while it is not zero. -/
  | vecLoop (lane : Nat) (sur : Surround)
  /-- VEC_FENCE (R199): The fence instruction waits until every earlier memory and remote access has completed. -/
  | vecFence (lane : Nat) (sur : Surround)
  /-- VEC_SADD (R193): The sadd instruction forms the scalar sum sa + sb + imm. -/
  | vecSadd (lane : Nat) (sur : Surround)
  /-- VEC_SSUB (R193): The ssub instruction forms the scalar difference. -/
  | vecSsub (lane : Nat) (sur : Surround)
  /-- VEC_SMUL (R193): The smul instruction forms the low 64 bits of a scalar product. -/
  | vecSmul (lane : Nat) (sur : Surround)
  /-- VEC_SAND (R193): The sand instruction forms a scalar bitwise and. -/
  | vecSand (lane : Nat) (sur : Surround)
  /-- VEC_SOR (R193): The sor instruction forms a scalar bitwise or. -/
  | vecSor (lane : Nat) (sur : Surround)
  /-- VEC_SXOR (R193): The sxor instruction forms a scalar bitwise xor. -/
  | vecSxor (lane : Nat) (sur : Surround)
  /-- VEC_SSHL (R193): The sshl instruction shifts a scalar left. -/
  | vecSshl (lane : Nat) (sur : Surround)
  /-- VEC_SSHR (R193): The sshr instruction shifts a scalar right, logically. -/
  | vecSshr (lane : Nat) (sur : Surround)
  /-- VEC_SSRA (R193): The ssra instruction shifts a scalar right, arithmetically. -/
  | vecSsra (lane : Nat) (sur : Surround)
  /-- VEC_SLI (R193): The sli instruction loads an immediate into the whole scalar or its upper half. -/
  | vecSli (lane : Nat) (sur : Surround)
  /-- VEC_SMIN (R193): The smin instruction takes the signed minimum. -/
  | vecSmin (lane : Nat) (sur : Surround)
  /-- VEC_SMAX (R193): The smax instruction takes the signed maximum. -/
  | vecSmax (lane : Nat) (sur : Surround)
  /-- VEC_SSYS (R194): The ssys instruction reads a system value into a scalar. -/
  | vecSsys (lane : Nat) (sur : Surround)
  /-- VEC_SGET (R193): The sget instruction copies one vector element into a scalar. -/
  | vecSget (lane : Nat) (sur : Surround)
  /-- VEC_VADD (R195): The vadd instruction adds two vectors elementwise. -/
  | vecVadd (lane : Nat) (sur : Surround)
  /-- VEC_VSUB (R195): The vsub instruction subtracts two vectors elementwise. -/
  | vecVsub (lane : Nat) (sur : Surround)
  /-- VEC_VMUL (R195): The vmul instruction multiplies two vectors elementwise. -/
  | vecVmul (lane : Nat) (sur : Surround)
  /-- VEC_VFMA (R195): The vfma instruction forms a fused multiply-add, rounded once. -/
  | vecVfma (lane : Nat) (sur : Surround)
  /-- VEC_VMAX (R195): The vmax instruction takes the elementwise maximum. -/
  | vecVmax (lane : Nat) (sur : Surround)
  /-- VEC_VMIN (R195): The vmin instruction takes the elementwise minimum. -/
  | vecVmin (lane : Nat) (sur : Surround)
  /-- VEC_VABS (R193): The vabs instruction clears the sign bit of each element. -/
  | vecVabs (lane : Nat) (sur : Surround)
  /-- VEC_VNEG (R193): The vneg instruction flips the sign bit of each element. -/
  | vecVneg (lane : Nat) (sur : Surround)
  /-- VEC_VMULS (R193): The vmuls instruction multiplies a vector by a scalar. -/
  | vecVmuls (lane : Nat) (sur : Surround)
  /-- VEC_VADDS (R193): The vadds instruction adds a scalar to a vector. -/
  | vecVadds (lane : Nat) (sur : Surround)
  /-- VEC_VBCAST (R193): The vbcast instruction broadcasts a scalar or an immediate bfloat16 pattern. -/
  | vecVbcast (lane : Nat) (sur : Surround)
  /-- VEC_VSEL (R193): The vsel instruction selects between two vectors by a predicate. -/
  | vecVsel (lane : Nat) (sur : Surround)
  /-- VEC_VCMP (R195): The vcmp instruction compares two vectors into a predicate. -/
  | vecVcmp (lane : Nat) (sur : Surround)
  /-- VEC_VSQRT (R197): The vsqrt instruction forms a correctly rounded square root. -/
  | vecVsqrt (lane : Nat) (sur : Surround)
  /-- VEC_VRCP (R197): The vrcp instruction forms a reciprocal. -/
  | vecVrcp (lane : Nat) (sur : Surround)
  /-- VEC_VRSQRT (R197): The vrsqrt instruction forms a reciprocal square root. -/
  | vecVrsqrt (lane : Nat) (sur : Surround)
  /-- VEC_VEXP2 (R197): The vexp2 instruction forms 2^x. -/
  | vecVexp2 (lane : Nat) (sur : Surround)
  /-- VEC_VLOG2 (R197): The vlog2 instruction forms log2 x. -/
  | vecVlog2 (lane : Nat) (sur : Surround)
  /-- VEC_VEXP (R197): The vexp instruction forms e^x. -/
  | vecVexp (lane : Nat) (sur : Surround)
  /-- VEC_VTANH (R197): The vtanh instruction forms tanh x. -/
  | vecVtanh (lane : Nat) (sur : Surround)
  /-- VEC_VSIG (R197): The vsig instruction forms the logistic sigmoid. -/
  | vecVsig (lane : Nat) (sur : Surround)
  /-- VEC_VSIN (R197): The vsin instruction forms sin x. -/
  | vecVsin (lane : Nat) (sur : Surround)
  /-- VEC_VCOS (R197): The vcos instruction forms cos x. -/
  | vecVcos (lane : Nat) (sur : Surround)
  /-- VEC_VIADD (R193): The viadd instruction adds int32 elements modulo 2^32. -/
  | vecViadd (lane : Nat) (sur : Surround)
  /-- VEC_VIOTA (R193): The viota instruction writes an index sequence. -/
  | vecViota (lane : Nat) (sur : Surround)
  /-- VEC_VCVTFI (R197): The vcvtfi instruction converts binary32 to int32 with saturation. -/
  | vecVcvtfi (lane : Nat) (sur : Surround)
  /-- VEC_VCVTIF (R197): The vcvtif instruction converts int32 to binary32. -/
  | vecVcvtif (lane : Nat) (sur : Surround)
  /-- VEC_VRSUM (R196): The vrsum instruction sums the elements with a fixed tree. -/
  | vecVrsum (lane : Nat) (sur : Surround)
  /-- VEC_VRMAX (R196): The vrmax instruction takes the maximum element with a fixed tree. -/
  | vecVrmax (lane : Nat) (sur : Surround)
  /-- VEC_VRMIN (R196): The vrmin instruction takes the minimum element with a fixed tree. -/
  | vecVrmin (lane : Nat) (sur : Surround)
  /-- VEC_VARGMAX (R196): The vargmax instruction finds the maximum element and its lowest index. -/
  | vecVargmax (lane : Nat) (sur : Surround)
  /-- VEC_PAND (R193): The pand instruction ands two predicates. -/
  | vecPand (lane : Nat) (sur : Surround)
  /-- VEC_POR (R193): The por instruction ors two predicates. -/
  | vecPor (lane : Nat) (sur : Surround)
  /-- VEC_PXOR (R193): The pxor instruction xors two predicates. -/
  | vecPxor (lane : Nat) (sur : Surround)
  /-- VEC_PNOT (R193): The pnot instruction inverts a predicate. -/
  | vecPnot (lane : Nat) (sur : Surround)
  /-- VEC_PSET (R193): The pset instruction sets a predicate from a scalar. -/
  | vecPset (lane : Nat) (sur : Surround)
  /-- VEC_PCNT (R193): The pcnt instruction counts the bits of a predicate into a scalar. -/
  | vecPcnt (lane : Nat) (sur : Surround)
  /-- VEC_VLD (R198): The vld instruction loads 64 elements from memory in a given format. -/
  | vecVld (lane : Nat) (sur : Surround)
  /-- VEC_VST (R198): The vst instruction stores 64 elements to memory in a given format. -/
  | vecVst (lane : Nat) (sur : Surround)
  /-- VEC_VGATH (R193): The vgath instruction gathers 32-bit words by vector index. -/
  | vecVgath (lane : Nat) (sur : Surround)
  /-- VEC_VSCAT (R193): The vscat instruction scatters 32-bit words by vector index. -/
  | vecVscat (lane : Nat) (sur : Surround)
  /-- VEC_SLD (R198): The sld instruction loads a 64-bit scalar. -/
  | vecSld (lane : Nat) (sur : Surround)
  /-- VEC_SST (R198): The sst instruction stores a 64-bit scalar. -/
  | vecSst (lane : Nat) (sur : Surround)
  /-- VEC_RLD (R200): The rld instruction reads 256 bytes from a stadium-global address. -/
  | vecRld (lane : Nat) (sur : Surround)
  /-- VEC_RST (R200): The rst instruction writes 256 bytes to a stadium-global address. -/
  | vecRst (lane : Nat) (sur : Surround)
  /-- VEC_RATOM_ADD (R200): The ratom instruction with mod 0 performs a remote atomic add. -/
  | vecRatomAdd (lane : Nat) (sur : Surround)
  /-- VEC_RATOM_SWAP (R200): The ratom instruction with mod 1 performs a remote atomic swap. -/
  | vecRatomSwap (lane : Nat) (sur : Surround)
  /-- VEC_RATOM_CAS (R200): The ratom instruction with mod 2 performs a remote compare-and-swap. -/
  | vecRatomCas (lane : Nat) (sur : Surround)
  /-- VEC_RANK (R201): The rank instruction resolves a logical rank to a global address base, waiting out a hurdle. -/
  | vecRank (lane : Nat) (sur : Surround)
  /-- VEC_VUNIF (R202): The vunif instruction writes keyed uniform draws. -/
  | vecVunif (lane : Nat) (sur : Surround)
  /-- VEC_VGUMBEL (R202): The vgumbel instruction writes keyed Gumbel draws. -/
  | vecVgumbel (lane : Nat) (sur : Surround)
  /-- VEC_VTOPK (R203): The vtopk instruction merges candidates into a sorted top-k list. -/
  | vecVtopk (lane : Nat) (sur : Surround)
  /-- VEC_VTOPP (R204): The vtopp instruction sets a nucleus mask from sorted probabilities. -/
  | vecVtopp (lane : Nat) (sur : Surround)
  /-- DMA_COPY (R232): Rows are moved between memories over the named lanes, optionally through the Cabouz codec. -/
  | dmaCopy (q idx : Nat) (sur : Surround)
  /-- SCALE_FIND (R185): A source tensor is measured and its maximum is folded into a scale slot. -/
  | scaleFind (q idx : Nat) (sur : Surround)
  /-- CONVERT (R185): A tensor is converted to another format with the chosen shift method. -/
  | convert (q idx : Nat) (sur : Surround)
  /-- COLL_REDUCE_SCATTER (R284): Contributions are reduced in fixed order, each owner keeping its shard. -/
  | collReduceScatter (q idx : Nat) (sur : Surround)
  /-- COLL_ALL_GATHER (R291): The shares are gathered to every member, optionally into a landing. -/
  | collAllGather (q idx : Nat) (sur : Surround)
  /-- COLL_ALL_REDUCE (R289): Contributions are reduced and the results are sent to every member. -/
  | collAllReduce (q idx : Nat) (sur : Surround)
  /-- COLL_BROADCAST (R279): The root's data is sent to every member of the group. -/
  | collBroadcast (q idx : Nat) (sur : Surround)
  /-- COLL_ALL_TO_ALL (R295): Entries are exchanged between all positions with fixed capacity. -/
  | collAllToAll (q idx : Nat) (sur : Surround)
  /-- CHUNK_CONTRIB (R287): An arriving CONTRIB chunk is checked and taken for the owner's fixed-order sum, or NAKed. -/
  | chunkContrib (m : ChunkMsg) (x : Meet)
  /-- CHUNK_RESULT (R288): An arriving RESULT chunk is written, checked, marked usable and ACKed, or NAKed. -/
  | chunkResult (m : ChunkMsg) (x : Meet)
  /-- CHUNK_ACK (R289): An ACK reaches the owner, which sends CONFIRM once every receiver has acknowledged. -/
  | chunkAck (m : ChunkMsg) (x : Meet)
  /-- CHUNK_NAK (R288): A NAK makes the sender re-check and re-send its chunk, or void it. -/
  | chunkNak (m : ChunkMsg) (x : Meet)
  /-- CHUNK_CONFIRM (R289): A CONFIRM settles a received chunk toward the collective's retirement. -/
  | chunkConfirm (m : ChunkMsg) (x : Meet)
  /-- CHUNK_VOID (R290): A VOID ends the member's collective with COLL_VOID and stops or flags its fused consumers. -/
  | chunkVoid (m : ChunkMsg) (x : Meet)
  /-- CHUNK_LATER (R296): A LATER answer makes the sender hold the chunk for later_retry. -/
  | chunkLater (m : ChunkMsg) (x : Meet)
  /-- CHUNK_STALE (R296): A STALE answer ends the sender's command with EPOCH_ABANDONED. -/
  | chunkStale (m : ChunkMsg) (x : Meet)
  /-- LATER_RETRY_EXPIRY (R296): later_retry passes and a chunk answered LATER is sent again. -/
  | laterRetryExpiry (q idx : Nat) (x : Meet)
  /-- HURDLE_WAIT_EXPIRY (R297): hurdle_wait passes and unsettled old-epoch chunks are abandoned. -/
  | hurdleWaitExpiry (q idx : Nat)
  /-- UPD_SWEEP_ADAMW (R310): An owner sweep applies AdamW to each shard and commits it to the idle slot. -/
  | updSweepAdamw (q idx : Nat) (sur : Surround)
  /-- UPD_SWEEP_MOMENTUM (R310): An owner sweep applies momentum SGD to each shard and commits it. -/
  | updSweepMomentum (q idx : Nat) (sur : Surround)
  /-- UPD_SWEEP_OUTER (R312): The marathon outer step is applied to anchor shards and the inner shards are committed. -/
  | updSweepOuter (q idx : Nat) (sur : Surround)
  /-- UPD_SWEEP_FETCH (R316): The owner's committed weights are copied and proven against their digest. -/
  | updSweepFetch (q idx : Nat) (sur : Surround)
  /-- UPD_SWEEP_AUDIT (R317): Resident slots or copies are re-digested against their records. -/
  | updSweepAudit (q idx : Nat) (sur : Surround)
  /-- FETCH_RETRY_EXPIRY (R316): fetch_retry passes and the owner's record is read again. -/
  | fetchRetryExpiry (q idx : Nat) (sur : Surround)
  /-- BACKGROUND_AUDIT_DONE (R317): A background audit ends and the update-class commands it held are released. -/
  | backgroundAuditDone (sur : Surround)
  /-- EXPORT (R322): Shards, slot records and loss state are written as a checked record stream. -/
  | exportCmd (q idx : Nat) (sur : Surround)
  /-- IMPORT (R323): A record stream is written into the idle slots and the shards it covers are committed. -/
  | importCmd (q idx : Nat) (sur : Surround)
  /-- BATON_SEND_RELAY (R345): A relay message is cut into parcels and sent toward the destination building. -/
  | batonSendRelay (q idx : Nat) (sur : Surround)
  /-- BATON_SEND_FLAG (R349): The step's overflow flag is sent to the other buildings. -/
  | batonSendFlag (q idx : Nat) (sur : Surround)
  /-- BATON_SEND_BATON (R350): Differences from the anchor are coded into batons, stored and sent to the participants. -/
  | batonSendBaton (q idx : Nat) (sur : Surround)
  /-- BATON_SEND_MERGE (R352): The merged difference of the admitted batons is formed with staleness weights. -/
  | batonSendMerge (q idx : Nat) (sur : Surround)
  /-- BATON_SEND_MANIFEST (R353): A round manifest is sent to the participants in the mask. -/
  | batonSendManifest (q idx : Nat) (sur : Surround)
  /-- BATON_SEND_TRANSFER (R358): Bytes are transferred to a participant's gateway. -/
  | batonSendTransfer (q idx : Nat) (sur : Surround)
  /-- BATON_SEND_REBASE (R355): The shards are rebased onto a reconciled anchor. -/
  | batonSendRebase (q idx : Nat) (sur : Surround)
  /-- LAP_WAIT (R122): The command retires once its waits are satisfied, and signals. -/
  | lapWait (q idx : Nat) (sur : Surround)
  /-- LAP_SIGNAL_ADD (R122): LAP.SIGNAL with operand 0 adds sig_add to the referenced counter. -/
  | lapSignalAdd (q idx : Nat) (sur : Surround)
  /-- LAP_SIGNAL_STORE (R122): LAP.SIGNAL with operand 1 stores a 64-bit value to the referenced counter. -/
  | lapSignalStore (q idx : Nat) (sur : Surround)
  /-- FENCE (R122): The command retires once every earlier command of its queue, or of every queue, has retired. -/
  | fence (q idx : Nat) (sur : Surround)
  /-- HURDLE (R124): The target epoch is set, dispatch of epoch-bound commands stops, and old-epoch work closes. -/
  | hurdle (q idx : Nat) (sur : Surround)
  /-- HURDLE_TABLE_LOAD (R124): After old-epoch work has retired, the tables are loaded, the epoch changes and dispatch resumes. -/
  | hurdleTableLoad (q idx : Nat) (sur : Surround)
  /-- PROFILE_SWITCH (R389): A profile switch releases leaving ports and applies the new profile. -/
  | profileSwitch (q idx : Nat) (sur : Surround)
  /-- HOST_LAP_ADD (R114): A write to LAP_ADD adds to the selected counter. -/
  | hostLapAdd (v : Word) (counterFails : Bool)
  /-- WATCH_RETRY_EXPIRY (R116): watch_retry passes after a busy answer and the watch is sent again. -/
  | watchRetryExpiry (q idx w : Nat)
  /-- LANE_RESET (R60): RST_LANE start ends the lane's commands with LANE_RESET and reloads its Marshal. -/
  | laneReset (lane : Nat)
  /-- LANE_RESET_DONE (R60): The lane reset ends and lane.reset.done is raised. -/
  | laneResetDone (lane : Nat)
  /-- PORT_RESET (R60): RST_PORT start takes the link down for fresh training. -/
  | portReset (n : Nat)
  /-- JOB_DECLARE (R180): A NUM_JOB write declares or ends the job and checks the arithmetic revision. -/
  | jobDeclare (v : Word)
  /-- SLOT_SELECT (R173): A NUM_SLOT_SEL write selects a slot and discards staged words. -/
  | slotSelect (v : Word)
  /-- SLOT_WINDOW_COMMIT (R173): A write to NUM_SLOT_DATA19 commits the staged slot record, possibly after a wait. -/
  | slotWindowCommit (v : Word)
  /-- SLOT_WINDOW_COMMIT_DONE (R173): The commands that held a window commit retire and the staged record is written. -/
  | slotWindowCommitDone
  /-- TABLE_COMMIT (R248): Writing commit makes the idle Cabouz bank current with a new generation. -/
  | tableCommit (slot : Nat) (gen : Nat)
  /-- TABLE_RETIRE (R248): Writing retire drains the slot's current Cabouz table. -/
  | tableRetire (slot : Nat)
  /-- CELLAR_RETRAIN_TICK (R224): The oscillator interval or a temperature step triggers a run of the interval oscillators and a delay correction. -/
  | cellarRetrainTick (pkg : Nat) (drifts : List Int)
  /-- CELLAR_RETRAIN_NOW (R224): A write of retrain_now runs the package's oscillators at once. -/
  | cellarRetrainNow (pkg : Nat) (drifts : List Int)
  /-- MR4_POLL (R225): Every 16 ms MR4 is read and the refresh rate is set, with cel.temp.high raised when needed. -/
  | mr4Poll (pkg rate : Nat) (above : Bool)
  /-- PATROL_READ (R229): The patrol reads and checks initialised cellar lines once per period. -/
  | patrolRead (line : Nat) (hits : List Hit) (last : Bool)
  /-- CELLAR_INIT_REGION (R226): The background initialiser zeroes a 2 KiB region and sets its bitmap bit. -/
  | cellarInitRegion (channel ms : Nat)
  /-- FLIT_RECEIVE (R261): A flit is checked and delivered in sequence, or naked, and its acknowledgements and credits are taken. -/
  | flitReceive (n : Nat) (f : Flit) (corrected : List Nat) (uncorrectable parity bufBad : Bool)
  /-- REPLAY_TIMEOUT (R261): The oldest unacknowledged flit waits replay_timeout and the transmitter replays from it. -/
  | replayTimeout (n : Nat) (bufBad : Bool)
  /-- LOSS_OF_LIGHT (R272): A port loses light and goes down with cause 2. -/
  | lossOfLight (n : Nat)
  /-- LANE_LOSS_OF_LOCK (R258): An active lane loses lock and a spare-lane swap starts, or the port goes down. -/
  | laneLossOfLock (n lane : Nat)
  /-- CORRECTED_SYMBOL_LIMIT (R258): A lane's corrected symbols in one second exceed 2^lane_log2 and a swap starts. -/
  | correctedSymbolLimit (n lane count : Nat)
  /-- LANE_SWAP_HOST (R258): A write of swap in PORT_LANE requests a spare-lane swap. -/
  | laneSwapHost (n : Nat) (v : Word)
  /-- SWAP_REQUEST_RECEIVED (R258): A swap request arrives on VC0 and both ends stop new flits. -/
  | swapRequestReceived (n lane : Nat) (answer : Bool)
  /-- SWAP_DRAIN_DONE (R258): The replay buffer empties and the spare lane is trained. -/
  | swapDrainDone (n : Nat)
  /-- SPARE_LANE_TRAINED (R258): The spare lane is mapped in and the port resumes. -/
  | spareLaneTrained (n us : Nat)
  /-- FABRIC_READ (R267): A read request is performed at the target and answered. -/
  | fabricRead (port : Nat) (p : Packet) (x : Meet)
  /-- FABRIC_WRITE (R267): A write request is performed in chan_seq order and answered. -/
  | fabricWrite (port : Nat) (p : Packet) (x : Meet)
  /-- FABRIC_MASKED_WRITE (R266): A masked write of one line is performed. -/
  | fabricMaskedWrite (port : Nat) (p : Packet) (x : Meet)
  /-- FABRIC_ATOMIC_ADD (R267): An atomic add is performed indivisibly and the old value is returned. -/
  | fabricAtomicAdd (port : Nat) (p : Packet) (x : Meet)
  /-- FABRIC_ATOMIC_SWAP (R267): An atomic swap is performed and the old value is returned. -/
  | fabricAtomicSwap (port : Nat) (p : Packet) (x : Meet)
  /-- FABRIC_COMPARE_AND_SWAP (R267): A compare-and-swap is performed and the old value is returned. -/
  | fabricCompareAndSwap (port : Nat) (p : Packet) (x : Meet)
  /-- FABRIC_WATCH (R116): A watch is answered, held until its condition holds, or answered busy. -/
  | fabricWatch (port : Nat) (p : Packet) (x : Meet)
  /-- INSERT_REQUEST (R275): A neighbour drains the port facing the requester before answering ready. -/
  | insertRequest (port : Nat) (p : Packet) (x : Meet)
  /-- INSERT_FORWARD (R275): A heat-mate finds the requester's two neighbours and sends them insert requests. -/
  | insertForward (port : Nat) (p : Packet) (x : Meet)
  /-- INSERT_DRAIN_DONE (R275): The facing port's replay buffer empties and the neighbour answers ready. -/
  | insertDrainDone (n : Nat)
  /-- FABRIC_RESPONSE (R268): A response frees its transaction entry, or is discarded when it matches none. -/
  | fabricResponse (port : Nat) (p : Packet) (bad : Bool)
  /-- REROUTE_DRAIN_EXPIRY (R272): drain_us passes, so the destination moves to its alternate descriptor. -/
  | rerouteDrainExpiry (dst : Nat)
  /-- PACKET_FORWARD (R270): A transit device forwards a packet by its route descriptor, or answers route down. -/
  | packetForward (port : Nat) (p : Packet)
  /-- TXN_TIMEOUT (R268): A transaction outstanding for txn_timeout is declared lost. -/
  | txnTimeout (tag : Nat)
  /-- RING_INSERT_START (R275): With allow set and the ports in loopback, the KM7 sends an insert forward to a heat-mate. -/
  | ringInsertStart (axisY : Bool)
  /-- INSERT_WAIT_EXPIRY (R275): insert_wait passes and unanswered neighbours are treated as absent. -/
  | insertWaitExpiry (axisY : Bool)
  /-- RING_RELEASE (R54): Writing allow 0 sends drain messages and drains the axis's ports. -/
  | ringRelease (axisY : Bool)
  /-- RELEASE_DRAIN_DONE (R275): The drain ends, so the keeper drive is lowered and fabric.release.done is raised. -/
  | releaseDrainDone (axisY : Bool)
  /-- DRAIN_MESSAGE (R275): A drain message on VC0 makes the neighbour drain its facing port. -/
  | drainMessage (n : Nat)
  /-- STADIUM_TIME_EXCHANGE (R340): A time exchange in VC0 link-control flits updates the offset from the source. -/
  | stadiumTimeExchange (n : Nat) (m : Option LinkMsg) (stamp : Nat)
  /-- MILANT_LINK_UP (R327): A Milant port's link comes up. -/
  | milantLinkUp (port : Nat)
  /-- MILANT_LINK_DOWN (R327): A Milant port's link goes down and its traffic moves to the other port. -/
  | milantLinkDown (port : Nat)
  /-- FOREIGN_FRAME (R328): A frame of another source or kind is dropped and counted in MIL_DROP. -/
  | foreignFrame (port : Nat)
  /-- RELAY_PARCEL (R346): A relay parcel is forwarded, or written and signalled, and acknowledged in stream order. -/
  | relayParcel (port : Nat) (f : DataFrame) (found : List DataFrame) (x : Meet)
  /-- FLAG_PARCEL (R349): A flag parcel is ORed into the step flag and signals its counter. -/
  | flagParcel (port : Nat) (f : DataFrame) (found : List DataFrame) (x : Meet)
  /-- BATON_PARCEL (R351): A baton is checked, forwarded to its members and stored in the baton cellar, or dropped. -/
  | batonParcel (port : Nat) (f : DataFrame) (found : List DataFrame) (x : Meet)
  /-- MANIFEST_PARCEL (R353): A manifest is stored in its round slot and mil.manifest.received is raised. -/
  | manifestParcel (port : Nat) (f : DataFrame) (found : List DataFrame) (x : Meet)
  /-- TRANSFER_PARCEL (R358): A transfer lands on the gateway device and signals its counter. -/
  | transferParcel (port : Nat) (f : DataFrame) (found : List DataFrame) (x : Meet)
  /-- CONTROL_ACKNOWLEDGE (R331): An acknowledge entry releases a message's parcels at the sender. -/
  | controlAcknowledge (port : Nat) (f : DataFrame) (found : List DataFrame) (x : Meet)
  /-- CONTROL_RESEND (R331): A re-send entry makes the sender read its source again and re-send the named parcels. -/
  | controlResend (port : Nat) (f : DataFrame) (found : List DataFrame) (x : Meet)
  /-- CONTROL_WITHDRAW (R347): A withdraw entry makes the receiver discard the message and skip its msg_seq. -/
  | controlWithdraw (port : Nat) (f : DataFrame) (found : List DataFrame) (x : Meet)
  /-- REPAIR_FRAME (R333): A repair frame is taken toward resolving its erasure group, rebuilding missing frames. -/
  | repairFrame (port : Nat) (r : Repair) (found : List DataFrame) (x : Meet)
  /-- PTP_MESSAGE (R342): A PTP message updates the offset, stepping or steering device time. -/
  | ptpMessage (port an pn : Nat) (icv : Bool) (domain : Nat) (m : PtpFrame) (stamp : Nat)
  /-- PTP_SYNC_TIMER (R341): Every 2^-4 s a served port sends Sync and Follow_Up. -/
  | ptpSyncTimer (port : Nat)
  /-- TIME_SOURCE_LOST (R342): No exchange succeeds for 1 s, so the clock enters holdover. -/
  | timeSourceLost
  /-- PPS_EDGE (R343): A PPS_IN rising edge sets the site master's count to the armed second. -/
  | ppsEdge
  /-- TIM_SET_ARM (R343): A write to TIM_SET_HI arms the seconds for the next PPS edge. -/
  | timSetArm (v : Word)
  /-- GROUP_HOLD_EXPIRY (R332): group_hold passes, so the erasure group closes and its repair frames are sent. -/
  | groupHoldExpiry (port : Nat)
  /-- GROUP_WAIT_EXPIRY (R333): An unresolved group is abandoned and its parcels are requested again. -/
  | groupWaitExpiry (port pnFirst : Nat)
  /-- RESEND_TIMEOUT (R331): resend_timeout passes and unacknowledged parcels are re-sent. -/
  | resendTimeout (q idx : Nat) (sur : Surround)
  /-- RELAY_TIMEOUT (R347): A relay message is not acknowledged in time and ends with RELAY_TIMEOUT. -/
  | relayTimeout (q idx : Nat)
  /-- KEY_INSTALL (R335): The install operation unwraps an association into the strongroom. -/
  | keyInstall (v : Word) (unwraps : Bool)
  /-- KEY_ERASE (R335): The erase operation removes an installed association. -/
  | keyErase (v : Word)
  /-- KEY_SCHED_ARM (R337): The arm operation schedules a key change at instant T, or is refused. -/
  | keySchedArm (v : Word)
  /-- KEY_CHANGE_INSTANT (R338): At T the transmitter closes its group and moves to the new association. -/
  | keyChangeInstant (port : Nat) (receive : Bool)
  /-- OLD_TX_ASSOC_ERASE (R338): The old transmit association is erased once its last frame has left. -/
  | oldTxAssocErase (port : Nat)
  /-- KEY_GRACE_EXPIRY (R338): The receive grace passes, so the old AN is erased and key.retired is raised. -/
  | keyGraceExpiry (port : Nat)
  /-- WATCHDOG_EXPIRY (R362): A Steward watchdog expires and the Steward complex alone resets and re-verifies. -/
  | watchdogExpiry (which : Nat)
  /-- STEWARD_RESTARTED (R362): The Steward image verifies again and the Steward resumes its services. -/
  | stewardRestarted (readOk : Bool)
  /-- UPDATE_MANIFEST (R369): An update manifest record is checked and staged, or refused. -/
  | updateManifest (mailbox : Bool) (record : List Byte) (hi : Word) (hits : List Hit)
  /-- UPDATE_PIECE (R370): A piece record is checked, stored in staging and marked in the bitmap. -/
  | updatePiece (mailbox : Bool) (record : List Byte) (hi : Word) (hits : List Hit)
  /-- UPDATE_STATUS (R370): A status record returns the piece bitmap. -/
  | updateStatus (mailbox : Bool) (record : List Byte) (hi : Word) (hits : List Hit)
  /-- UPDATE_APPLY_DONE (R371): Application finishes, verifying and setting pending, or fails. -/
  | updateApplyDone (flashFails : Option Nat)
  /-- FWU_CONFIRM (R372): The confirm operation makes the trial bank active and burns the fuses. -/
  | fwuConfirm
  /-- FWU_REVERT (R372): The revert operation makes the old bank pending. -/
  | fwuRevert
  /-- FWU_ABANDON (R369): The abandon operation discards staging and the manifest. -/
  | fwuAbandon
  /-- FWU_APPLY (R371): The apply operation applies a complete update while hold_apply is set. -/
  | fwuApply
  /-- ATTEST_REPORT (R376): A report request is answered with a signed report. -/
  | attestReport (nonce : List Byte)
  /-- ATTEST_ENDORSEMENT (R378): An endorsement request returns the factory endorsement. -/
  | attestEndorsement
  /-- SET_KEK (R374): A type-3 request decapsulates a new key-encryption key. -/
  | setKek (ciphertext : List Byte)
  /-- DEBUG_CHALLENGE (R375): A debug challenge request returns a fresh challenge. -/
  | debugChallenge
  /-- DEBUG_UNLOCK (R377): A debug token is verified; on success keys are erased and the instruments open. -/
  | debugUnlock (key : List Byte) (serial : Nat) (challenge : List Byte) (scope : Nat) (sig : List Byte)
  /-- PROFILE_WRITE (R388): A PRF_WRITE write starts writing a checked profile record to flash. -/
  | profileWrite (v : Word) (hits : List Hit)
  /-- PROFILE_WRITE_DONE (R388): The profile write ends, and its result and prf.written are reported. -/
  | profileWriteDone (flashOk : Bool)
  /-- CAP_LOOP_TICK (R382): Every 1 ms the power-cap loop measures power and adjusts cap_level. -/
  | capLoopTick (mvA maA mvB maB : Nat)
  /-- VOLTAGE_LOOP_TICK (R381): Every 1 ms the voltage loop moves each die's setpoint by the ring-oscillator count. -/
  | voltageLoopTick (die count : Nat)
  /-- THERMAL_SAMPLE (R383): Every 100 µs the junctions are read and therm_level is adjusted. -/
  | thermalSample (x : ThermalReading)
  /-- DROOP_DETECT (R381): A lane's core voltage falls below threshold and the lane stretches every slot. -/
  | droopDetect (lane mv : Nat)
  /-- DROOP_RELEASE (R381): After 64 slots above the release level the lane returns to level L. -/
  | droopRelease (lane : Nat) (x : DroopEnd)
  /-- CLOCK_DOMAIN_RELOCK (R57): A clock domain that had lost lock, or whose reference was missing, locks again and its lock bit and reference status return to 1. -/
  | clockDomainRelock (domain : Nat)
  /-- PCIE_LINK_UP (R62): PCIe link training completes, HIF_LINK shows the trained rate and width, and the 1 s bound on retry status starts. -/
  | pcieLinkUp (gen width : Nat) (flitMode : Bool)
  /-- KEEPER_LEVEL_HOLD_EXPIRY (R52): The 10 ms minimum hold of a RING_HOLD level runs out, so a level change that was requested earlier now takes effect. -/
  | keeperLevelHoldExpiry (axisY : Bool)
  /-- JTAG_ACCESS (R50): TCK, TMS, TDI and TRST_N drive the IEEE 1149.1 TAP, for boundary scan of the low-speed pins or, after debug unlock, the IEEE 1687 instruments. -/
  | jtagAccess (trstN tms : Bool) (x : BoardPins)
  deriving DecidableEq, Repr

end Sys2Proof
end

