-- ==== Sys2Proof/Machine/Bits.lean ====
section
/-! DEFINITION. Bit fields, little-endian byte strings and the plain integer helpers of the model. -/

namespace Sys2Proof.Machine

/-- Bits lo to lo + w - 1 of a number. -/
def bitsOf (n lo w : Nat) : Nat := (n >>> lo) % 2 ^ w

/-- One bit of a number. -/
def bitOf (n i : Nat) : Bool := (n >>> i) % 2 == 1

/-- 1 for true, 0 for false. -/
def b2n (b : Bool) : Nat := if b then 1 else 0

/-- Replace the bits lo to lo + w - 1 of a 32-bit word. -/
def insertBits (x : Word) (lo w v : Nat) : Word :=
  BitVec.ofNat 32 (x.toNat - bitsOf x.toNat lo w * 2 ^ lo + (v % 2 ^ w) * 2 ^ lo)

/-- A saturating increment of a w-bit count. -/
def satAdd (w a b : Nat) : Nat := min (a + b) (2 ^ w - 1)

/-- The little-endian number of a byte string (R105). -/
def leNat : List Byte → Nat
  | [] => 0
  | b :: t => b.toNat + 256 * leNat t

/-- A number as n little-endian bytes. -/
def natLe : Nat → Nat → List Byte
  | 0, _ => []
  | n + 1, v => BitVec.ofNat 8 v :: natLe n (v / 256)

/-- The n bytes of a byte string from offset o (0 past its end). -/
def bytesAt (bs : List Byte) (o n : Nat) : List Byte :=
  (List.range n).map (fun i => (bs[o + i]?).getD 0)

/-- A little-endian field of n bytes at offset o of a byte string. -/
def leAt (bs : List Byte) (o n : Nat) : Nat := leNat (bytesAt bs o n)

/-- Bytes o to o + n - 1 are all zero. -/
def zeroAt (bs : List Byte) (o n : Nat) : Bool := (bytesAt bs o n).all (· == 0)

/-- A w-bit two's-complement number as an integer. -/
def signed (w n : Nat) : Int := if n % 2 ^ w < 2 ^ (w - 1) then ((n % 2 ^ w : Nat) : Int) else ((n % 2 ^ w : Nat) : Int) - (2 ^ w : Nat)

/-- An integer as a w-bit two's-complement number. -/
def unsigned (w : Nat) (i : Int) : Nat := (i % ((2 ^ w : Nat) : Int)).toNat

/-- Clamp an integer to a range. -/
def clampInt (lo hi i : Int) : Int := max lo (min hi i)

/-- The quotient rounded up. -/
def ceilDiv (a b : Nat) : Nat := (a + b - 1) / b

/-- Round up to a multiple. -/
def roundUp (a b : Nat) : Nat := ceilDiv a b * b

/-- Replace the element at a place of a list (a place past the end changes nothing). -/
def setAt {α : Type} (l : List α) (i : Nat) (v : α) : List α := l.set i v

/-- The bits of a 64-bit number as a list of booleans, bit 0 first. -/
def maskBits (m : Nat) : List Bool := (List.range 64).map (fun i => bitOf m i)

/-- The exclusive or of two numbers. -/
def xorNat (a b : Nat) : Nat := a ^^^ b

end Sys2Proof.Machine
end

