-- ==== Sys2Proof/Machine/Crc.lean ====
section
/-! DEFINITION. The check codes of the spec: CRC-32C as RFC 3720 defines it (R260, R273), and the digest of R306. -/

namespace Sys2Proof.Machine

/-- One bit step of a reflected CRC with polynomial p. -/
def crcStep (p : Nat) : Nat → Nat → Nat
  | 0, c => c
  | k + 1, c => crcStep p k (if c % 2 = 1 then xorNat (c / 2) p else c / 2)

/-- CRC-32C of a byte string: polynomial 0x1EDC_6F41 reflected, initial value and final exclusive or all ones. -/
def crc32c (bs : List Byte) : Nat :=
  xorNat (bs.foldl (fun c b => crcStep 0x82F63B78 8 (xorNat c b.toNat)) 0xFFFFFFFF) 0xFFFFFFFF

/-- One bit step of a CRC of 64 bits, most significant bit first. -/
def crc64Step : Nat → Nat → Nat
  | 0, c => c
  | k + 1, c => crc64Step k (if 2 ^ 63 ≤ c then xorNat (2 * c % 2 ^ 64) 0x42F0E1EBA9EA3693 else 2 * c)

/-- CRC-64/ECMA-182 of a byte string (R306). -/
def crc64 (bs : List Byte) : Nat := bs.foldl (fun c b => crc64Step 8 (xorNat c (b.toNat * 2 ^ 56))) 0

end Sys2Proof.Machine
end

