-- ==== Sys2Proof/Config.lean ====
section
/-! DEFINITION. The free values of the model: constants without a body, so that nothing can be proved of them. Each
stands where the spec states an effect and leaves a value open (the assumption log names each one). -/

namespace Sys2Proof.Config

/-- The n-th byte the spec leaves unspecified: the contents of a stopped command's destination (R113, R143, R149,
R185, R208). Applied to State's counter of free values. -/
opaque freeByte : Nat → Byte

/-- The binary32 pattern a transcendental instruction produces before the model holds it to the error bound of R197:
the spec gives a bound and says that the result is one fixed function of the input. The first argument is the
opcode. -/
opaque transcendental : Nat → Word → Word

/-- The payload bytes of a VC0 link-control flit (R257, R258, R275): the spec names the messages and gives them no
layout. Applied to a number of the message. -/
opaque linkMsgBytes : Nat → Byte

/-- The bank and row of a channel offset (R219: the placement is the controller's). -/
opaque rowOf : Nat → Nat

/-- A fresh random value of the KM7 whose bits the spec does not give: a challenge (R377), a MACsec secret. -/
opaque freshBits : Nat → BitVec 256

/-- The signature the strongroom makes over a message with the key pair of a seed (ML-DSA-44 of FIPS 204, R376). Applied to
the seed, the signed bytes and the counter of free values. -/
opaque signature : List Byte → List Byte → Nat → List Byte

/-- The public key that KeyGen makes of a seed (R373): 44 ML-DSA-44 of FIPS 204, 768 ML-KEM-768 of FIPS 203. -/
opaque publicKey : Nat → List Byte → List Byte

/-- The shared secret decapsulated from a ciphertext with the key pair of a seed (ML-KEM-768 of FIPS 203, R374). -/
opaque decapsulated : List Byte → List Byte → List Byte

/-- Onalener's vendor ID, of which the spec gives no number (R85). -/
opaque vendorId : Nat

/-- The ciphertext and tag of a sealed frame span (AES-GCM, R334). Applied to the key number, the packet number, the
addresses and SecTAG before the secure data, and the plain span. -/
opaque sealed : Nat → Nat → List Byte → List Byte → List Byte

/-- The shift a block-shift block takes where its largest magnitude would need one above 127 (R166 states shifts of
binary32 magnitudes only). Applied to the shift it would need. -/
opaque openShift : Int → Int

/-- Bytes 16 to 31 of an event record (R86): the catalogue lists each event's payload items and does not say at which bytes
or in how many bits each stands. Applied to the event code and the items in the catalogue's order. -/
opaque eventPayload : Nat → List Nat → BitVec 128

/-- The bits an IEEE 1687 instrument network shifts out (R50): the spec says when the instruments are reachable and not
which they are. Applied to the counter of free values. -/
opaque instrumentBit : Nat → Bool

/-- The shelf line at which the fill engine begins the streamed rows of a tile (R131 calls it base and gives no value).
Applied to the tile and to the stationary tile it runs under. -/
opaque shelfBase : Nat → Nat → Nat

/-- The element bytes of an MXFP8 block that a non-finite source makes NaN (R175 gives its scale byte alone). Applied to the
format, the block's sources as binary32 words and the element, so that the same job gives the same bytes (R4). -/
opaque nanBlockByte : Nat → List Nat → Nat → Byte

/-- The index of vargmax where every element taken is NaN (R196 states none). Applied to the elements and the mask, so that
the same job gives the same index (R4). -/
opaque argmaxIndex : List Nat → Nat → BitVec 64

end Sys2Proof.Config
end

