-- ==== Sys2Proof/Machine/RegMap.lean ====
section
/-! DEFINITION. The register map (04_registers_host R71-R74, R404 and the field tables of every chapter): the pages
of R72, for each register its writable, write-one-to-clear, write-one-to-set, write-only, expert and
user-calibration bits (the access codes of R7) with its reset word, and one named field for every row of the
spec's register field tables. A field is a BAR0 byte offset, a lowest bit and a width. -/

namespace Sys2Proof.Machine

/-- A field of a register: the register's BAR0 byte offset, the field's lowest bit and its width. -/
structure Fld where
  addr : Nat
  lo : Nat
  w : Nat
  deriving DecidableEq, Repr

/-- One register of a page (R7, R71): its offset in the page, the masks of its access codes and its reset word. -/
structure RegSpec where
  off : Nat
  rw : Nat
  w1c : Nat
  w1s : Nat
  wo : Nat
  rwx : Nat
  rwu : Nat
  reset : Nat
  deriving DecidableEq, Repr

/-- The registers of a DEV page (type 0x1, role 0) beside the common header. -/
def specsDEV : List RegSpec :=
  [ ⟨0x100, 0, 0, 0, 0, 0, 0, 0x3c0⟩,  -- DEV_INFO
    ⟨0x140, 0, 0, 0, 0, 0, 0, 0⟩,  -- DEV_STRAP
    ⟨0x144, 0, 0x3000000, 0, 0, 0, 0, 0⟩,  -- DEV_SUPPLY
    ⟨0x148, 0, 0, 0, 0, 0, 0, 0⟩,  -- DEV_START
    ⟨0x14c, 0, 0, 0, 0, 0, 0, 0⟩ ]  -- DEV_REPLAY

/-- The registers of a FAB page (type 0x14, role 0) beside the common header. -/
def specsFAB : List RegSpec :=
  [ ⟨0x100, 0x3ffff, 0, 0, 0, 0, 0, 0x21⟩,  -- FAB_GEOM
    ⟨0x104, 0xffffffff, 0, 0, 0, 0, 0, 0x3203e8⟩,  -- FAB_TIMEOUT
    ⟨0x108, 0xff, 0, 0, 0, 0, 0, 0xc8⟩,  -- FAB_INSERT
    ⟨0x10c, 0, 0, 0, 0, 0, 0, 0⟩,  -- FAB_TXN
    ⟨0x110, 0, 0, 0, 0, 0, 0, 0⟩,  -- FAB_COUNT
    ⟨0x114, 0, 0, 0, 0, 0, 0, 0⟩,  -- FAB_DUP
    ⟨0x118, 0x3, 0, 0, 0, 0, 0, 0⟩,  -- FAB_ARB
    ⟨0x11c, 0, 0, 0, 0, 0, 0, 0⟩,  -- FAB_ALT
    ⟨0x180, 0x30, 0, 0, 0, 0, 0, 0⟩,  -- FAB_KEEP
    ⟨0x184, 0xff, 0, 0, 0, 0, 0, 0x14⟩,  -- FAB_TRAIN
    ⟨0x188, 0xfffff, 0, 0, 0, 0, 0, 0⟩,  -- FAB_EQ
    ⟨0x600, 0, 0, 0, 0, 0xffff, 0, 0x40c0⟩,  -- FAB_ARB_CAP
    ⟨0x604, 0, 0, 0, 0, 0xfffffff, 0, 0x1114444⟩ ]  -- FAB_ARB_WEIGHT

/-- The registers of a CLK page (type 0x2, role 0) beside the common header. -/
def specsCLK : List RegSpec :=
  [ ⟨0x100, 0, 0, 0, 0, 0, 0, 0⟩,  -- CLK_STATUS
    ⟨0x104, 0, 0, 0, 0, 0, 0, 0⟩,  -- CLK_LOCK_LO
    ⟨0x108, 0, 0, 0, 0, 0, 0, 0⟩ ]  -- CLK_LOCK_HI

/-- The registers of a RST page (type 0x3, role 0) beside the common header. -/
def specsRST : List RegSpec :=
  [ ⟨0x100, 0, 0, 0, 0, 0, 0, 0⟩,  -- RST_CAUSE
    ⟨0x104, 0x7f, 0, 0x100, 0, 0, 0, 0⟩,  -- RST_LANE
    ⟨0x108, 0x1f, 0, 0x100, 0, 0, 0, 0⟩ ]  -- RST_PORT

/-- The registers of a EVQ page (type 0xa, role 0) beside the common header. -/
def specsEVQ : List RegSpec :=
  [ ⟨0x100, 0xfffff000, 0, 0, 0, 0, 0, 0⟩,  -- EVQ_BASE_LO
    ⟨0x104, 0xffffffff, 0, 0, 0, 0, 0, 0⟩,  -- EVQ_BASE_HI
    ⟨0x108, 0xffff01f, 0, 0, 0, 0, 0, 0xff00000⟩,  -- EVQ_CFG
    ⟨0x10c, 0x3fffffe, 0, 0, 0, 0, 0, 0x3fffffe⟩,  -- EVQ_SRCMASK
    ⟨0x110, 0xffffffff, 0, 0, 0, 0, 0, 0⟩,  -- EVQ_HEAD
    ⟨0x114, 0, 0, 0, 0, 0, 0, 0⟩,  -- EVQ_TAIL
    ⟨0x118, 0, 0, 0, 0, 0, 0, 0⟩,  -- EVQ_STAT
    ⟨0x11c, 0xffffffff, 0, 0, 0, 0, 0, 0x10000⟩,  -- EVQ_MOD
    ⟨0x500, 0, 0, 0, 0, 0, 0, 0⟩,  -- EVQ_SEQ
    ⟨0x504, 0, 0, 0, 0, 0, 0, 0⟩ ]  -- EVQ_HOLD

/-- The registers of a HIF page (type 0x9, role 0) beside the common header. -/
def specsHIF : List RegSpec :=
  [ ⟨0x100, 0, 0, 0, 0, 0, 0, 0⟩,  -- HIF_LINK
    ⟨0x104, 0xfffff, 0, 0, 0, 0, 0, 0⟩,  -- HIF_WIN
    ⟨0x108, 0x9fff, 0, 0, 0, 0, 0, 0⟩,  -- HIF_WIN_DEV
    ⟨0x10c, 0x3, 0, 0, 0, 0, 0, 0x1⟩,  -- HIF_REMOTE
    ⟨0x110, 0, 0, 0, 0, 0, 0, 0⟩ ]  -- HIF_ACCESS

/-- The registers of a CMD page (type 0xb, role 0) beside the common header. -/
def specsCMD : List RegSpec :=
  [ ⟨0x100, 0, 0, 0, 0, 0, 0, 0⟩,  -- CMD_EPOCH
    ⟨0x104, 0, 0, 0, 0, 0, 0, 0⟩ ]  -- CMD_INFLIGHT

/-- The registers of a CmdQ page (type 0xb, role 1) beside the common header. -/
def specsCmdQ : List RegSpec :=
  [ ⟨0x100, 0xfffff000, 0, 0, 0, 0, 0, 0⟩,  -- CMD_Q_BASE_LO
    ⟨0x104, 0xffffffff, 0, 0, 0, 0, 0, 0⟩,  -- CMD_Q_BASE_HI
    ⟨0x108, 0xffffffff, 0, 0, 0, 0, 0, 0x86000c0⟩,  -- CMD_Q_CFG
    ⟨0x10c, 0xffffffff, 0, 0, 0, 0, 0, 0⟩,  -- CMD_Q_TAIL
    ⟨0x110, 0, 0, 0, 0, 0, 0, 0⟩,  -- CMD_Q_HEAD
    ⟨0x114, 0xfffff000, 0, 0, 0, 0, 0, 0⟩,  -- CMD_CQ_BASE_LO
    ⟨0x118, 0xffffffff, 0, 0, 0, 0, 0, 0⟩,  -- CMD_CQ_BASE_HI
    ⟨0x11c, 0xffffffff, 0, 0, 0, 0, 0, 0⟩,  -- CMD_CQ_HEAD
    ⟨0x120, 0, 0, 0, 0, 0, 0, 0⟩,  -- CMD_CQ_TAIL
    ⟨0x124, 0, 0, 0, 0, 0, 0, 0⟩ ]  -- CMD_Q_STAT

/-- The registers of a LAP page (type 0xc, role 0) beside the common header. -/
def specsLAP : List RegSpec :=
  [ ⟨0x100, 0xfff, 0, 0, 0, 0, 0, 0⟩,  -- LAP_SEL
    ⟨0x104, 0, 0, 0, 0xffffffff, 0, 0, 0⟩,  -- LAP_ADD
    ⟨0x108, 0, 0, 0, 0, 0, 0, 0⟩,  -- LAP_VAL_LO
    ⟨0x10c, 0, 0, 0, 0, 0, 0, 0⟩,  -- LAP_VAL_HI
    ⟨0x110, 0x1ff, 0, 0, 0, 0, 0, 0x2⟩,  -- LAP_CFG
    ⟨0x114, 0, 0, 0, 0, 0, 0, 0⟩ ]  -- LAP_WATCH

/-- The registers of a LANE page (type 0xd, role 0) beside the common header. -/
def specsLANE : List RegSpec :=
  [ ⟨0x100, 0, 0, 0, 0, 0, 0, 0⟩,  -- LANE_INFO
    ⟨0x104, 0, 0, 0, 0, 0, 0, 0⟩,  -- LANE_STATE
    ⟨0x108, 0x7, 0, 0, 0, 0, 0, 0⟩,  -- LANE_POWER
    ⟨0x110, 0, 0, 0, 0, 0, 0, 0⟩,  -- LANE_CNT_LOAD
    ⟨0x114, 0, 0, 0, 0, 0, 0, 0⟩,  -- LANE_CNT_LINE
    ⟨0x118, 0, 0, 0, 0, 0, 0, 0⟩,  -- LANE_CNT_DRY
    ⟨0x11c, 0, 0, 0, 0, 0, 0, 0⟩,  -- LANE_CNT_DRAIN
    ⟨0x120, 0, 0, 0, 0, 0, 0, 0⟩,  -- LANE_VEC_TAG
    ⟨0x124, 0, 0, 0, 0, 0, 0, 0⟩,  -- LANE_VEC_STATE
    ⟨0x128, 0, 0, 0, 0, 0, 0, 0⟩,  -- LANE_VEC_RETIRED
    ⟨0x600, 0, 0, 0, 0, 0x17f, 0, 0x300030⟩ ]  -- LANE_RAMP

/-- The registers of a NUM page (type 0x10, role 0) beside the common header. -/
def specsNUM : List RegSpec :=
  [ ⟨0x100, 0x1f01ff, 0, 0, 0, 0, 0, 0xd0000⟩,  -- NUM_JOB
    ⟨0x104, 0xffffffff, 0, 0, 0, 0, 0, 0⟩,  -- NUM_SEED_LO
    ⟨0x108, 0xffffffff, 0, 0, 0, 0, 0, 0⟩,  -- NUM_SEED_HI
    ⟨0x10c, 0, 0, 0, 0, 0, 0, 0⟩,  -- NUM_STAT
    ⟨0x110, 0xfff, 0, 0, 0, 0, 0, 0⟩,  -- NUM_SLOT_SEL
    ⟨0x140, 0xffffffff, 0, 0, 0, 0, 0, 0⟩ ]  -- NUM_SLOT_DATA

/-- The registers of a ATT page (type 0xe, role 0) beside the common header. -/
def specsATT : List RegSpec :=
  [ ⟨0x100, 0, 0, 0, 0, 0, 0, 0⟩,  -- ATT_PARITY
    ⟨0x104, 0, 0x80000000, 0, 0, 0, 0, 0⟩ ]  -- ATT_FAIL

/-- The registers of a CEL page (type 0xf, role 0) beside the common header. -/
def specsCEL : List RegSpec :=
  [ ⟨0x100, 0, 0, 0, 0, 0, 0, 0⟩,  -- CEL_STATE
    ⟨0x104, 0xfff, 0, 0, 0, 0, 0, 0x508⟩,  -- CEL_RETRAIN
    ⟨0x108, 0xff01, 0, 0, 0, 0, 0, 0x1801⟩,  -- CEL_SCRUB
    ⟨0x10c, 0, 0, 0, 0, 0, 0, 0⟩,  -- CEL_PARITY
    ⟨0x110, 0, 0, 0, 0, 0, 0, 0⟩,  -- CEL_FAIL_LO
    ⟨0x114, 0, 0x80000000, 0, 0, 0, 0, 0⟩ ]  -- CEL_FAIL_HI

/-- The registers of a CelPkg page (type 0xf, role 1) beside the common header. -/
def specsCelPkg : List RegSpec :=
  [ ⟨0x100, 0, 0, 0, 0, 0, 0, 0⟩,  -- CEL_PKG_STATE
    ⟨0x600, 0, 0, 0, 0, 0xff03, 0, 0x1000⟩,  -- CEL_PKG_TRAIN_X
    ⟨0xc00, 0, 0, 0, 0, 0, 0, 0⟩,  -- CEL_CAL_CMD_F
    ⟨0xc04, 0, 0, 0, 0, 0, 0, 0⟩,  -- CEL_CAL_DQ_F
    ⟨0xc08, 0, 0, 0, 0, 0, 0, 0⟩,  -- CEL_CAL_VREF_F
    ⟨0xe00, 0, 0, 0, 0, 0, 0xffffff, 0⟩,  -- CEL_CAL_CMD_U
    ⟨0xe04, 0, 0, 0, 0, 0, 0xffffffff, 0⟩,  -- CEL_CAL_DQ_U
    ⟨0xe08, 0, 0, 0, 0, 0, 0xffff, 0⟩ ]  -- CEL_CAL_VREF_U

/-- The registers of a CBZ page (type 0x11, role 0) beside the common header. -/
def specsCBZ : List RegSpec :=
  [ ⟨0x100, 0, 0, 0, 0, 0, 0, 0⟩,  -- CBZ_BLOCKS_DEC
    ⟨0x104, 0, 0, 0, 0, 0, 0, 0⟩,  -- CBZ_BLOCKS_ENC
    ⟨0x108, 0, 0, 0, 0, 0, 0, 0⟩,  -- CBZ_RAW
    ⟨0x10c, 0, 0, 0, 0, 0, 0, 0⟩,  -- CBZ_CHECKS
    ⟨0x110, 0, 0, 0, 0, 0, 0, 0⟩,  -- CBZ_DMG_LO
    ⟨0x114, 0, 0, 0, 0, 0, 0, 0⟩,  -- CBZ_DMG_HI
    ⟨0x118, 0, 0x80000000, 0, 0, 0, 0, 0⟩ ]  -- CBZ_DMG_INFO

/-- The registers of a CbzTbl page (type 0x11, role 1) beside the common header. -/
def specsCbzTbl : List RegSpec :=
  [ ⟨0x100, 0xffffffff, 0, 0, 0, 0, 0, 0⟩,  -- CBZ_TBL_LEN
    ⟨0x180, 0xf, 0, 0x300, 0, 0, 0, 0⟩,  -- CBZ_TBL_CTRL
    ⟨0x184, 0, 0, 0, 0, 0, 0, 0⟩,  -- CBZ_TBL_STATE
    ⟨0x188, 0, 0, 0, 0, 0, 0, 0⟩ ]  -- CBZ_TBL_REFS

/-- The registers of a PORT page (type 0x15, role 0) beside the common header. -/
def specsPORT : List RegSpec :=
  [ ⟨0x100, 0, 0, 0, 0, 0, 0, 0⟩,  -- PORT_STATE
    ⟨0x104, 0, 0, 0, 0, 0, 0, 0⟩,  -- PORT_PEER
    ⟨0x108, 0xffff0000, 0, 0, 0, 0, 0, 0xa080000⟩,  -- PORT_REPLAY
    ⟨0x10c, 0, 0, 0, 0, 0, 0, 0⟩,  -- PORT_FEC
    ⟨0x110, 0, 0, 0, 0, 0, 0, 0⟩,  -- PORT_CRC
    ⟨0x114, 0x1f17, 0, 0x8, 0, 0, 0, 0x1410⟩ ]  -- PORT_LANE

/-- The registers of a RTE page (type 0x16, role 0) beside the common header. -/
def specsRTE : List RegSpec :=
  [ ⟨0x100, 0, 0, 0, 0, 0, 0, 0x10000⟩ ]  -- RTE_STATE

/-- The registers of a RteRoute page (type 0x16, role 1) beside the common header. -/
def specsRteRoute : List RegSpec :=
  [ ⟨0x100, 0, 0, 0, 0, 0, 0, 0⟩ ]  -- RTE_ROUTE

/-- The registers of a RteRole page (type 0x16, role 2) beside the common header. -/
def specsRteRole : List RegSpec :=
  [ ⟨0x100, 0, 0, 0, 0, 0, 0, 0⟩ ]  -- RTE_ROLE

/-- The registers of a COL page (type 0x12, role 0) beside the common header. -/
def specsCOL : List RegSpec :=
  [ ⟨0x100, 0, 0, 0, 0, 0, 0, 0⟩,  -- COL_STATE
    ⟨0x104, 0xffffff, 0, 0, 0, 0, 0, 0x1407d0⟩,  -- COL_TIMING
    ⟨0x108, 0, 0, 0, 0, 0, 0, 0⟩,  -- COL_OVF_STEP0
    ⟨0x10c, 0, 0, 0, 0, 0, 0, 0⟩,  -- COL_OVF_STEP1
    ⟨0x110, 0, 0, 0, 0, 0, 0, 0⟩,  -- COL_OVF
    ⟨0x114, 0, 0, 0, 0, 0, 0, 0⟩,  -- COL_COUNT
    ⟨0x118, 0, 0, 0, 0, 0, 0, 0⟩,  -- COL_DISCARD
    ⟨0x11c, 0, 0, 0, 0, 0, 0, 0⟩,  -- COL_LATER
    ⟨0x120, 0x3f, 0, 0, 0, 0, 0, 0⟩,  -- COL_LAND_SEL
    ⟨0x124, 0, 0, 0, 0, 0, 0, 0⟩ ]  -- COL_LAND_STATE

/-- The registers of a UPD page (type 0x13, role 0) beside the common header. -/
def specsUPD : List RegSpec :=
  [ ⟨0x100, 0, 0, 0, 0, 0, 0, 0x10⟩,  -- UPD_LOSS
    ⟨0x104, 0xffff, 0, 0, 0, 0, 0, 0x3e8⟩,  -- UPD_GROW
    ⟨0x108, 0xff, 0, 0, 0, 0, 0, 0x40⟩,  -- UPD_AUDIT
    ⟨0x10c, 0, 0, 0, 0, 0, 0, 0⟩,  -- UPD_STEP
    ⟨0x110, 0, 0, 0, 0, 0, 0, 0⟩,  -- UPD_COUNT
    ⟨0x114, 0xff, 0, 0, 0, 0, 0, 0xa⟩ ]  -- UPD_FETCH

/-- The registers of a MIL page (type 0x17, role 0) beside the common header. -/
def specsMIL : List RegSpec :=
  [ ⟨0x100, 0x3ffe00, 0, 0, 0, 0, 0, 0⟩,  -- MIL_PORT_STATE
    ⟨0x104, 0xffffffff, 0, 0, 0, 0, 0, 0⟩,  -- MIL_PEER_LO
    ⟨0x108, 0xffffffff, 0, 0, 0, 0, 0, 0⟩,  -- MIL_PEER_HI
    ⟨0x10c, 0, 0, 0, 0, 0, 0, 0⟩,  -- MIL_MAC_LO
    ⟨0x110, 0, 0, 0, 0, 0, 0, 0⟩,  -- MIL_MAC_HI
    ⟨0x114, 0, 0, 0, 0, 0, 0, 0⟩,  -- MIL_FEC
    ⟨0x118, 0, 0, 0, 0, 0, 0, 0⟩,  -- MIL_GROUPS
    ⟨0x11c, 0, 0, 0, 0, 0, 0, 0⟩,  -- MIL_DROP
    ⟨0x120, 0x1, 0, 0, 0, 0, 0, 0⟩,  -- MIL_EQ
    ⟨0x140, 0xffffffff, 0, 0, 0, 0, 0, 0x3c2814e0⟩,  -- MIL_CFG
    ⟨0x144, 0xffffffff, 0, 0, 0, 0, 0, 0xc82710⟩,  -- MIL_TIMING
    ⟨0x148, 0xffffffff, 0, 0, 0, 0, 0, 0⟩,  -- MIL_TAB_LO
    ⟨0x14c, 0xffffffff, 0, 0, 0, 0, 0, 0⟩,  -- MIL_TAB_HI
    ⟨0x150, 0x1fffff, 0, 0, 0, 0, 0, 0⟩,  -- MIL_CELLAR
    ⟨0x154, 0xffff, 0, 0, 0, 0, 0, 0⟩,  -- MIL_CELLAR_SIZE
    ⟨0x158, 0, 0, 0, 0, 0, 0, 0⟩,  -- MIL_ROUND
    ⟨0x15c, 0, 0, 0, 0, 0, 0, 0xb7a10100⟩ ]  -- MIL_ID

/-- The registers of a TIM page (type 0x18, role 0) beside the common header. -/
def specsTIM : List RegSpec :=
  [ ⟨0x100, 0xff1f, 0, 0, 0, 0, 0, 0x1f⟩,  -- TIM_SRC
    ⟨0x104, 0x3fffff, 0, 0, 0, 0, 0, 0⟩,  -- TIM_SERVE
    ⟨0x108, 0, 0, 0, 0, 0, 0, 0⟩,  -- TIM_NOW_LO
    ⟨0x10c, 0, 0, 0, 0, 0, 0, 0⟩,  -- TIM_NOW_HI
    ⟨0x110, 0, 0, 0, 0, 0, 0, 0⟩,  -- TIM_FRAC
    ⟨0x114, 0, 0, 0, 0, 0, 0, 0⟩,  -- TIM_SERVO
    ⟨0x118, 0xffffffff, 0, 0, 0, 0, 0, 0⟩,  -- TIM_SET_LO
    ⟨0x11c, 0xffffffff, 0, 0, 0, 0, 0, 0⟩,  -- TIM_SET_HI
    ⟨0x600, 0, 0, 0, 0, 0xffffff, 0, 0x3e863⟩,  -- TIM_GAIN
    ⟨0xc00, 0, 0, 0, 0, 0, 0, 0⟩,  -- TIM_CAL_PHY_F
    ⟨0xc08, 0, 0, 0, 0, 0, 0, 0⟩,  -- TIM_CAL_ASYM_F
    ⟨0xe00, 0, 0, 0, 0, 0, 0xffffffff, 0⟩,  -- TIM_CAL_PHY_U
    ⟨0xe08, 0, 0, 0, 0, 0, 0xffffffff, 0⟩ ]  -- TIM_CAL_ASYM_U

/-- The registers of a KEY page (type 0x19, role 0) beside the common header. -/
def specsKEY : List RegSpec :=
  [ ⟨0x100, 0, 0, 0, 0xffffffff, 0, 0, 0⟩,  -- KEY_WRAP
    ⟨0x138, 0xf, 0, 0x30, 0, 0, 0, 0⟩,  -- KEY_INSTALL
    ⟨0x13c, 0, 0, 0, 0, 0, 0, 0⟩,  -- KEY_STATE
    ⟨0x140, 0xffff000f, 0, 0x10, 0, 0, 0, 0xa0000⟩,  -- KEY_SCHED
    ⟨0x144, 0xffffffff, 0, 0, 0, 0, 0, 0⟩,  -- KEY_AT_LO
    ⟨0x148, 0xffffffff, 0, 0, 0, 0, 0, 0⟩ ]  -- KEY_AT_HI

/-- The registers of a STW page (type 0x7, role 0) beside the common header. -/
def specsSTW : List RegSpec :=
  [ ⟨0x100, 0, 0, 0, 0, 0, 0, 0⟩,  -- STW_STATE
    ⟨0x104, 0, 0, 0, 0, 0xffff, 0, 0xfa⟩ ]  -- STW_WDOG

/-- The registers of a FWU page (type 0x8, role 0) beside the common header. -/
def specsFWU : List RegSpec :=
  [ ⟨0x100, 0, 0, 0, 0, 0, 0, 0⟩,  -- FWU_STATE
    ⟨0x104, 0x8, 0, 0x17, 0, 0, 0, 0⟩,  -- FWU_CTRL
    ⟨0x108, 0xffffffff, 0, 0, 0, 0, 0, 0⟩,  -- FWU_SUBMIT_LO
    ⟨0x10c, 0xffffffff, 0, 0, 0, 0, 0, 0⟩,  -- FWU_SUBMIT_HI
    ⟨0x110, 0xf, 0, 0, 0, 0, 0, 0⟩,  -- FWU_MAP_SEL
    ⟨0x114, 0, 0, 0, 0, 0, 0, 0⟩ ]  -- FWU_MAP

/-- The registers of a SEC page (type 0x6, role 0) beside the common header. -/
def specsSEC : List RegSpec :=
  [ ⟨0x100, 0, 0, 0, 0, 0, 0, 0⟩ ]  -- SEC_STATE

/-- The registers of a PAC page (type 0x4, role 0) beside the common header. -/
def specsPAC : List RegSpec :=
  [ ⟨0x100, 0, 0, 0, 0, 0, 0, 0⟩,  -- PAC_STATE
    ⟨0x104, 0, 0, 0, 0, 0, 0, 0⟩,  -- PAC_VOLT
    ⟨0x108, 0, 0, 0, 0, 0, 0, 0⟩,  -- PAC_DROOP
    ⟨0x10c, 0, 0, 0, 0, 0, 0, 0⟩,  -- PAC_TEMP
    ⟨0x110, 0, 0, 0, 0, 0, 0, 0⟩,  -- PAC_CAP
    ⟨0x600, 0, 0, 0, 0, 0xf3, 0, 0x50⟩,  -- PAC_LOOP_X
    ⟨0xc00, 0, 0, 0, 0, 0, 0, 0⟩,  -- PAC_CAL_V_F
    ⟨0xc04, 0, 0, 0, 0, 0, 0, 0⟩,  -- PAC_CAL_DROOP_F
    ⟨0xc08, 0, 0, 0, 0, 0, 0, 0⟩,  -- PAC_CAL_RO_F
    ⟨0xc0c, 0, 0, 0, 0, 0, 0, 0⟩,  -- PAC_CAL_TJ_F
    ⟨0xe00, 0, 0, 0, 0, 0, 0xffffffff, 0⟩,  -- PAC_CAL_V_U
    ⟨0xe04, 0, 0, 0, 0, 0, 0xffff, 0⟩,  -- PAC_CAL_DROOP_U
    ⟨0xe08, 0, 0, 0, 0, 0, 0xffffff, 0⟩,  -- PAC_CAL_RO_U
    ⟨0xe0c, 0, 0, 0, 0, 0, 0xff, 0⟩ ]  -- PAC_CAL_TJ_U

/-- The registers of a PRF page (type 0x5, role 0) beside the common header. -/
def specsPRF : List RegSpec :=
  [ ⟨0x100, 0, 0, 0, 0, 0, 0, 0⟩,  -- PRF_ACTIVE
    ⟨0x104, 0x3, 0, 0x4, 0, 0, 0, 0⟩,  -- PRF_WRITE
    ⟨0x108, 0xffffffff, 0, 0, 0, 0, 0, 0⟩,  -- PRF_SRC_LO
    ⟨0x10c, 0xffffffff, 0, 0, 0, 0, 0, 0⟩ ]  -- PRF_SRC_HI

/-- The common header of every page (R74). BLK_CTRL's own behaviour (unlock, soft_reset) is in the bus write. -/
def specsHeader : List RegSpec :=
  [ ⟨0x000, 0, 0, 0, 0, 0, 0, 0⟩,           -- BLK_ID (computed)
    ⟨0x004, 0, 0, 0, 0, 0, 0, 0⟩,           -- BLK_CAP (computed)
    ⟨0x008, 0x1, 0, 0x2, 0xffff0000, 0, 0, 1⟩,  -- BLK_CTRL
    ⟨0x00C, 0, 0, 0, 0, 0, 0, 0⟩,           -- BLK_STATE
    ⟨0x010, 0, 0xffffffff, 0, 0, 0, 0, 0⟩,  -- BLK_EVENT
    ⟨0x014, 0xffffffff, 0, 0, 0, 0, 0, 0xffffffff⟩,  -- BLK_EVENT_EN
    ⟨0x018, 0, 0, 0xffffffff, 0, 0, 0, 0⟩,  -- BLK_EVENT_SET
    ⟨0x01C, 0, 0, 0, 0, 0, 0, 0⟩,           -- BLK_EVENT_COUNT
    ⟨0x020, 0, 0x80000000, 0, 0, 0, 0, 0⟩,  -- BLK_ERR_CODE
    ⟨0x024, 0, 0, 0, 0, 0, 0, 0⟩,           -- BLK_ERR_TIME_LO
    ⟨0x028, 0, 0, 0, 0, 0, 0, 0⟩,           -- BLK_ERR_TIME_HI
    ⟨0x02C, 0, 0, 0, 0, 0, 0, 0⟩ ]          -- BLK_ERR_INFO

/-- A page: its block type, its role and its instance (R72). -/
structure Page where
  type : Nat
  role : Nat
  inst : Nat
  deriving DecidableEq, Repr

/-- The page of an index (R72); none where the index is unassigned. -/
def pageOf (i : Nat) : Option Page :=
  if i = 0x000 then some ⟨0x001, 0, 0⟩ else if i = 0x001 then some ⟨0x002, 0, 0⟩
  else if i = 0x002 then some ⟨0x003, 0, 0⟩ else if i = 0x003 then some ⟨0x005, 0, 0⟩
  else if i = 0x004 then some ⟨0x006, 0, 0⟩ else if i = 0x005 then some ⟨0x007, 0, 0⟩
  else if i = 0x006 then some ⟨0x008, 0, 0⟩ else if i = 0x007 then some ⟨0x009, 0, 0⟩
  else if i = 0x008 then some ⟨0x00A, 0, 0⟩ else if i = 0x009 then some ⟨0x00C, 0, 0⟩
  else if i = 0x00A then some ⟨0x010, 0, 0⟩ else if i = 0x00B then some ⟨0x012, 0, 0⟩
  else if i = 0x00C then some ⟨0x013, 0, 0⟩ else if i = 0x00D then some ⟨0x014, 0, 0⟩
  else if i = 0x00E then some ⟨0x018, 0, 0⟩ else if i = 0x00F then some ⟨0x019, 0, 0⟩
  else if 0x010 ≤ i ∧ i ≤ 0x013 then some ⟨0x004, 0, i - 0x010⟩
  else if 0x014 ≤ i ∧ i ≤ 0x017 then some ⟨0x00E, 0, i - 0x014⟩
  else if i = 0x018 then some ⟨0x011, 0, 0⟩
  else if 0x019 ≤ i ∧ i ≤ 0x01C then some ⟨0x011, 1, i - 0x019⟩
  else if 0x01D ≤ i ∧ i ≤ 0x01E then some ⟨0x017, 0, i - 0x01D⟩
  else if i = 0x020 then some ⟨0x00B, 0, 0⟩
  else if 0x040 ≤ i ∧ i ≤ 0x07F then some ⟨0x00B, 1, i - 0x040⟩
  else if i = 0x080 then some ⟨0x00F, 0, 0⟩
  else if 0x081 ≤ i ∧ i ≤ 0x098 then some ⟨0x00F, 1, i - 0x081⟩
  else if 0x0A0 ≤ i ∧ i ≤ 0x0B3 then some ⟨0x015, 0, i - 0x0A0⟩
  else if i = 0x0C0 then some ⟨0x016, 0, 0⟩
  else if 0x100 ≤ i ∧ i ≤ 0x13F then some ⟨0x016, 1, i - 0x100⟩
  else if 0x140 ≤ i ∧ i ≤ 0x17F then some ⟨0x016, 2, i - 0x140⟩
  else if 0x200 ≤ i ∧ i ≤ 0x25F then some ⟨0x00D, 0, i - 0x200⟩
  else none

/-- The page indices of R72, in order. -/
def allPages : List Nat :=
  List.range 0x1F ++ [0x020] ++ (List.range 64).map (· + 0x040) ++ [0x080] ++ (List.range 24).map (· + 0x081)
    ++ (List.range 20).map (· + 0x0A0) ++ [0x0C0] ++ (List.range 64).map (· + 0x100)
    ++ (List.range 64).map (· + 0x140) ++ (List.range 96).map (· + 0x200)

/-- The register list of a page type and role. -/
def specsOf (p : Page) : List RegSpec :=
  if p.type = 0x1 ∧ p.role = 0 then specsDEV else
  if p.type = 0x2 ∧ p.role = 0 then specsCLK else
  if p.type = 0x3 ∧ p.role = 0 then specsRST else
  if p.type = 0x4 ∧ p.role = 0 then specsPAC else
  if p.type = 0x5 ∧ p.role = 0 then specsPRF else
  if p.type = 0x6 ∧ p.role = 0 then specsSEC else
  if p.type = 0x7 ∧ p.role = 0 then specsSTW else
  if p.type = 0x8 ∧ p.role = 0 then specsFWU else
  if p.type = 0x9 ∧ p.role = 0 then specsHIF else
  if p.type = 0xa ∧ p.role = 0 then specsEVQ else
  if p.type = 0xb ∧ p.role = 0 then specsCMD else
  if p.type = 0xb ∧ p.role = 1 then specsCmdQ else
  if p.type = 0xc ∧ p.role = 0 then specsLAP else
  if p.type = 0xd ∧ p.role = 0 then specsLANE else
  if p.type = 0xe ∧ p.role = 0 then specsATT else
  if p.type = 0xf ∧ p.role = 0 then specsCEL else
  if p.type = 0xf ∧ p.role = 1 then specsCelPkg else
  if p.type = 0x10 ∧ p.role = 0 then specsNUM else
  if p.type = 0x11 ∧ p.role = 0 then specsCBZ else
  if p.type = 0x11 ∧ p.role = 1 then specsCbzTbl else
  if p.type = 0x12 ∧ p.role = 0 then specsCOL else
  if p.type = 0x13 ∧ p.role = 0 then specsUPD else
  if p.type = 0x14 ∧ p.role = 0 then specsFAB else
  if p.type = 0x15 ∧ p.role = 0 then specsPORT else
  if p.type = 0x16 ∧ p.role = 0 then specsRTE else
  if p.type = 0x16 ∧ p.role = 1 then specsRteRoute else
  if p.type = 0x16 ∧ p.role = 2 then specsRteRole else
  if p.type = 0x17 ∧ p.role = 0 then specsMIL else
  if p.type = 0x18 ∧ p.role = 0 then specsTIM else
  if p.type = 0x19 ∧ p.role = 0 then specsKEY else
  []

/-- The offset at which the register list holds the pattern of a repeated register: an event ring's eight
registers (R89), a Cabouz slot's (R247), a slot window word (R173), a table entry (R271), a wrapped-key word. -/
def normOff (p : Page) (off : Nat) : Nat :=
  if p.type = 0xA ∧ 0x100 ≤ off ∧ off < 0x500 then 0x100 + (off - 0x100) % 0x40
  else if p.type = 0x10 ∧ 0x140 ≤ off ∧ off < 0x190 then 0x140
  else if p.type = 0x11 ∧ p.role = 1 ∧ 0x100 ≤ off ∧ off < 0x500 then
    (if (off - 0x100) % 0x100 < 0x80 then 0x100 else 0x100 + (off - 0x100) % 0x100)
  else if p.type = 0x16 ∧ p.role = 1 ∧ 0x100 ≤ off ∧ off < 0x300 then 0x100
  else if p.type = 0x16 ∧ p.role = 2 ∧ 0x100 ≤ off ∧ off < 0x500 then 0x100
  else if p.type = 0x19 ∧ 0x100 ≤ off ∧ off < 0x138 then 0x100
  else if p.type = 0x18 ∧ (off = 0xC04 ∨ off = 0xE04 ∨ off = 0xC0C ∨ off = 0xE0C) then off - 4
  else if p.type = 0xF ∧ p.role = 1 ∧ (0xC00 ≤ off ∧ off < 0xC80) then 0xC00 + (off - 0xC00) % 16
  else if p.type = 0xF ∧ p.role = 1 ∧ (0xE00 ≤ off ∧ off < 0xE80) then 0xE00 + (off - 0xE00) % 16
  else off

/-- The register at a BAR0 byte offset; none where no register stands (such an offset reads 0, R74). -/
def regAt (a : Nat) : Option RegSpec :=
  match pageOf (a / 0x1000) with
  | none => none
  | some p =>
    if a % 0x1000 < 0x30 then specsHeader.find? (fun r => r.off == a % 0x1000)
    else (specsOf p).find? (fun r => r.off == normOff p (a % 0x1000))

/-- The reset word of the register at a BAR0 byte offset (0 where there is none): R404 gives the queue pages an
enable of 0; every other reset value is the "After reset" column. -/
def resetWord (a : Nat) : BitVec 32 :=
  if 0x40000 ≤ a ∧ a < 0x80000 ∧ a % 0x1000 = 0x008 then 0
  else match regAt a with
    | none => 0
    | some r => BitVec.ofNat 32 r.reset

/-! The header fields of the page of index p. -/
def BLK_CTRL_enable (p : Nat) : Fld := ⟨p * 0x1000 + 0x8, 0, 1⟩
def BLK_CTRL_soft_reset (p : Nat) : Fld := ⟨p * 0x1000 + 0x8, 1, 1⟩
def BLK_CTRL_expert_open (p : Nat) : Fld := ⟨p * 0x1000 + 0x8, 2, 1⟩
def BLK_CTRL_expert_denied (p : Nat) : Fld := ⟨p * 0x1000 + 0x8, 8, 8⟩
def BLK_STATE_state (p : Nat) : Fld := ⟨p * 0x1000 + 0xc, 0, 3⟩
def BLK_STATE_fault_code (p : Nat) : Fld := ⟨p * 0x1000 + 0xc, 8, 8⟩
def BLK_EVENT_event (p : Nat) : Fld := ⟨p * 0x1000 + 0x10, 0, 32⟩
def BLK_EVENT_EN_event_en (p : Nat) : Fld := ⟨p * 0x1000 + 0x14, 0, 32⟩
def BLK_EVENT_COUNT_count (p : Nat) : Fld := ⟨p * 0x1000 + 0x1c, 0, 32⟩
def BLK_ERR_CODE_code (p : Nat) : Fld := ⟨p * 0x1000 + 0x20, 0, 16⟩
def BLK_ERR_CODE_severity (p : Nat) : Fld := ⟨p * 0x1000 + 0x20, 16, 3⟩
def BLK_ERR_CODE_valid (p : Nat) : Fld := ⟨p * 0x1000 + 0x20, 31, 1⟩
def BLK_ERR_TIME_LO_time (p : Nat) : Fld := ⟨p * 0x1000 + 0x24, 0, 32⟩
def BLK_ERR_TIME_HI_time (p : Nat) : Fld := ⟨p * 0x1000 + 0x28, 0, 32⟩
def BLK_ERR_INFO_info (p : Nat) : Fld := ⟨p * 0x1000 + 0x2c, 0, 32⟩

/-! DEV_STRAP (02_module.md). -/
def DEV_STRAP_pos_slot : Fld := ⟨0x140, 0, 5⟩
def DEV_STRAP_pos_x : Fld := ⟨0x140, 5, 4⟩
def DEV_STRAP_pos_y : Fld := ⟨0x140, 9, 4⟩
def DEV_STRAP_id_valid : Fld := ⟨0x140, 13, 1⟩
def DEV_STRAP_prof_sel : Fld := ⟨0x140, 16, 2⟩
/-! DEV_SUPPLY (02_module.md). -/
def DEV_SUPPLY_blade_a : Fld := ⟨0x144, 0, 12⟩
def DEV_SUPPLY_blade_b : Fld := ⟨0x144, 12, 12⟩
def DEV_SUPPLY_low_a : Fld := ⟨0x144, 24, 1⟩
def DEV_SUPPLY_low_b : Fld := ⟨0x144, 25, 1⟩
/-! FAB_KEEP (02_module.md). -/
def FAB_KEEP_hold_x : Fld := ⟨0xd180, 0, 1⟩
def FAB_KEEP_hold_y : Fld := ⟨0xd180, 1, 1⟩
def FAB_KEEP_allow_x : Fld := ⟨0xd180, 4, 1⟩
def FAB_KEEP_allow_y : Fld := ⟨0xd180, 5, 1⟩
def FAB_KEEP_hold_changes : Fld := ⟨0xd180, 16, 16⟩
/-! DEV_START (03_first_second.md). -/
def DEV_START_fuses_done : Fld := ⟨0x148, 0, 1⟩
def DEV_START_steward_ready : Fld := ⟨0x148, 1, 1⟩
def DEV_START_cellar_ready : Fld := ⟨0x148, 2, 1⟩
def DEV_START_ports_done : Fld := ⟨0x148, 3, 1⟩
def DEV_START_fabric_ready : Fld := ⟨0x148, 4, 1⟩
def DEV_START_time_valid : Fld := ⟨0x148, 5, 1⟩
def DEV_START_boot_bank : Fld := ⟨0x148, 6, 1⟩
def DEV_START_boot_failed : Fld := ⟨0x148, 7, 1⟩
def DEV_START_profile : Fld := ⟨0x148, 8, 2⟩
def DEV_START_profile_fallback : Fld := ⟨0x148, 10, 1⟩
def DEV_START_ready_ms : Fld := ⟨0x148, 16, 16⟩
/-! CLK_STATUS (03_first_second.md). -/
def CLK_STATUS_root_lock : Fld := ⟨0x1100, 0, 1⟩
def CLK_STATUS_sys_ref_ok : Fld := ⟨0x1100, 1, 1⟩
def CLK_STATUS_net_ref_ok : Fld := ⟨0x1100, 2, 1⟩
def CLK_STATUS_pps_seen : Fld := ⟨0x1100, 3, 1⟩
def CLK_STATUS_relock_count : Fld := ⟨0x1100, 8, 8⟩
/-! CLK_LOCK_LO (03_first_second.md). -/
def CLK_LOCK_LO_lock_lo : Fld := ⟨0x1104, 0, 32⟩
/-! CLK_LOCK_HI (03_first_second.md). -/
def CLK_LOCK_HI_lock_hi : Fld := ⟨0x1108, 0, 8⟩
/-! RST_CAUSE (03_first_second.md). -/
def RST_CAUSE_power_on : Fld := ⟨0x2100, 0, 1⟩
def RST_CAUSE_mod_rst : Fld := ⟨0x2100, 1, 1⟩
def RST_CAUSE_thermal_restart : Fld := ⟨0x2100, 2, 1⟩
def RST_CAUSE_supply_stop : Fld := ⟨0x2100, 3, 1⟩
def RST_CAUSE_flr_count : Fld := ⟨0x2100, 8, 8⟩
def RST_CAUSE_perst_count : Fld := ⟨0x2100, 16, 8⟩
/-! RST_LANE (03_first_second.md). -/
def RST_LANE_lane : Fld := ⟨0x2104, 0, 7⟩
def RST_LANE_start : Fld := ⟨0x2104, 8, 1⟩
def RST_LANE_busy : Fld := ⟨0x2104, 9, 1⟩
def RST_LANE_bad_writes : Fld := ⟨0x2104, 16, 8⟩
/-! RST_PORT (03_first_second.md). -/
def RST_PORT_port : Fld := ⟨0x2108, 0, 5⟩
def RST_PORT_start : Fld := ⟨0x2108, 8, 1⟩
def RST_PORT_busy : Fld := ⟨0x2108, 9, 1⟩
def RST_PORT_queued : Fld := ⟨0x2108, 10, 1⟩
def RST_PORT_bad_writes : Fld := ⟨0x2108, 16, 8⟩
/-! FAB_TRAIN (03_first_second.md). -/
def FAB_TRAIN_train_timeout : Fld := ⟨0xd184, 0, 8⟩
def FAB_TRAIN_false_starts : Fld := ⟨0xd184, 8, 8⟩
def FAB_TRAIN_first_batch : Fld := ⟨0xd184, 16, 3⟩
/-! EVQ_BASE_LO (04_registers_host.md). -/
def EVQ_BASE_LO_base_lo (n : Nat) : Fld := ⟨0x8100 + 0x40 * n, 12, 20⟩
/-! EVQ_BASE_HI (04_registers_host.md). -/
def EVQ_BASE_HI_base_hi (n : Nat) : Fld := ⟨0x8104 + 0x40 * n, 0, 32⟩
/-! EVQ_CFG (04_registers_host.md). -/
def EVQ_CFG_enable (n : Nat) : Fld := ⟨0x8108 + 0x40 * n, 0, 1⟩
def EVQ_CFG_size_code (n : Nat) : Fld := ⟨0x8108 + 0x40 * n, 1, 4⟩
def EVQ_CFG_vector (n : Nat) : Fld := ⟨0x8108 + 0x40 * n, 12, 7⟩
def EVQ_CFG_irq_en (n : Nat) : Fld := ⟨0x8108 + 0x40 * n, 19, 1⟩
def EVQ_CFG_sev_mask (n : Nat) : Fld := ⟨0x8108 + 0x40 * n, 20, 8⟩
/-! EVQ_SRCMASK (04_registers_host.md). -/
def EVQ_SRCMASK_src_mask (n : Nat) : Fld := ⟨0x810c + 0x40 * n, 1, 25⟩
/-! EVQ_HEAD (04_registers_host.md). -/
def EVQ_HEAD_head (n : Nat) : Fld := ⟨0x8110 + 0x40 * n, 0, 32⟩
/-! EVQ_TAIL (04_registers_host.md). -/
def EVQ_TAIL_tail (n : Nat) : Fld := ⟨0x8114 + 0x40 * n, 0, 32⟩
/-! EVQ_STAT (04_registers_host.md). -/
def EVQ_STAT_dropped (n : Nat) : Fld := ⟨0x8118 + 0x40 * n, 0, 16⟩
def EVQ_STAT_full (n : Nat) : Fld := ⟨0x8118 + 0x40 * n, 16, 1⟩
def EVQ_STAT_cfg_denied (n : Nat) : Fld := ⟨0x8118 + 0x40 * n, 24, 8⟩
/-! EVQ_MOD (04_registers_host.md). -/
def EVQ_MOD_holdoff (n : Nat) : Fld := ⟨0x811c + 0x40 * n, 0, 16⟩
def EVQ_MOD_threshold (n : Nat) : Fld := ⟨0x811c + 0x40 * n, 16, 16⟩
/-! EVQ_SEQ (04_registers_host.md). -/
def EVQ_SEQ_next_seq : Fld := ⟨0x8500, 0, 32⟩
/-! EVQ_HOLD (04_registers_host.md). -/
def EVQ_HOLD_held : Fld := ⟨0x8504, 0, 9⟩
/-! DEV_INFO (04_registers_host.md). -/
def DEV_INFO_stepping : Fld := ⟨0x100, 0, 8⟩
def DEV_INFO_arith_rev : Fld := ⟨0x100, 8, 8⟩
def DEV_INFO_variant : Fld := ⟨0x100, 16, 4⟩
/-! HIF_LINK (04_registers_host.md). -/
def HIF_LINK_gen : Fld := ⟨0x7100, 0, 4⟩
def HIF_LINK_width : Fld := ⟨0x7100, 4, 5⟩
def HIF_LINK_flit_mode : Fld := ⟨0x7100, 9, 1⟩
/-! HIF_WIN (04_registers_host.md). -/
def HIF_WIN_base_gib : Fld := ⟨0x7104, 0, 20⟩
/-! HIF_WIN_DEV (04_registers_host.md). -/
def HIF_WIN_DEV_dev_id : Fld := ⟨0x7108, 0, 13⟩
def HIF_WIN_DEV_global : Fld := ⟨0x7108, 15, 1⟩
/-! HIF_REMOTE (04_registers_host.md). -/
def HIF_REMOTE_allow_remote_read : Fld := ⟨0x710c, 0, 1⟩
def HIF_REMOTE_allow_remote_write : Fld := ⟨0x710c, 1, 1⟩
def HIF_REMOTE_refused : Fld := ⟨0x710c, 16, 16⟩
/-! HIF_ACCESS (04_registers_host.md). -/
def HIF_ACCESS_size_errors : Fld := ⟨0x7110, 0, 16⟩
def HIF_ACCESS_unmapped : Fld := ⟨0x7110, 16, 16⟩
/-! CMD_EPOCH (05_commands.md). -/
def CMD_EPOCH_current : Fld := ⟨0x20100, 0, 16⟩
def CMD_EPOCH_target : Fld := ⟨0x20100, 16, 16⟩
/-! CMD_INFLIGHT (05_commands.md). -/
def CMD_INFLIGHT_issued : Fld := ⟨0x20104, 0, 11⟩
def CMD_INFLIGHT_peak : Fld := ⟨0x20104, 16, 11⟩
/-! CMD_Q_BASE_LO (05_commands.md). -/
def CMD_Q_BASE_LO_base_lo (i : Nat) : Fld := ⟨0x40100 + 0x1000 * i, 12, 20⟩
/-! CMD_Q_BASE_HI (05_commands.md). -/
def CMD_Q_BASE_HI_base_hi (i : Nat) : Fld := ⟨0x40104 + 0x1000 * i, 0, 32⟩
/-! CMD_Q_CFG (05_commands.md). -/
def CMD_Q_CFG_size_code (i : Nat) : Fld := ⟨0x40108 + 0x1000 * i, 0, 4⟩
def CMD_Q_CFG_loc (i : Nat) : Fld := ⟨0x40108 + 0x1000 * i, 4, 1⟩
def CMD_Q_CFG_prio (i : Nat) : Fld := ⟨0x40108 + 0x1000 * i, 5, 2⟩
def CMD_Q_CFG_weight (i : Nat) : Fld := ⟨0x40108 + 0x1000 * i, 7, 4⟩
def CMD_Q_CFG_vector (i : Nat) : Fld := ⟨0x40108 + 0x1000 * i, 11, 7⟩
def CMD_Q_CFG_default_timeout (i : Nat) : Fld := ⟨0x40108 + 0x1000 * i, 18, 5⟩
def CMD_Q_CFG_max_issued_div4 (i : Nat) : Fld := ⟨0x40108 + 0x1000 * i, 23, 9⟩
/-! CMD_Q_TAIL (05_commands.md). -/
def CMD_Q_TAIL_tail (i : Nat) : Fld := ⟨0x4010c + 0x1000 * i, 0, 32⟩
/-! CMD_Q_HEAD (05_commands.md). -/
def CMD_Q_HEAD_head (i : Nat) : Fld := ⟨0x40110 + 0x1000 * i, 0, 32⟩
/-! CMD_CQ_BASE_LO (05_commands.md). -/
def CMD_CQ_BASE_LO_cq_base_lo (i : Nat) : Fld := ⟨0x40114 + 0x1000 * i, 12, 20⟩
/-! CMD_CQ_BASE_HI (05_commands.md). -/
def CMD_CQ_BASE_HI_cq_base_hi (i : Nat) : Fld := ⟨0x40118 + 0x1000 * i, 0, 32⟩
/-! CMD_CQ_HEAD (05_commands.md). -/
def CMD_CQ_HEAD_cq_head (i : Nat) : Fld := ⟨0x4011c + 0x1000 * i, 0, 32⟩
/-! CMD_CQ_TAIL (05_commands.md). -/
def CMD_CQ_TAIL_cq_tail (i : Nat) : Fld := ⟨0x40120 + 0x1000 * i, 0, 32⟩
/-! CMD_Q_STAT (05_commands.md). -/
def CMD_Q_STAT_issued (i : Nat) : Fld := ⟨0x40124 + 0x1000 * i, 0, 11⟩
def CMD_Q_STAT_bad_doorbells (i : Nat) : Fld := ⟨0x40124 + 0x1000 * i, 16, 8⟩
def CMD_Q_STAT_cfg_denied (i : Nat) : Fld := ⟨0x40124 + 0x1000 * i, 24, 8⟩
/-! LAP_SEL (05_commands.md). -/
def LAP_SEL_index : Fld := ⟨0x9100, 0, 12⟩
def LAP_SEL_held : Fld := ⟨0x9100, 12, 1⟩
/-! LAP_ADD (05_commands.md). -/
def LAP_ADD_add : Fld := ⟨0x9104, 0, 32⟩
/-! LAP_VAL_LO (05_commands.md). -/
def LAP_VAL_LO_value : Fld := ⟨0x9108, 0, 32⟩
/-! LAP_VAL_HI (05_commands.md). -/
def LAP_VAL_HI_value : Fld := ⟨0x910c, 0, 32⟩
/-! LAP_CFG (05_commands.md). -/
def LAP_CFG_watch_retry : Fld := ⟨0x9110, 0, 8⟩
def LAP_CFG_allow_remote_store : Fld := ⟨0x9110, 8, 1⟩
def LAP_CFG_held_refused : Fld := ⟨0x9110, 16, 16⟩
/-! LAP_WATCH (05_commands.md). -/
def LAP_WATCH_held : Fld := ⟨0x9114, 0, 11⟩
def LAP_WATCH_busy_answers : Fld := ⟨0x9114, 16, 16⟩
/-! LANE_INFO (06_lanes.md). -/
def LANE_INFO_physical_lane (i : Nat) : Fld := ⟨0x200100 + 0x1000 * i, 0, 7⟩
def LANE_INFO_left_rows (i : Nat) : Fld := ⟨0x200100 + 0x1000 * i, 8, 2⟩
def LANE_INFO_left_cols (i : Nat) : Fld := ⟨0x200100 + 0x1000 * i, 10, 2⟩
def LANE_INFO_right_rows (i : Nat) : Fld := ⟨0x200100 + 0x1000 * i, 12, 2⟩
def LANE_INFO_right_cols (i : Nat) : Fld := ⟨0x200100 + 0x1000 * i, 14, 2⟩
def LANE_INFO_field_sub (i : Nat) : Fld := ⟨0x200100 + 0x1000 * i, 16, 1⟩
def LANE_INFO_bist_pass (i : Nat) : Fld := ⟨0x200100 + 0x1000 * i, 17, 1⟩
/-! LANE_STATE (06_lanes.md). -/
def LANE_STATE_dispatched (i : Nat) : Fld := ⟨0x200104 + 0x1000 * i, 0, 3⟩
def LANE_STATE_fenced (i : Nat) : Fld := ⟨0x200104 + 0x1000 * i, 3, 1⟩
def LANE_STATE_left_on (i : Nat) : Fld := ⟨0x200104 + 0x1000 * i, 4, 1⟩
def LANE_STATE_right_on (i : Nat) : Fld := ⟨0x200104 + 0x1000 * i, 5, 1⟩
def LANE_STATE_running (i : Nat) : Fld := ⟨0x200104 + 0x1000 * i, 6, 1⟩
def LANE_STATE_cmd_id (i : Nat) : Fld := ⟨0x200104 + 0x1000 * i, 16, 16⟩
/-! LANE_POWER (06_lanes.md). -/
def LANE_POWER_ramp_intent (i : Nat) : Fld := ⟨0x200108 + 0x1000 * i, 0, 2⟩
def LANE_POWER_hold_on (i : Nat) : Fld := ⟨0x200108 + 0x1000 * i, 2, 1⟩
/-! LANE_CNT_LOAD (06_lanes.md). -/
def LANE_CNT_LOAD_count (i : Nat) : Fld := ⟨0x200110 + 0x1000 * i, 0, 32⟩
/-! LANE_CNT_LINE (06_lanes.md). -/
def LANE_CNT_LINE_count (i : Nat) : Fld := ⟨0x200114 + 0x1000 * i, 0, 32⟩
/-! LANE_CNT_DRY (06_lanes.md). -/
def LANE_CNT_DRY_count (i : Nat) : Fld := ⟨0x200118 + 0x1000 * i, 0, 32⟩
/-! LANE_CNT_DRAIN (06_lanes.md). -/
def LANE_CNT_DRAIN_count (i : Nat) : Fld := ⟨0x20011c + 0x1000 * i, 0, 32⟩
/-! LANE_RAMP (06_lanes.md). -/
def LANE_RAMP_ramp_cycles (i : Nat) : Fld := ⟨0x200600 + 0x1000 * i, 0, 7⟩
def LANE_RAMP_gate_off (i : Nat) : Fld := ⟨0x200600 + 0x1000 * i, 8, 1⟩
def LANE_RAMP_ramp_in_force (i : Nat) : Fld := ⟨0x200600 + 0x1000 * i, 16, 7⟩
/-! NUM_JOB (07_numerics.md). -/
def NUM_JOB_declared_rev : Fld := ⟨0xa100, 0, 8⟩
def NUM_JOB_k5_mode : Fld := ⟨0xa100, 8, 1⟩
def NUM_JOB_job_valid : Fld := ⟨0xa100, 9, 1⟩
def NUM_JOB_sr_log2 : Fld := ⟨0xa100, 16, 5⟩
/-! NUM_SEED_LO (07_numerics.md). -/
def NUM_SEED_LO_seed : Fld := ⟨0xa104, 0, 32⟩
/-! NUM_SEED_HI (07_numerics.md). -/
def NUM_SEED_HI_seed : Fld := ⟨0xa108, 0, 32⟩
/-! NUM_STAT (07_numerics.md). -/
def NUM_STAT_warming : Fld := ⟨0xa10c, 0, 13⟩
def NUM_STAT_job_denied : Fld := ⟨0xa10c, 16, 8⟩
def NUM_STAT_sat_slots : Fld := ⟨0xa10c, 24, 8⟩
/-! NUM_SLOT_SEL (07_numerics.md). -/
def NUM_SLOT_SEL_slot : Fld := ⟨0xa110, 0, 12⟩
def NUM_SLOT_SEL_busy : Fld := ⟨0xa110, 16, 1⟩
/-! LANE_VEC_TAG (08_vector.md). -/
def LANE_VEC_TAG_prog_tag (i : Nat) : Fld := ⟨0x200120 + 0x1000 * i, 0, 32⟩
/-! LANE_VEC_STATE (08_vector.md). -/
def LANE_VEC_STATE_pc (i : Nat) : Fld := ⟨0x200124 + 0x1000 * i, 0, 13⟩
def LANE_VEC_STATE_resident (i : Nat) : Fld := ⟨0x200124 + 0x1000 * i, 13, 1⟩
def LANE_VEC_STATE_running (i : Nat) : Fld := ⟨0x200124 + 0x1000 * i, 14, 1⟩
def LANE_VEC_STATE_prog_len (i : Nat) : Fld := ⟨0x200124 + 0x1000 * i, 16, 13⟩
/-! LANE_VEC_RETIRED (08_vector.md). -/
def LANE_VEC_RETIRED_retired (i : Nat) : Fld := ⟨0x200128 + 0x1000 * i, 0, 32⟩
/-! ATT_PARITY (09_memory.md). -/
def ATT_PARITY_replays (i : Nat) : Fld := ⟨0x14100 + 0x1000 * i, 0, 16⟩
def ATT_PARITY_failures (i : Nat) : Fld := ⟨0x14100 + 0x1000 * i, 16, 16⟩
/-! ATT_FAIL (09_memory.md). -/
def ATT_FAIL_lane (i : Nat) : Fld := ⟨0x14104 + 0x1000 * i, 0, 7⟩
def ATT_FAIL_line (i : Nat) : Fld := ⟨0x14104 + 0x1000 * i, 7, 19⟩
def ATT_FAIL_valid (i : Nat) : Fld := ⟨0x14104 + 0x1000 * i, 31, 1⟩
/-! CEL_STATE (09_memory.md). -/
def CEL_STATE_trained : Fld := ⟨0x80100, 0, 1⟩
def CEL_STATE_init_done : Fld := ⟨0x80100, 1, 1⟩
def CEL_STATE_ppr_pending : Fld := ⟨0x80100, 2, 1⟩
def CEL_STATE_failed_pkgs : Fld := ⟨0x80100, 8, 5⟩
def CEL_STATE_init_gib : Fld := ⟨0x80100, 16, 11⟩
/-! CEL_RETRAIN (09_memory.md). -/
def CEL_RETRAIN_osc_interval : Fld := ⟨0x80104, 0, 8⟩
def CEL_RETRAIN_temp_step : Fld := ⟨0x80104, 8, 4⟩
def CEL_RETRAIN_corrections : Fld := ⟨0x80104, 16, 16⟩
/-! CEL_SCRUB (09_memory.md). -/
def CEL_SCRUB_patrol_en : Fld := ⟨0x80108, 0, 1⟩
def CEL_SCRUB_period_h : Fld := ⟨0x80108, 8, 8⟩
def CEL_SCRUB_passes : Fld := ⟨0x80108, 16, 16⟩
/-! CEL_PARITY (09_memory.md). -/
def CEL_PARITY_replays : Fld := ⟨0x8010c, 0, 16⟩
def CEL_PARITY_failures : Fld := ⟨0x8010c, 16, 16⟩
/-! CEL_FAIL_LO (09_memory.md). -/
def CEL_FAIL_LO_addr : Fld := ⟨0x80110, 0, 32⟩
/-! CEL_FAIL_HI (09_memory.md). -/
def CEL_FAIL_HI_addr : Fld := ⟨0x80114, 0, 31⟩
def CEL_FAIL_HI_valid : Fld := ⟨0x80114, 31, 1⟩
/-! CEL_PKG_STATE (09_memory.md). -/
def CEL_PKG_STATE_ch_trained (i : Nat) : Fld := ⟨0x81100 + 0x1000 * i, 0, 8⟩
def CEL_PKG_STATE_failed (i : Nat) : Fld := ⟨0x81100 + 0x1000 * i, 8, 1⟩
def CEL_PKG_STATE_ppr_avail (i : Nat) : Fld := ⟨0x81100 + 0x1000 * i, 12, 4⟩
def CEL_PKG_STATE_ppr_used (i : Nat) : Fld := ⟨0x81100 + 0x1000 * i, 16, 4⟩
def CEL_PKG_STATE_candidates (i : Nat) : Fld := ⟨0x81100 + 0x1000 * i, 20, 4⟩
def CEL_PKG_STATE_mr4_rate (i : Nat) : Fld := ⟨0x81100 + 0x1000 * i, 24, 3⟩
/-! CEL_PKG_TRAIN_X (09_memory.md). -/
def CEL_PKG_TRAIN_X_retrain_now (i : Nat) : Fld := ⟨0x81600 + 0x1000 * i, 0, 1⟩
def CEL_PKG_TRAIN_X_freeze (i : Nat) : Fld := ⟨0x81600 + 0x1000 * i, 1, 1⟩
def CEL_PKG_TRAIN_X_drift_limit (i : Nat) : Fld := ⟨0x81600 + 0x1000 * i, 8, 8⟩
/-! CBZ_BLOCKS_DEC (10_cabouz.md). -/
def CBZ_BLOCKS_DEC_count : Fld := ⟨0x18100, 0, 32⟩
/-! CBZ_BLOCKS_ENC (10_cabouz.md). -/
def CBZ_BLOCKS_ENC_count : Fld := ⟨0x18104, 0, 32⟩
/-! CBZ_RAW (10_cabouz.md). -/
def CBZ_RAW_raw : Fld := ⟨0x18108, 0, 32⟩
/-! CBZ_CHECKS (10_cabouz.md). -/
def CBZ_CHECKS_rereads : Fld := ⟨0x1810c, 0, 16⟩
def CBZ_CHECKS_damaged : Fld := ⟨0x1810c, 16, 16⟩
/-! CBZ_DMG_LO (10_cabouz.md). -/
def CBZ_DMG_LO_addr : Fld := ⟨0x18110, 0, 32⟩
/-! CBZ_DMG_HI (10_cabouz.md). -/
def CBZ_DMG_HI_addr : Fld := ⟨0x18114, 0, 32⟩
/-! CBZ_DMG_INFO (10_cabouz.md). -/
def CBZ_DMG_INFO_detail : Fld := ⟨0x18118, 0, 4⟩
def CBZ_DMG_INFO_slot : Fld := ⟨0x18118, 4, 4⟩
def CBZ_DMG_INFO_generation : Fld := ⟨0x18118, 8, 4⟩
def CBZ_DMG_INFO_level_two : Fld := ⟨0x18118, 12, 1⟩
def CBZ_DMG_INFO_valid : Fld := ⟨0x18118, 31, 1⟩
/-! CBZ_TBL_CTRL (10_cabouz.md). -/
def CBZ_TBL_CTRL_new_gen (k : Nat) : Fld := ⟨0x19000 + 0x1000 * (k / 4) + 0x100 * (k % 4) + 0x180, 0, 4⟩
def CBZ_TBL_CTRL_commit (k : Nat) : Fld := ⟨0x19000 + 0x1000 * (k / 4) + 0x100 * (k % 4) + 0x180, 8, 1⟩
def CBZ_TBL_CTRL_retire (k : Nat) : Fld := ⟨0x19000 + 0x1000 * (k / 4) + 0x100 * (k % 4) + 0x180, 9, 1⟩
/-! CBZ_TBL_STATE (10_cabouz.md). -/
def CBZ_TBL_STATE_state (k : Nat) : Fld := ⟨0x19000 + 0x1000 * (k / 4) + 0x100 * (k % 4) + 0x184, 0, 2⟩
def CBZ_TBL_STATE_cur_gen (k : Nat) : Fld := ⟨0x19000 + 0x1000 * (k / 4) + 0x100 * (k % 4) + 0x184, 4, 4⟩
def CBZ_TBL_STATE_old_gen (k : Nat) : Fld := ⟨0x19000 + 0x1000 * (k / 4) + 0x100 * (k % 4) + 0x184, 8, 4⟩
def CBZ_TBL_STATE_denied (k : Nat) : Fld := ⟨0x19000 + 0x1000 * (k / 4) + 0x100 * (k % 4) + 0x184, 16, 8⟩
/-! CBZ_TBL_REFS (10_cabouz.md). -/
def CBZ_TBL_REFS_old_refs (k : Nat) : Fld := ⟨0x19000 + 0x1000 * (k / 4) + 0x100 * (k % 4) + 0x188, 0, 16⟩
def CBZ_TBL_REFS_cur_refs (k : Nat) : Fld := ⟨0x19000 + 0x1000 * (k / 4) + 0x100 * (k % 4) + 0x188, 16, 16⟩
/-! FAB_GEOM (11_stadium_fabric.md). -/
def FAB_GEOM_extent_x : Fld := ⟨0xd100, 0, 5⟩
def FAB_GEOM_extent_y : Fld := ⟨0xd100, 5, 5⟩
def FAB_GEOM_origin_x : Fld := ⟨0xd100, 10, 4⟩
def FAB_GEOM_origin_y : Fld := ⟨0xd100, 14, 4⟩
/-! FAB_TIMEOUT (11_stadium_fabric.md). -/
def FAB_TIMEOUT_txn_timeout : Fld := ⟨0xd104, 0, 16⟩
def FAB_TIMEOUT_drain_us : Fld := ⟨0xd104, 16, 16⟩
/-! FAB_INSERT (11_stadium_fabric.md). -/
def FAB_INSERT_insert_wait : Fld := ⟨0xd108, 0, 8⟩
def FAB_INSERT_state_x : Fld := ⟨0xd108, 8, 2⟩
def FAB_INSERT_state_y : Fld := ⟨0xd108, 10, 2⟩
/-! FAB_TXN (11_stadium_fabric.md). -/
def FAB_TXN_outstanding : Fld := ⟨0xd10c, 0, 13⟩
def FAB_TXN_peak : Fld := ⟨0xd10c, 16, 13⟩
/-! FAB_COUNT (11_stadium_fabric.md). -/
def FAB_COUNT_reissued : Fld := ⟨0xd110, 0, 16⟩
def FAB_COUNT_lost : Fld := ⟨0xd110, 16, 16⟩
/-! FAB_DUP (11_stadium_fabric.md). -/
def FAB_DUP_duplicates : Fld := ⟨0xd114, 0, 16⟩
def FAB_DUP_early_discarded : Fld := ⟨0xd114, 16, 8⟩
def FAB_DUP_unmatched : Fld := ⟨0xd114, 24, 8⟩
/-! FAB_ARB (11_stadium_fabric.md). -/
def FAB_ARB_arb_intent : Fld := ⟨0xd118, 0, 2⟩
/-! FAB_ALT (11_stadium_fabric.md). -/
def FAB_ALT_alt_dests : Fld := ⟨0xd11c, 0, 14⟩
/-! FAB_ARB_CAP (11_stadium_fabric.md). -/
def FAB_ARB_CAP_vc1_cap : Fld := ⟨0xd600, 0, 8⟩
def FAB_ARB_CAP_vc1_burst : Fld := ⟨0xd600, 8, 8⟩
/-! FAB_ARB_WEIGHT (11_stadium_fabric.md). -/
def FAB_ARB_WEIGHT_weights : Fld := ⟨0xd604, 0, 28⟩
/-! PORT_STATE (11_stadium_fabric.md). -/
def PORT_STATE_state (i : Nat) : Fld := ⟨0xa0100 + 0x1000 * i, 0, 3⟩
def PORT_STATE_spare_used (i : Nat) : Fld := ⟨0xa0100 + 0x1000 * i, 3, 1⟩
def PORT_STATE_spare_for (i : Nat) : Fld := ⟨0xa0100 + 0x1000 * i, 4, 3⟩
def PORT_STATE_dateline (i : Nat) : Fld := ⟨0xa0100 + 0x1000 * i, 7, 1⟩
def PORT_STATE_down_cause (i : Nat) : Fld := ⟨0xa0100 + 0x1000 * i, 8, 3⟩
/-! PORT_PEER (11_stadium_fabric.md). -/
def PORT_PEER_peer_id (i : Nat) : Fld := ⟨0xa0104 + 0x1000 * i, 0, 13⟩
def PORT_PEER_peer_port (i : Nat) : Fld := ⟨0xa0104 + 0x1000 * i, 16, 5⟩
def PORT_PEER_peer_valid (i : Nat) : Fld := ⟨0xa0104 + 0x1000 * i, 31, 1⟩
/-! PORT_REPLAY (11_stadium_fabric.md). -/
def PORT_REPLAY_replays (i : Nat) : Fld := ⟨0xa0108 + 0x1000 * i, 0, 16⟩
def PORT_REPLAY_replay_limit (i : Nat) : Fld := ⟨0xa0108 + 0x1000 * i, 16, 8⟩
def PORT_REPLAY_replay_timeout (i : Nat) : Fld := ⟨0xa0108 + 0x1000 * i, 24, 8⟩
/-! PORT_FEC (11_stadium_fabric.md). -/
def PORT_FEC_corrected (i : Nat) : Fld := ⟨0xa010c + 0x1000 * i, 0, 16⟩
def PORT_FEC_uncorrectable (i : Nat) : Fld := ⟨0xa010c + 0x1000 * i, 16, 16⟩
/-! PORT_CRC (11_stadium_fabric.md). -/
def PORT_CRC_crc_fail (i : Nat) : Fld := ⟨0xa0110 + 0x1000 * i, 0, 16⟩
def PORT_CRC_seq_fail (i : Nat) : Fld := ⟨0xa0110 + 0x1000 * i, 16, 16⟩
/-! PORT_LANE (11_stadium_fabric.md). -/
def PORT_LANE_swap_lane (i : Nat) : Fld := ⟨0xa0114 + 0x1000 * i, 0, 3⟩
def PORT_LANE_swap (i : Nat) : Fld := ⟨0xa0114 + 0x1000 * i, 3, 1⟩
def PORT_LANE_auto_swap (i : Nat) : Fld := ⟨0xa0114 + 0x1000 * i, 4, 1⟩
def PORT_LANE_lane_log2 (i : Nat) : Fld := ⟨0xa0114 + 0x1000 * i, 8, 5⟩
/-! RTE_STATE (11_stadium_fabric.md). -/
def RTE_STATE_epoch : Fld := ⟨0xc0100, 0, 16⟩
def RTE_STATE_isolated : Fld := ⟨0xc0100, 16, 1⟩
def RTE_STATE_valid : Fld := ⟨0xc0100, 17, 1⟩
/-! COL_STATE (12_collectives.md). -/
def COL_STATE_running : Fld := ⟨0xb100, 0, 5⟩
def COL_STATE_held : Fld := ⟨0xb100, 8, 9⟩
def COL_STATE_old_epoch_open : Fld := ⟨0xb100, 17, 1⟩
/-! COL_TIMING (12_collectives.md). -/
def COL_TIMING_hurdle_wait : Fld := ⟨0xb104, 0, 16⟩
def COL_TIMING_later_retry : Fld := ⟨0xb104, 16, 8⟩
/-! COL_OVF_STEP0 (12_collectives.md). -/
def COL_OVF_STEP0_step : Fld := ⟨0xb108, 0, 32⟩
/-! COL_OVF_STEP1 (12_collectives.md). -/
def COL_OVF_STEP1_step : Fld := ⟨0xb10c, 0, 32⟩
/-! COL_OVF (12_collectives.md). -/
def COL_OVF_ovf0 : Fld := ⟨0xb110, 0, 1⟩
def COL_OVF_ovf1 : Fld := ⟨0xb110, 1, 1⟩
/-! COL_COUNT (12_collectives.md). -/
def COL_COUNT_replays : Fld := ⟨0xb114, 0, 16⟩
def COL_COUNT_voids : Fld := ⟨0xb114, 16, 16⟩
/-! COL_DISCARD (12_collectives.md). -/
def COL_DISCARD_stale : Fld := ⟨0xb118, 0, 16⟩
def COL_DISCARD_mismatched : Fld := ⟨0xb118, 16, 16⟩
/-! COL_LATER (12_collectives.md). -/
def COL_LATER_later_sent : Fld := ⟨0xb11c, 0, 16⟩
def COL_LATER_later_received : Fld := ⟨0xb11c, 16, 16⟩
/-! COL_LAND_SEL (12_collectives.md). -/
def COL_LAND_SEL_landing : Fld := ⟨0xb120, 0, 6⟩
/-! COL_LAND_STATE (12_collectives.md). -/
def COL_LAND_STATE_state : Fld := ⟨0xb124, 0, 2⟩
def COL_LAND_STATE_chunks : Fld := ⟨0xb124, 4, 13⟩
def COL_LAND_STATE_usable : Fld := ⟨0xb124, 17, 13⟩
/-! UPD_LOSS (13_training_state.md). -/
def UPD_LOSS_loss_log2 : Fld := ⟨0xc100, 0, 5⟩
def UPD_LOSS_clean : Fld := ⟨0xc100, 16, 16⟩
/-! UPD_GROW (13_training_state.md). -/
def UPD_GROW_grow_steps : Fld := ⟨0xc104, 0, 16⟩
/-! UPD_AUDIT (13_training_state.md). -/
def UPD_AUDIT_audit_every : Fld := ⟨0xc108, 0, 8⟩
def UPD_AUDIT_busy : Fld := ⟨0xc108, 8, 1⟩
def UPD_AUDIT_mismatches : Fld := ⟨0xc108, 16, 16⟩
/-! UPD_STEP (13_training_state.md). -/
def UPD_STEP_step : Fld := ⟨0xc10c, 0, 32⟩
/-! UPD_COUNT (13_training_state.md). -/
def UPD_COUNT_skipped : Fld := ⟨0xc110, 0, 16⟩
def UPD_COUNT_grown : Fld := ⟨0xc110, 16, 16⟩
/-! UPD_FETCH (13_training_state.md). -/
def UPD_FETCH_fetch_retry : Fld := ⟨0xc114, 0, 8⟩
def UPD_FETCH_refetches : Fld := ⟨0xc114, 16, 16⟩
/-! MIL_PORT_STATE (14_milant.md). -/
def MIL_PORT_STATE_link (i : Nat) : Fld := ⟨0x1d100 + 0x1000 * i, 0, 2⟩
def MIL_PORT_STATE_tx_live (i : Nat) : Fld := ⟨0x1d100 + 0x1000 * i, 2, 1⟩
def MIL_PORT_STATE_tx_an (i : Nat) : Fld := ⟨0x1d100 + 0x1000 * i, 3, 2⟩
def MIL_PORT_STATE_rx_an (i : Nat) : Fld := ⟨0x1d100 + 0x1000 * i, 5, 4⟩
def MIL_PORT_STATE_vlan_en (i : Nat) : Fld := ⟨0x1d100 + 0x1000 * i, 9, 1⟩
def MIL_PORT_STATE_vlan_id (i : Nat) : Fld := ⟨0x1d100 + 0x1000 * i, 10, 12⟩
/-! MIL_PEER_LO (14_milant.md). -/
def MIL_PEER_LO_peer (i : Nat) : Fld := ⟨0x1d104 + 0x1000 * i, 0, 32⟩
/-! MIL_PEER_HI (14_milant.md). -/
def MIL_PEER_HI_peer (i : Nat) : Fld := ⟨0x1d108 + 0x1000 * i, 0, 32⟩
/-! MIL_MAC_LO (14_milant.md). -/
def MIL_MAC_LO_mac (i : Nat) : Fld := ⟨0x1d10c + 0x1000 * i, 0, 32⟩
/-! MIL_MAC_HI (14_milant.md). -/
def MIL_MAC_HI_mac (i : Nat) : Fld := ⟨0x1d110 + 0x1000 * i, 0, 32⟩
/-! MIL_FEC (14_milant.md). -/
def MIL_FEC_low (i : Nat) : Fld := ⟨0x1d114 + 0x1000 * i, 0, 16⟩
def MIL_FEC_high (i : Nat) : Fld := ⟨0x1d114 + 0x1000 * i, 16, 16⟩
/-! MIL_GROUPS (14_milant.md). -/
def MIL_GROUPS_low (i : Nat) : Fld := ⟨0x1d118 + 0x1000 * i, 0, 16⟩
def MIL_GROUPS_high (i : Nat) : Fld := ⟨0x1d118 + 0x1000 * i, 16, 16⟩
/-! MIL_DROP (14_milant.md). -/
def MIL_DROP_low (i : Nat) : Fld := ⟨0x1d11c + 0x1000 * i, 0, 16⟩
def MIL_DROP_high (i : Nat) : Fld := ⟨0x1d11c + 0x1000 * i, 16, 16⟩
/-! MIL_CFG (14_milant.md). -/
def MIL_CFG_relay_cap (i : Nat) : Fld := ⟨0x1d140 + 0x1000 * i, 0, 8⟩
def MIL_CFG_group_hold (i : Nat) : Fld := ⟨0x1d140 + 0x1000 * i, 8, 8⟩
def MIL_CFG_group_wait (i : Nat) : Fld := ⟨0x1d140 + 0x1000 * i, 16, 8⟩
def MIL_CFG_round_wait (i : Nat) : Fld := ⟨0x1d140 + 0x1000 * i, 24, 8⟩
/-! MIL_TIMING (14_milant.md). -/
def MIL_TIMING_relay_timeout (i : Nat) : Fld := ⟨0x1d144 + 0x1000 * i, 0, 16⟩
def MIL_TIMING_resend_timeout (i : Nat) : Fld := ⟨0x1d144 + 0x1000 * i, 16, 16⟩
/-! MIL_TAB_LO (14_milant.md). -/
def MIL_TAB_LO_tab (i : Nat) : Fld := ⟨0x1d148 + 0x1000 * i, 0, 32⟩
/-! MIL_TAB_HI (14_milant.md). -/
def MIL_TAB_HI_tab (i : Nat) : Fld := ⟨0x1d14c + 0x1000 * i, 0, 32⟩
/-! MIL_CELLAR (14_milant.md). -/
def MIL_CELLAR_base_mib (i : Nat) : Fld := ⟨0x1d150 + 0x1000 * i, 0, 21⟩
/-! MIL_CELLAR_SIZE (14_milant.md). -/
def MIL_CELLAR_SIZE_slot_mib (i : Nat) : Fld := ⟨0x1d154 + 0x1000 * i, 0, 16⟩
/-! MIL_ROUND (14_milant.md). -/
def MIL_ROUND_newest (i : Nat) : Fld := ⟨0x1d158 + 0x1000 * i, 0, 32⟩
/-! MIL_ID (14_milant.md). -/
def MIL_ID_participant (i : Nat) : Fld := ⟨0x1d15c + 0x1000 * i, 0, 6⟩
def MIL_ID_building (i : Nat) : Fld := ⟨0x1d15c + 0x1000 * i, 6, 2⟩
def MIL_ID_buildings (i : Nat) : Fld := ⟨0x1d15c + 0x1000 * i, 8, 3⟩
def MIL_ID_ethertype (i : Nat) : Fld := ⟨0x1d15c + 0x1000 * i, 16, 16⟩
/-! TIM_SRC (14_milant.md). -/
def TIM_SRC_source : Fld := ⟨0xe100, 0, 5⟩
def TIM_SRC_domain : Fld := ⟨0xe100, 8, 8⟩
/-! TIM_SERVE (14_milant.md). -/
def TIM_SERVE_stadium : Fld := ⟨0xe104, 0, 20⟩
def TIM_SERVE_milant : Fld := ⟨0xe104, 20, 2⟩
/-! TIM_NOW_LO (14_milant.md). -/
def TIM_NOW_LO_now : Fld := ⟨0xe108, 0, 32⟩
/-! TIM_NOW_HI (14_milant.md). -/
def TIM_NOW_HI_now : Fld := ⟨0xe10c, 0, 32⟩
/-! TIM_FRAC (14_milant.md). -/
def TIM_FRAC_now : Fld := ⟨0xe110, 0, 32⟩
/-! TIM_SERVO (14_milant.md). -/
def TIM_SERVO_state : Fld := ⟨0xe114, 0, 2⟩
def TIM_SERVO_lock_count : Fld := ⟨0xe114, 8, 8⟩
def TIM_SERVO_offset : Fld := ⟨0xe114, 16, 16⟩
/-! TIM_SET_LO (14_milant.md). -/
def TIM_SET_LO_seconds : Fld := ⟨0xe118, 0, 32⟩
/-! TIM_SET_HI (14_milant.md). -/
def TIM_SET_HI_seconds : Fld := ⟨0xe11c, 0, 32⟩
/-! TIM_GAIN (14_milant.md). -/
def TIM_GAIN_kp_log2 : Fld := ⟨0xe600, 0, 4⟩
def TIM_GAIN_ki_log2 : Fld := ⟨0xe600, 4, 4⟩
def TIM_GAIN_step_ns : Fld := ⟨0xe600, 8, 16⟩
/-! TIM_CAL_PHY_F (14_milant.md). -/
def TIM_CAL_PHY_F_tx_delay (n : Nat) : Fld := ⟨0xec00 + 4 * n, 0, 16⟩
/-! TIM_CAL_PHY_U (14_milant.md). -/
def TIM_CAL_PHY_U_tx_delay (n : Nat) : Fld := ⟨0xee00 + 4 * n, 0, 16⟩
/-! TIM_CAL_PHY_F (14_milant.md). -/
def TIM_CAL_PHY_F_rx_delay (n : Nat) : Fld := ⟨0xec00 + 4 * n, 16, 16⟩
/-! TIM_CAL_PHY_U (14_milant.md). -/
def TIM_CAL_PHY_U_rx_delay (n : Nat) : Fld := ⟨0xee00 + 4 * n, 16, 16⟩
/-! TIM_CAL_ASYM_F (14_milant.md). -/
def TIM_CAL_ASYM_F_asym (n : Nat) : Fld := ⟨0xec08 + 4 * n, 0, 32⟩
/-! TIM_CAL_ASYM_U (14_milant.md). -/
def TIM_CAL_ASYM_U_asym (n : Nat) : Fld := ⟨0xee08 + 4 * n, 0, 32⟩
/-! KEY_INSTALL (14_milant.md). -/
def KEY_INSTALL_port : Fld := ⟨0xf138, 0, 1⟩
def KEY_INSTALL_dir : Fld := ⟨0xf138, 1, 1⟩
def KEY_INSTALL_an : Fld := ⟨0xf138, 2, 2⟩
def KEY_INSTALL_install : Fld := ⟨0xf138, 4, 1⟩
def KEY_INSTALL_erase : Fld := ⟨0xf138, 5, 1⟩
def KEY_INSTALL_busy : Fld := ⟨0xf138, 6, 1⟩
def KEY_INSTALL_result : Fld := ⟨0xf138, 8, 3⟩
/-! KEY_STATE (14_milant.md). -/
def KEY_STATE_tx0 : Fld := ⟨0xf13c, 0, 4⟩
def KEY_STATE_rx0 : Fld := ⟨0xf13c, 4, 4⟩
def KEY_STATE_tx1 : Fld := ⟨0xf13c, 8, 4⟩
def KEY_STATE_rx1 : Fld := ⟨0xf13c, 12, 4⟩
def KEY_STATE_pending : Fld := ⟨0xf13c, 16, 4⟩
/-! KEY_SCHED (14_milant.md). -/
def KEY_SCHED_port : Fld := ⟨0xf140, 0, 1⟩
def KEY_SCHED_dir : Fld := ⟨0xf140, 1, 1⟩
def KEY_SCHED_an : Fld := ⟨0xf140, 2, 2⟩
def KEY_SCHED_arm : Fld := ⟨0xf140, 4, 1⟩
def KEY_SCHED_refused : Fld := ⟨0xf140, 5, 1⟩
def KEY_SCHED_grace_ms : Fld := ⟨0xf140, 16, 16⟩
/-! KEY_AT_LO (14_milant.md). -/
def KEY_AT_LO_at : Fld := ⟨0xf144, 0, 32⟩
/-! KEY_AT_HI (14_milant.md). -/
def KEY_AT_HI_at : Fld := ⟨0xf148, 0, 32⟩
/-! STW_STATE (15_steward_security.md). -/
def STW_STATE_boot_fallback : Fld := ⟨0x5100, 0, 1⟩
def STW_STATE_trial : Fld := ⟨0x5100, 1, 1⟩
def STW_STATE_pending : Fld := ⟨0x5100, 2, 1⟩
def STW_STATE_held : Fld := ⟨0x5100, 3, 1⟩
def STW_STATE_expiries : Fld := ⟨0x5100, 8, 8⟩
/-! STW_WDOG (15_steward_security.md). -/
def STW_WDOG_wd_ms : Fld := ⟨0x5104, 0, 16⟩
/-! FWU_STATE (15_steward_security.md). -/
def FWU_STATE_state : Fld := ⟨0x6100, 0, 3⟩
def FWU_STATE_held : Fld := ⟨0x6100, 8, 10⟩
def FWU_STATE_pieces : Fld := ⟨0x6100, 18, 10⟩
/-! FWU_CTRL (15_steward_security.md). -/
def FWU_CTRL_confirm : Fld := ⟨0x6104, 0, 1⟩
def FWU_CTRL_revert : Fld := ⟨0x6104, 1, 1⟩
def FWU_CTRL_abandon : Fld := ⟨0x6104, 2, 1⟩
def FWU_CTRL_hold_apply : Fld := ⟨0x6104, 3, 1⟩
def FWU_CTRL_apply : Fld := ⟨0x6104, 4, 1⟩
/-! FWU_SUBMIT_LO (15_steward_security.md). -/
def FWU_SUBMIT_LO_addr : Fld := ⟨0x6108, 0, 32⟩
/-! FWU_SUBMIT_HI (15_steward_security.md). -/
def FWU_SUBMIT_HI_addr : Fld := ⟨0x610c, 0, 32⟩
/-! FWU_MAP_SEL (15_steward_security.md). -/
def FWU_MAP_SEL_word : Fld := ⟨0x6110, 0, 4⟩
/-! FWU_MAP (15_steward_security.md). -/
def FWU_MAP_map : Fld := ⟨0x6114, 0, 32⟩
/-! SEC_STATE (15_steward_security.md). -/
def SEC_STATE_kek_set : Fld := ⟨0x4100, 0, 1⟩
def SEC_STATE_debug : Fld := ⟨0x4100, 1, 1⟩
def SEC_STATE_revoked : Fld := ⟨0x4100, 2, 4⟩
def SEC_STATE_counter : Fld := ⟨0x4100, 8, 7⟩
/-! PAC_CAL_V_F (16_pacers.md). -/
def PAC_CAL_V_F_v_min (i : Nat) : Fld := ⟨0x10c00 + 0x1000 * i, 0, 16⟩
/-! PAC_CAL_V_U (16_pacers.md). -/
def PAC_CAL_V_U_v_min (i : Nat) : Fld := ⟨0x10e00 + 0x1000 * i, 0, 16⟩
/-! PAC_CAL_V_F (16_pacers.md). -/
def PAC_CAL_V_F_v_max (i : Nat) : Fld := ⟨0x10c00 + 0x1000 * i, 16, 16⟩
/-! PAC_CAL_V_U (16_pacers.md). -/
def PAC_CAL_V_U_v_max (i : Nat) : Fld := ⟨0x10e00 + 0x1000 * i, 16, 16⟩
/-! PAC_CAL_DROOP_F (16_pacers.md). -/
def PAC_CAL_DROOP_F_droop_mv (i : Nat) : Fld := ⟨0x10c04 + 0x1000 * i, 0, 8⟩
/-! PAC_CAL_DROOP_U (16_pacers.md). -/
def PAC_CAL_DROOP_U_droop_mv (i : Nat) : Fld := ⟨0x10e04 + 0x1000 * i, 0, 8⟩
/-! PAC_CAL_DROOP_F (16_pacers.md). -/
def PAC_CAL_DROOP_F_hyst_mv (i : Nat) : Fld := ⟨0x10c04 + 0x1000 * i, 8, 8⟩
/-! PAC_CAL_DROOP_U (16_pacers.md). -/
def PAC_CAL_DROOP_U_hyst_mv (i : Nat) : Fld := ⟨0x10e04 + 0x1000 * i, 8, 8⟩
/-! PAC_CAL_RO_F (16_pacers.md). -/
def PAC_CAL_RO_F_ro_target (i : Nat) : Fld := ⟨0x10c08 + 0x1000 * i, 0, 16⟩
/-! PAC_CAL_RO_U (16_pacers.md). -/
def PAC_CAL_RO_U_ro_target (i : Nat) : Fld := ⟨0x10e08 + 0x1000 * i, 0, 16⟩
/-! PAC_CAL_RO_F (16_pacers.md). -/
def PAC_CAL_RO_F_ro_margin (i : Nat) : Fld := ⟨0x10c08 + 0x1000 * i, 16, 8⟩
/-! PAC_CAL_RO_U (16_pacers.md). -/
def PAC_CAL_RO_U_ro_margin (i : Nat) : Fld := ⟨0x10e08 + 0x1000 * i, 16, 8⟩
/-! PAC_CAL_TJ_F (16_pacers.md). -/
def PAC_CAL_TJ_F_tj_offset (i : Nat) : Fld := ⟨0x10c0c + 0x1000 * i, 0, 8⟩
/-! PAC_CAL_TJ_U (16_pacers.md). -/
def PAC_CAL_TJ_U_tj_offset (i : Nat) : Fld := ⟨0x10e0c + 0x1000 * i, 0, 8⟩
/-! PAC_STATE (16_pacers.md). -/
def PAC_STATE_level (i : Nat) : Fld := ⟨0x10100 + 0x1000 * i, 0, 5⟩
def PAC_STATE_base_pace (i : Nat) : Fld := ⟨0x10100 + 0x1000 * i, 5, 5⟩
def PAC_STATE_cap_level (i : Nat) : Fld := ⟨0x10100 + 0x1000 * i, 10, 5⟩
def PAC_STATE_therm_level (i : Nat) : Fld := ⟨0x10100 + 0x1000 * i, 15, 5⟩
def PAC_STATE_cel_hold (i : Nat) : Fld := ⟨0x10100 + 0x1000 * i, 20, 1⟩
/-! PAC_VOLT (16_pacers.md). -/
def PAC_VOLT_setpoint_mv (i : Nat) : Fld := ⟨0x10104 + 0x1000 * i, 0, 12⟩
/-! PAC_DROOP (16_pacers.md). -/
def PAC_DROOP_droops (i : Nat) : Fld := ⟨0x10108 + 0x1000 * i, 0, 16⟩
def PAC_DROOP_stretched (i : Nat) : Fld := ⟨0x10108 + 0x1000 * i, 16, 16⟩
/-! PAC_TEMP (16_pacers.md). -/
def PAC_TEMP_tj (i : Nat) : Fld := ⟨0x1010c + 0x1000 * i, 0, 12⟩
/-! PAC_CAP (16_pacers.md). -/
def PAC_CAP_cap_w (i : Nat) : Fld := ⟨0x10110 + 0x1000 * i, 0, 12⟩
def PAC_CAP_power_w (i : Nat) : Fld := ⟨0x10110 + 0x1000 * i, 12, 12⟩
/-! PAC_LOOP_X (16_pacers.md). -/
def PAC_LOOP_X_freeze_volt (i : Nat) : Fld := ⟨0x10600 + 0x1000 * i, 0, 1⟩
def PAC_LOOP_X_droop_off (i : Nat) : Fld := ⟨0x10600 + 0x1000 * i, 1, 1⟩
def PAC_LOOP_X_step_mv (i : Nat) : Fld := ⟨0x10600 + 0x1000 * i, 4, 4⟩
/-! PRF_ACTIVE (16_pacers.md). -/
def PRF_ACTIVE_profile : Fld := ⟨0x3100, 0, 2⟩
def PRF_ACTIVE_fallback : Fld := ⟨0x3100, 2, 1⟩
def PRF_ACTIVE_builtin : Fld := ⟨0x3100, 3, 1⟩
def PRF_ACTIVE_switches : Fld := ⟨0x3100, 16, 16⟩
/-! PRF_WRITE (16_pacers.md). -/
def PRF_WRITE_slot : Fld := ⟨0x3104, 0, 2⟩
def PRF_WRITE_write : Fld := ⟨0x3104, 2, 1⟩
def PRF_WRITE_busy : Fld := ⟨0x3104, 3, 1⟩
def PRF_WRITE_result : Fld := ⟨0x3104, 4, 3⟩
/-! PRF_SRC_LO (16_pacers.md). -/
def PRF_SRC_LO_addr : Fld := ⟨0x3108, 0, 32⟩
/-! PRF_SRC_HI (16_pacers.md). -/
def PRF_SRC_HI_addr : Fld := ⟨0x310c, 0, 32⟩
/-! FAB_EQ (16_pacers.md). -/
def FAB_EQ_freeze : Fld := ⟨0xd188, 0, 20⟩
/-! MIL_EQ (16_pacers.md). -/
def MIL_EQ_freeze (i : Nat) : Fld := ⟨0x1d120 + 0x1000 * i, 0, 1⟩
/-! DEV_REPLAY (17_recovery.md). -/
def DEV_REPLAY_path_replays : Fld := ⟨0x14c, 0, 16⟩
def DEV_REPLAY_path_failures : Fld := ⟨0x14c, 16, 8⟩
def DEV_REPLAY_response_reissues : Fld := ⟨0x14c, 24, 8⟩

end Sys2Proof.Machine
end

