-- ==== Sys2Proof/Machine/State.lean ====
section
/-! DEFINITION. The state of the KM7 as plain data: every register, memory, buffer, counter, mode and pin the spec gives
the module, the queue of commands that wait, what the module has sent, and the machine right after reset. Registers
and memories are sparse tables: an unlisted key reads as its reset value. -/

namespace Sys2Proof.Machine

/-- Why a command has no next state: it names an instance the module does not have. -/
inductive Fault where
  /-- Raised by every meaning whose operand names a page, lane, port, queue, ring, slot or domain that the spec does
  not give the module (R57, R72, R127, R247, R256): no such command can reach the block. Safe. -/
  | noSuchInstance
  deriving DecidableEq, Repr

/-- Why the model has no meaning for a command. -/
inductive Refusal where
  /-- Raised by the dispatch for a command whose meaning is not written yet. Safe. -/
  | notModelled (mnemonic : String)
  deriving DecidableEq, Repr

/-! ### Power, pins and life (02_module, 03_first_second) -/

/-- Where the module stands in its life: unpowered or below the undervoltage threshold (R36), held by MOD_RST_N
(R42), running its start-up or its service (R58), or stopped by thermal shutdown (R41). -/
inductive Life where
  | off | heldInReset | running | thermalStop
  deriving DecidableEq, Repr

/-- What the next start follows (R58, RST_CAUSE). -/
inductive Cause where
  | powerOn | modRst | thermal | supply
  deriving DecidableEq, Repr

/-- The pins the spec gives the module (R39, R41): blade voltages in millivolts, the input levels, and the open-drain
outputs as asserted or not. The keeper drives are FAB_KEEP.hold_x and hold_y. -/
structure Pins where
  bladeA : Nat := 48000
  bladeB : Nat := 48000
  modRstN : Bool := true
  perstN : Bool := true
  sysRef : Bool := true
  netRef : Bool := true
  faultN : Bool := false
  thermWarn : Bool := false
  riseWarn : Bool := false
  smbAlert : Bool := false
  deriving DecidableEq, Repr

/-! ### Outputs: what the block sends, oldest first -/

/-- The configuration space of the function as far as the spec gives it (R82): the sizes of its BARs by number. -/
structure ConfigSpace where
  vendor : Nat
  device : Nat
  revision : Nat
  classCode : Nat
  bars : List (Nat × Nat)
  serial : Nat
  deriving DecidableEq, Repr

/-- The completion of a PCIe request (R62, R83). -/
inductive PcieCpl where
  | data (bytes : List Byte)
  | completerAbort
  | unsupportedRequest
  | retryStatus
  | configOk (bootFailed : Bool) (space : ConfigSpace)
  deriving DecidableEq, Repr

/-- An event record (R86): severity, raising page, code, sequence number, time and payload in the catalogue's order. -/
structure EventRec where
  sev : Nat
  page : Nat
  code : Nat
  seq : Nat
  time : Nat
  payload : List Nat
  deriving DecidableEq, Repr

/-! ### Host interface and events (04_registers_host) -/

/-- What an event ring holds beside its registers: the dropped episode of R91 and the records written and not yet
signalled of R93. -/
structure RingSt where
  dropping : Bool := false
  dropFirst : Nat := 0
  dropLast : Nat := 0
  dropCount : Nat := 0
  unsignalled : Nat := 0
  deriving DecidableEq, Repr

/-- The event system: the holding log of R63 with the place of its overflow record, and the rings' hidden state. -/
structure EvSt where
  hold : List EventRec := []
  lost : Nat := 0
  rings : Table RingSt := []
  deriving DecidableEq, Repr

/-- The host interface beside its registers: a function-level reset in progress (R59), whether the link has trained
(R62), D3hot (R82), the MSI-X table and pending bits of BAR4 (R84), the DOE object in transfer (R85), the PLDM thresholds
(R49). -/
structure HostSt where
  flr : Bool := false
  d3hot : Bool := false
  linkUp : Bool := false
  linkUpAt : Nat := 0
  gen : Nat := 0
  width : Nat := 0
  flitMode : Bool := false
  msix : Table Word := []
  msixPending : List Nat := []
  doe : Option (Nat × List Byte) := none
  thresholds : Table Int := []
  deriving DecidableEq, Repr

/-! ### Commands and lap counters (05_commands) -/

/-- How far a command has come (R99, R110, R118): issued, placed on its lanes (R111), running in its unit, ended with
a status, its remote signal sent, its remote signal answered. -/
inductive Stage where
  | issued | placed | running | ended | signalling | signalled
  deriving DecidableEq, Repr

/-- A wait of a command (R115, R116): not yet asked, its remote watch sent, busy and to be repeated, or latched. -/
inductive WaitSt where
  | idle | asked | busy | latched
  deriving DecidableEq, Repr

/-- One lane's part of a command that runs on several (R109): done with a status and a detail, or not yet. -/
structure PartSt where
  lane : Nat
  done : Bool := false
  status : Nat := 0
  detail : Nat := 0
  deriving DecidableEq, Repr

/-- How far a product of the arrays has come (R134-R144): the shifts its operands' headers gave, the output tiles run, the
stationary-load slots, the bubbles and the flags of its result bytes, and the largest magnitude it drained. -/
structure ProductSt where
  shA : Int := 0
  shB : Int := 0
  tiles : List Nat := []
  loads : Nat := 0
  bubbles : Nat := 0
  replayed : Bool := false
  ovf : Bool := false
  amax : Word := 0
  deriving DecidableEq, Repr

/-- A command table entry (R103): the command, its place in its queue, and how far it has come. progress holds the flags
of a vector program's or a copy's result; arrays are the arrays a product uses, whose tags it clears if it fails (R136);
chunks are the lanes and landing chunks a fused product has consumed. -/
structure CmdEntry where
  q : Nat
  idx : Nat
  bytes : List Byte
  stage : Stage := .issued
  wait0 : WaitSt := .idle
  wait1 : WaitSt := .idle
  status : Nat := 0
  detail : Nat := 0
  result : List Byte := []
  endTime : Nat := 0
  parts : List PartSt := []
  progress : Nat := 0
  chunks : List (Nat × Nat) := []
  arrays : List (Nat × Bool) := []
  prod : ProductSt := {}
  dest : List (Nat × Nat) := []
  /-- The table slot and generation an encode command holds a reference on (R249). -/
  held : Option (Nat × Nat) := none
  /-- The operand block as read at dispatch, of a command that is checked there and runs later. -/
  opnd : List Byte := []
  deriving DecidableEq, Repr

/-- The command processor: its table in the order of issue, the HURDLE in progress (queue and index) until it has retired,
the time of its dispatch, whether its step 5 has changed the epoch, and the dispatch slots each queue has had of the present
round of its priority (R102). -/
structure CmdSt where
  table : List CmdEntry := []
  hurdle : Option (Nat × Nat) := none
  hurdleAt : Nat := 0
  hurdlePassed : Bool := false
  rounds : Table Nat := []
  deriving DecidableEq, Repr

/-- A partner's watch the lap unit holds (R116): the request, its counter and its threshold. -/
structure Watch where
  pkt : Packet
  counter : Nat
  value : Nat
  deriving DecidableEq, Repr

/-- The lap unit: the counters (R114), those held failed (R391), and the held watches. -/
structure LapSt where
  vals : Table Dword := []
  held : List Nat := []
  watches : List Watch := []
  deriving DecidableEq, Repr

/-! ### Lanes (06_lanes, 08_vector) -/

/-- What a vector program waits for (R199-R201): nothing, room in the transaction table, a remote answer with its
destination, the completion of everything before a fence, or a hurdle's step 5. -/
structure VecPend where
  txn : Nat
  pc : Nat
  /-- 0 a vector register, 1 a scalar register, 2 a write. -/
  kind : Nat
  reg : Nat
  mask : Nat
  deriving DecidableEq, Repr

/-- One lane (R127, R136, R188, R207): the fence, the commands dispatched to it (R111), accumulator storage and its
tags by array, the vector unit's registers, program memory and the running program. -/
structure LaneSt where
  queue : List (Nat × Nat) := []
  fenced : Bool := false
  resetting : Bool := false
  acc : Table Word := []            -- (array × 1024 + row) × 128 + column
  tagL : Option (List Nat) := none
  tagR : Option (List Nat) := none
  shelf : Table Byte := []
  leftOn : Bool := false
  rightOn : Bool := false
  droop : Bool := false
  v : Table Word := []              -- register × 64 + element
  s : Table Dword := []
  p : Table Dword := []
  prog : List Dword := []
  resident : Option (Nat × Nat × Nat) := none
  pc : Nat := 0
  sticky : Nat := 0
  vecRun : Option (Nat × Nat) := none
  pos : Nat := 0
  exitCode : Nat := 0
  retired : Nat := 0
  count : Nat := 0
  slots : Nat := 0
  step : Nat := 0
  outAddr : Nat := 0
  loaded : Bool := false
  replayed : Bool := false
  /-- A fault met while remote instructions are outstanding: the status, the detail and the word (R208). -/
  vecFault : Option (Nat × Nat × Nat) := none
  pend : List VecPend := []
  deriving DecidableEq, Repr

/-! ### Scale and format unit (07_numerics) -/

/-- A scale-and-format slot record (R173). -/
structure SlotRec where
  hist : List Word := List.replicate 16 0
  curMax : Word := 0
  step : Nat := 0
  shift : Int := 0
  count : Nat := 0
  used : Bool := false
  shiftSet : Bool := false
  satStep : Bool := false
  satPending : Bool := false
  ovf0 : Bool := false
  ovf1 : Bool := false
  satCount : Nat := 0
  tensor : Nat := 0
  deriving DecidableEq, Repr

/-- A slot record that waits to be written (R173, and an IMPORT's): its words by place, the commands issued before it,
whether the slot window made it, and the command whose own use does not hold it. -/
structure SlotWait where
  slot : Nat
  words : Table Word
  before : List (Nat × Nat)
  window : Bool
  own : Option (Nat × Nat)
  deriving DecidableEq, Repr

/-- The scale and format unit: the slots (R168), the staged window words (R173), and the records that wait. -/
structure NumSt where
  slots : Table SlotRec := []
  staged : Table Word := []
  waiting : List SlotWait := []
  deriving DecidableEq, Repr

/-! ### Attic and cellar (09_memory) -/

/-- Memory: the bytes of the attic and of the cellar by local address (R213), the 64-byte lines damaged at rest (R218,
R227), the cellar's initialised 2 KiB regions (R226), the repair candidates of this start by package as channel, bank
and row (R230), the temperature and drift of each package since its last correction (R224). rereads counts the words whose
re-read passed, from which a command's replayed flag is formed (R209, R235). -/
structure MemSt where
  cells : List Host.Cell := []
  damaged : List Nat := []
  regions : Table Bool := []
  allInit : Bool := false
  /-- The device time at which cellar_ready was set (R236). -/
  readyAt : Nat := 0
  rereads : Nat := 0
  /-- The calibration words the cellar was trained from (R385). -/
  seeds : Table Word := []
  deriving DecidableEq, Repr

/-! ### Cabouz tables (10_cabouz) -/

/-- A table slot (R247): two banks of 256 code lengths, the state, the current bank, the generations and the references
held on each bank. -/
structure CbzSlot where
  bank0 : Table Nat := []
  bank1 : Table Nat := []
  state : Nat := 0
  cur : Bool := false               -- which bank is current (or was last)
  curGen : Nat := 0
  oldGen : Nat := 0
  curRefs : Nat := 0
  oldRefs : Nat := 0
  deriving DecidableEq, Repr

/-! ### Fuses -/

/-- A signature that verifies under FIPS 204 with an empty context string: its algorithm (44 or 65), public key, message and
bytes. -/
structure Vouch where
  alg : Nat
  key : List Byte
  msg : List Byte
  sig : List Byte
  deriving DecidableEq, Repr

/-- The fuses (R44, R82, R127, R154, R364, R366, R400): the factory words fuse loading copies into registers by BAR0
offset, the physical lane of each logical lane (its own number where not listed), the good physical lanes left spare,
whether the one field substitution is burned and the logical lane it serves, the map as loaded at this start, the lanes
whose repair waits for the supply, the key-hash slots, the revoked slots, the anti-rollback counter, the debug slot, the
serial number and the strongroom's seed. -/
structure FuseSt where
  words : Table Word := []
  physLane : Table Nat := []
  spares : List Nat := []
  subUsed : Bool := false
  subLanes : List Nat := []
  loadedLane : Table Nat := []
  loadedSub : List Nat := []
  burnDue : List Nat := []
  /-- The confirmed bank whose burn waits (R372). -/
  confirmDue : Option Bool := none
  keyHash : List (List Byte) := []
  revoked : Nat := 0
  counter : Nat := 0
  debugHash : List Byte := []
  serial : Nat := 0
  seed : List Byte := []
  /-- The model's own: which signatures verify. FIPS 204 fixes them, no step changes them, and a claim holds for every list
  (log entry 101). -/
  vouched : List Vouch := []
  deriving DecidableEq, Repr



/-! ### Stadium fabric (11_stadium_fabric, 03_first_second) -/

/-- What one of the KM7's own requests is for, so that its answer reaches its requester: a command's remote signal
(R118), a command's wait 0 or 1 (R116), a remote instruction of a lane's program by its command (R200), a BAR2 access (R83),
a collective's or an update's transfer by queue and index, a chunk write of the collective engine, an insert forward or an
insert request of an axis (R275). -/
inductive TxnFor where
  | signal (q idx : Nat)
  | wait (q idx w : Nat)
  | vec (lane q idx : Nat)
  | bar2Read (off skip size : Nat)
  | bar2Write (off : Nat)
  | command (q idx : Nat)
  | chunk (q idx : Nat)
  | insertForward (axisY : Bool)
  | insertRequest (requester tag : Nat) (plus : Bool)
  deriving DecidableEq, Repr

/-- An entry of the fabric transaction table (R268): the request as issued, how often it was reissued, whether a reroute
still holds it back (R272), whether it was reissued for a damaged response (R393), whether its latest answer was route
down (R272) and its requester. -/
structure Txn where
  pkt : Packet
  reissues : Nat := 0
  held : Bool := false
  damagedOnce : Bool := false
  down : Bool := false
  who : TxnFor
  deriving DecidableEq, Repr

/-- How a port stands in training (R66, R67): waiting in the queue, knocking on an engine, training, backing off, left
dark or not trained at all, or up. -/
inductive Train where
  | idle | queued | knocking | training | backoff | leftDark | trained
  deriving DecidableEq, Repr

/-- A spare-lane swap in progress (R258): none, requested by this end, asked by the far end, draining with both ends
agreed, or training the spare. -/
inductive Swap where
  | none | requested (lane : Nat) | draining (lane : Nat) | training (lane : Nat)
  deriving DecidableEq, Repr

/-- A stadium port beside its registers (R256-R264): link sequence numbers and the naking flag, the replay buffer and
the replays without progress, flits that wait for credit, the flits sent into and freed from each buffer (vc x 2 +
class), the partial packets by channel, training, swap and drain state, and the arbiter's bucket, deficits and turn. -/
structure PortSt where
  txSeq : Nat := 0
  expected : Nat := 0
  naking : Bool := false
  replay : List Flit := []
  replayRun : Nat := 0
  replayFrom : Option Nat := none
  txq : List Flit := []
  sent : Table Nat := []
  peerFreed : Table Nat := []
  freed : Table Nat := []
  partials : Table (List Byte) := []
  train : Train := .idle
  knocks : Nat := 0
  backoffs : Nat := 0
  waitUs : Nat := 0
  far : Nat := 0
  falseStarts : Nat := 0
  swap : Swap := .none
  /-- A swap request this end withdrew for the far end's: its lane, and whether the lane has lost lock (R258). -/
  swapNext : Option (Nat × Bool) := none
  swapLock : Bool := false
  identitySeen : Bool := false
  drainFor : Nat := 0               -- 0 none, 1 a neighbour's insertion, 2 own release, 3 a neighbour's release
  bucket : Nat := 0
  deficits : Table Int := []
  turn : Nat := 1
  midPacket : Bool := false
  changed : List Nat := []
  resetBusy : Bool := false
  /-- Corrected symbols by active lane (R259). -/
  laneCorrected : Table Nat := []
  /-- The receiver's place in the codeword that comes in, in bits, and whether that codeword cannot be corrected (R259). -/
  rxBits : Nat := 0
  badWord : Bool := false
  deriving DecidableEq, Repr

/-- An atomic's stored result (R269). -/
structure AtomicResult where
  src : Nat
  vc : Nat
  seq : Nat
  value : Nat
  deriving DecidableEq, Repr

/-- An insertion on one axis (R275): the answers awaited of its two neighbours. -/
structure InsertSt where
  asked : Bool := false
  minusReady : Bool := false
  plusReady : Bool := false
  handshake : Bool := false
  linkMinus : Bool := false
  linkPlus : Bool := false
  /-- Milliseconds of the keeper drive's last level change, and a change that waits for the 10 ms hold (R52). -/
  levelHeld : Bool := true
  wanted : Option Bool := none
  startedAt : Nat := 0
  reported : Bool := false
  /-- The neighbours that did not answer: 1 −, 2 +, 3 both (R275, step 7). -/
  missed : Nat := 0
  deriving DecidableEq, Repr

/-- A heat-mate's service of an insert forward (R275, step 2): the request, and the answers of its two neighbours. -/
structure ForwardSt where
  pkt : Packet
  minusDone : Bool
  plusDone : Bool
  minusReady : Bool := false
  plusReady : Bool := false
  deriving DecidableEq, Repr

/-- A packet that stands whole in a port's receive buffer: the port, its class, its flits, and the packet (R263). -/
structure Held where
  port : Nat
  cls : Nat
  flits : Nat
  pkt : Packet
  deriving DecidableEq, Repr

/-- The fabric (R256-R275): the ports, the transaction table with the tags a loss has set aside until a time, the next
chan_seq by destination and channel and the expected one by source and channel, early arrivals, the packets whole in the
receive buffers, atomic results, the
destinations on their alternate descriptor, unreachable or being rerouted (with the trigger), the stadium image in
force (its extents and origin, the absence mask and reserve_for of each heat, the role entries), the destinations whose entry has failed
parity, the insertions and the forwards served. -/
structure FabSt where
  ports : Table PortSt := []
  queue : List Nat := []
  txns : List Txn := []
  deadTags : List (Nat × Nat) := []
  outSeq : Table Nat := []
  inSeq : Table Nat := []
  early : List (Packet × Meet) := []
  inbox : List Held := []
  results : List AtomicResult := []
  onAlt : List Nat := []
  lostDest : List Nat := []
  rerouting : List (Nat × Nat) := []
  extX : Nat := 1
  extY : Nat := 1
  orgX : Nat := 0
  orgY : Nat := 0
  absent : Table Nat := []
  reserveFor : Table Nat := []
  roles : Table Word := []
  badRoutes : List Nat := []
  badRoles : List Nat := []
  insertX : InsertSt := {}
  insertY : InsertSt := {}
  forwards : List ForwardSt := []
  /-- Insert requests that wait for a facing port to drain (R275, step 3). -/
  draining : List (Nat × Packet) := []
  deriving DecidableEq, Repr

/-- The addresses of a Milant frame: destination, source and the identifier of its VLAN tag, if it carries one (R327, R328).
-/
structure Addressing where
  dst : Nat
  src : Nat
  vlan : Option Nat := none
  deriving DecidableEq, Repr

/-- What the module sends. -/
inductive Output where
  /-- A write to host memory. -/
  | hostWrite (addr : Nat) (bytes : List Byte)
  /-- Bytes 4 to 31 of an event record, at their address in host memory (R86, R88), and the record they spell. -/
  | eventBody (addr : Nat) (bytes : List Byte) (rec : EventRec)
  /-- Bytes 0 to 3 of an event record, phase included, written after the body (R86, R88). -/
  | eventPhase (addr : Nat) (bytes : List Byte) (rec : EventRec)
  /-- An MSI-X message and its table entry's words (R84). -/
  | msix (vector : Nat) (entry : List Word)
  /-- The completion of a PCIe request. -/
  | pcie (c : PcieCpl)
  /-- A flit on a port (R260). -/
  | flit (port : Nat) (f : Flit)
  /-- A Milant frame (R327, R334): its port, addresses, association, packet number, parcel and its bytes from SecTAG through
  ICV. -/
  | milFrame (port : Nat) (dest : Addressing) (an pn : Nat) (p : Parcel) (span : List Byte)
  /-- A repair frame on a Milant port (R332). -/
  | repair (port : Nat) (dest : Addressing) (r : Repair)
  /-- A PTP message on a Milant port (R341): its addresses, association, packet number and domainNumber. -/
  | ptp (port : Nat) (dest : Addressing) (an pn domain : Nat) (m : PtpMsg)
  /-- A parcel handed to a device of the stadium on a channel (R345, R346, R351). -/
  | handover (vc dev : Nat) (p : Parcel)
  /-- A data object the DOE mailbox answers with on a protocol (R85). -/
  | doe (protocol : Nat) (response : List Byte)
  /-- An error response, or an abort, of the DOE mailbox. -/
  | doeError (protocol : Nat)
  | doeAborted
  /-- An answer over SMBus (R48, R49): the address, the sensor and its value. -/
  | smbus (addr sensor : Nat) (value : Int)
  /-- TDO after a falling edge of TCK (R50). -/
  | tdo (v : Bool)
  /-- An ordered set of link training on a port (R66): 0 knock, 1 ready, 2 false start. -/
  | orderedSet (port kind : Nat)
  deriving DecidableEq, Repr


/-! ### Flash (15_steward_security R364, R365; 16_pacers R386; 09_memory R230) -/

/-- What a boot record holds beside its crc (R365). -/
structure BootRec where
  seq : Nat := 0
  active : Bool := false
  pending : Option Bool := none
  trial : Bool := false
  failedA : Bool := false
  failedB : Bool := false
  deriving DecidableEq, Repr

/-- One of the two copies of the boot record in flash (R364, R365). -/
structure BootCopy where
  record : BootRec := {}
  crc : Nat := 0
  deriving DecidableEq, Repr

/-- The flash (R364): the two copies of the boot record, the banks' bytes from offset 0 (erased past the list's end), the staged update's
manifest and pieces by index (R369, R370), the profile records of slots 0 to 2 (R386), and the logs: repair candidates
by package, channel and row with the repairs made (R230), and the logical lanes that stay fenced at every start (R13, R400). -/
structure FlashSt where
  bootA : BootCopy := { crc := 0x4824b22 }
  bootB : BootCopy := { crc := 0xFFFFFFFF }
  bankA : List Byte := []
  bankB : List Byte := []
  manifest : List Byte := []
  pieces : Table (List Byte) := []
  /-- The update journal: 0 nothing applied, 1 in application, 2 failed, 3 built and pending. -/
  journal : Nat := 0
  profiles : Table (List Byte) := []
  repairs : List (Nat × Nat × Nat) := []
  repaired : List (Nat × Nat × Nat) := []
  fencedLanes : List Nat := []
  /-- The factory area's endorsement signature and copy of the fuse map (R364, R378). -/
  endorsement : List Byte := []
  fuseMap : Table Word := []
  /-- The logs' watchdog history and crash records: the watchdog and when (R364). -/
  watchdogs : List (Nat × Nat) := []
  crashes : List (Nat × Nat) := []
  /-- A trial's watchdog expired before the Steward was ready: the next start is a fallback (R367). -/
  lapsed : Bool := false
  deriving DecidableEq, Repr

/-! ### Steward, strongroom and JTAG (15_steward_security, 02_module R50) -/

/-- The states of the IEEE 1149.1 test access port. -/
inductive Tap where
  | testLogicReset | runTestIdle | selectDr | captureDr | shiftDr | exit1Dr | pauseDr | exit2Dr | updateDr
  | selectIr | captureIr | shiftIr | exit1Ir | pauseIr | exit2Ir | updateIr
  deriving DecidableEq, Repr

/-- The JTAG port (R50): its state, the instruction and data shift registers, the output latch over the 31 low-speed
positions H1 to H30 and E65, and the instruction in force. -/
structure JtagSt where
  tap : Tap := .testLogicReset
  ir : List Bool := []
  dr : List Bool := []
  latch : List Bool := []
  ins : Nat := 15
  /-- What was last shifted into the IEEE 1687 network. -/
  instruments : List Bool := []
  deriving DecidableEq, Repr

/-- The Steward and the strongroom beside their registers (R362-R377): a restart in progress, the times of the latest
watchdog expiries and the start of the restart, the update in application, the key-encryption key and how often it was set, the challenge last issued, and the measurements of the booted bank. -/
structure StwSt where
  restarting : Bool := false
  expiries : List Nat := []
  downAt : Nat := 0
  applying : Bool := false
  kek : Option (List Byte) := none
  kekCount : Nat := 0
  challenge : Option (List Byte) := none
  booted : Bool := false
  profileWrite : Option (Nat × List Byte × Nat) := none
  jtag : JtagSt := {}
  /-- The digests of the images loaded into the processors, by image type (R368, R376). -/
  loaded : Table (List Byte) := []
  deriving DecidableEq, Repr

/-! ### Pacers and profiles (16_pacers) -/

/-- The pacers and the profile in force beside their registers (R380-R386): the power samples of the last 10 ms, the
milliseconds below 97% of the cap, the thermal samples and milliseconds of the loop, the milliseconds each die has been
at v_max below its target, the consecutive milliseconds of a hot coolant rise, the packages reporting a high
temperature, the sensor readings (R49), the enabled ports, the keeper permissions and the event defaults of the
profile. -/
structure PacSt where
  power : List Nat := []
  capBelow : Nat := 0
  hotSamples : Nat := 0
  coolSamples : Nat := 0
  throttled : Nat := 0
  atMax : Table Nat := []
  celHot : List Nat := []
  mAmpA : Nat := 0
  mAmpB : Nat := 0
  inlet : Int := 0
  outlet : Int := 0
  hottest : Int := 0
  extents : Nat := 0
  ports : Nat := 0
  milPorts : Nat := 0
  allowX : Bool := false
  allowY : Bool := false
  evqSev : Nat := 0xFF
  evqHoldoff : Nat := 0
  evqThreshold : Nat := 1
  /-- Droop-stretched slots of a die short of the next 1,024. -/
  stretch : Table Nat := []
  /-- The receive taps a port holds (R384), stadium ports 0 to 19 and Milant ports 20 and 21: the number of the adaptation or
  training they are from. The spec gives the taps themselves no value. -/
  taps : Table Nat := []
  deriving DecidableEq, Repr


/-! ### Collective engine (12_collectives) -/

/-- A landing (R291, R292): its state, the gather's dst_addr, land_pitch, the columns of a share and of a chunk, the
chunks of a share and of the landing, the usable chunks, and the retired products that consumed chunks (lane, cmd_id,
chunk). -/
structure Landing where
  state : Nat := 0
  addr : Nat := 0
  pitch : Nat := 0
  colsPerShare : Nat := 0
  colsPerChunk : Nat := 0
  cps : Nat := 0
  chunks : Nat := 0
  usable : List Nat := []
  used : List (Nat × Nat × Nat) := []
  deriving DecidableEq, Repr

/-- The operand block of a collective (R280). -/
structure CollOp where
  op : Nat
  src : Nat
  dst : Nat
  count : Nat
  ity : Nat
  oty : Nat
  red : Nat
  axis : Nat
  size : Nat
  chunkLog : Nat
  stats : Bool
  fold : Bool
  coded : Bool
  landing : Bool
  codec : Nat
  lnum : Nat
  slot : Nat
  root : Nat
  step : Nat
  aux : Nat
  auxAddr : Nat
  recvAddr : Nat
  deriving DecidableEq, Repr

/-- A contribution the owner has taken (R284, R294). -/
structure Contrib where
  pos : Nat
  bytes : List Byte
  ovf : Bool
  sqnorm : Word
  deriving DecidableEq, Repr

/-- What a member knows of one chunk (R286-R290): as owner the contributions, the deliveries of each that failed, the
formed bytes and their CRC, the receivers that acknowledged it and the deliveries that failed at each; as receiver
whether it has passed its check. settled is its confirmation; void its reason, 0 for none. -/
structure ChunkSt where
  contribs : List Contrib := []
  fails : Table Nat := []
  formed : Bool := false
  out : List Byte := []
  len : Nat := 0
  crc : Nat := 0
  ovf : Bool := false
  acks : List Nat := []
  naks : Table Nat := []
  got : Bool := false
  settled : Bool := false
  void : Nat := 0
  abandoned : Bool := false
  deriving DecidableEq, Repr

/-- A running collective (R277-R301): its command, block, group (the devices by position), this member's position, its
chunks by owner × 2^20 + index, the first void reason, the results it reports, the chunks answered LATER with the
position they go to, and the chunks whose contribution was not delivered (R118). -/
structure CollRun where
  q : Nat
  idx : Nat
  cmdId : Nat
  epoch : Nat
  o : CollOp
  me : Nat
  devs : List Nat
  k5 : Bool
  chunks : Table ChunkSt := []
  ovf : Bool := false
  replayed : Bool := false
  reason : Nat := 0
  dropped : Nat := 0
  dropDests : Nat := 0
  received : Table Nat := []
  laters : List (Nat × Nat) := []
  undelivered : List Nat := []
  deriving DecidableEq, Repr

/-- A VC1 packet that waits for room in the transaction table (R104): the command it is of, its destination and data. -/
structure ChunkOut where
  q : Nat
  idx : Nat
  dev : Nat
  data : List Byte
  deriving DecidableEq, Repr

/-- The collective engine beside its registers: the landings, the running commands, the held chunks with whether a word
of each failed in the receive buffer (R296, R393), the cmd_id,
step and epoch of the last 64 ended commands (R395), the packets to send, and the VC1 packets taken in and not yet part
of a chunk message (R281). -/
structure CollSt where
  landings : Table Landing := []
  running : List CollRun := []
  held : List (ChunkMsg × Bool) := []
  ended : List (Nat × Nat × Nat) := []
  outbox : List ChunkOut := []
  staged : List Packet := []
  deriving DecidableEq, Repr


/-! ### Update engine (13_training_state) -/

/-- What one shard of an update-class command came to (R324, R325): whether it still waits to be fetched, its status and
detail, whether it committed, the skip, grown and redo flags, the loss scale and update exponent of its record, the
non-finite count, the step taken, the refetched and newer flags, the mismatches, and the failed attempts of its fetch. -/
structure ShardOut where
  pend : Bool := false
  status : Nat := 0
  detail : Nat := 0
  committed : Bool := false
  skip : Bool := false
  grown : Bool := false
  redone : Bool := false
  loss : Nat := 0
  ue : Option Int := none
  nonfinite : Nat := 0
  step : Nat := 0
  refetched : Bool := false
  newer : Bool := false
  miss : Nat := 0
  tries : Nat := 0
  deriving DecidableEq, Repr

/-- A fetch or audit command that waits for owners (R316): its queue and index, and its shards in table order. -/
structure FetchRun where
  q : Nat
  idx : Nat
  outs : List ShardOut
  deriving DecidableEq, Repr

/-- A background audit (R317): the operand block of the command it follows, and what its shards have come to where a copy
waits for its owner. -/
structure BgAudit where
  block : List Byte
  outs : List ShardOut := []
  deriving DecidableEq, Repr

/-- The update engine beside its registers: the background audits to run (R317), the steps whose skip and whose growth have
been reported (R309), and the waiting fetches. -/
structure UpdSt where
  audits : List BgAudit := []
  skipSteps : List Nat := []
  grownSteps : List Nat := []
  runs : List FetchRun := []
  deriving DecidableEq, Repr


/-! ### Milant, time and keys (14_milant) -/

/-- An installed association (R335): its number, the number its key material spells, and for transmit the next packet
number, for receive the highest one accepted. -/
structure Assoc where
  an : Nat
  key : Nat
  pn : Nat
  deriving DecidableEq, Repr

/-- An erasure group at the receiver (R333): the header its repair frames share, the repair frames by j, and whether it is
resolved or abandoned. -/
structure GroupRx where
  an : Nat
  pnFirst : Nat
  n : Nat
  len : Nat
  entries : List (Nat × Nat)
  repairs : Table (List Byte) := []
  closed : Bool := false
  deriving DecidableEq, Repr

/-- A Milant port beside its registers: its associations and the live one, the packet-number exhaustion reported, the open
group's spans by packet number, the group number, the spans received of late (association, packet number, span), the
receive groups, the armed changes (AN, T, and for receive the grace), the old transmit association not yet erased, and
the receive associations in their grace. -/
structure MilPort where
  tx : List Assoc := []
  rx : List Assoc := []
  live : Option Nat := none
  exhausted : Bool := false
  group : List (Nat × List Byte) := []
  groupNo : Nat := 0
  recent : List (Nat × Nat × List Byte) := []
  groups : List GroupRx := []
  armTx : Option (Nat × Nat) := none
  armRx : Option (Nat × Nat × Nat) := none
  oldTx : Option Nat := none
  grace : List Nat := []
  deriving DecidableEq, Repr

/-- What names a stream (R22, R330): its number, the source's and destination's logical ranks or participants, and the
destination's building. -/
structure StreamKey where
  stream : Nat
  src : Nat
  dst : Nat
  bld : Nat
  deriving DecidableEq, Repr

/-- A message in reassembly: its first parcel's header, the parts held by offset, and the port it comes by. -/
structure MsgRx where
  head : Parcel
  parts : Table (List Byte)
  port : Nat
  deriving DecidableEq, Repr

/-- A stream at the receiver: when its first known message was first sent, the next msg_seq to deliver in order, the ones
withdrawn, and the ones delivered. -/
structure StreamRx where
  key : StreamKey
  began : Nat
  expected : Nat
  skipped : List Nat := []
  done : List Nat := []
  deriving DecidableEq, Repr

/-- A baton passed on and not yet stored at every member that needs it (R351): its message, the port it came by, its sender,
base, index and total, and the members (devices) and relay lines (8,192 + port or, past pass_dev, its device) still to store
it. -/
structure BatonWait where
  head : Parcel
  port : Nat
  participant : Nat
  base : Nat
  index : Nat
  total : Nat
  left : List Nat
  deriving DecidableEq, Repr

/-- A message sent and not acknowledged: its command, the header of its parcels, the bytes that precede its source, the
source's address and length, and whether it is acknowledged or given up. -/
structure MsgTx where
  q : Nat
  idx : Nat
  head : Parcel
  pre : List Byte
  src : Nat
  len : Nat
  acked : Bool := false
  dead : Bool := false
  deriving DecidableEq, Repr

/-- A BATON.SEND in flight: its operation, the parcels sent and re-sent, its ovf, and the overflow flag that a block with a
non-finite difference has set (R252), which no register or result byte shows. -/
structure MilRun where
  q : Nat
  idx : Nat
  op : Nat
  sent : Nat := 0
  resent : Nat := 0
  ovf : Bool := false
  overflow : Bool := false
  deriving DecidableEq, Repr

/-- A stored baton: its sender, index and total, its rectangle, and where it lies. One is told from another of the same sender
and index by its rectangle. -/
structure BatonAt where
  participant : Nat
  index : Nat
  total : Nat
  tensor : Nat
  row0 : Nat
  rows : Nat
  col0 : Nat
  cols : Nat
  addr : Nat
  len : Nat
  deriving DecidableEq, Repr

/-- A round slot of the baton cellar (R351): its base, the bytes used, its batons, the batons stored at every member that
needs them by participant and message number, the participants reported complete, its manifests by writer, address and
length, and how many batons this module has formed of the base (R350). -/
structure RoundSlot where
  formed : Nat := 0
  base : Option Nat := none
  used : Nat := 0
  batons : List BatonAt := []
  heard : List (Nat × Nat) := []
  complete : List Nat := []
  manifests : List (Nat × Nat × Nat) := []
  deriving DecidableEq, Repr

/-- The gateway: the ports, the Milant table in force as its bytes, the next msg_seq by stream, the streams and messages
received, the messages and commands in flight, the baton cellar, whether a base has been held yet, and the port that
carries the next parcel where two share a role. -/
structure MilSt where
  ports : Table MilPort := []
  table : List Byte := []
  nextSeq : List (StreamKey × Nat) := []
  streams : List StreamRx := []
  msgs : List MsgRx := []
  sends : List MsgTx := []
  runs : List MilRun := []
  slots : Table RoundSlot := []
  waits : List BatonWait := []
  /-- Messages whose parcels a port has handed on, with the offsets seen, while not acknowledged (R331). -/
  transit : List MsgRx := []
  /-- Duplicate parcels dropped (R330). -/
  duplicates : Nat := 0
  anyBase : Bool := false
  turn : Bool := false
  deriving DecidableEq, Repr

/-- The time servo (R342): the fraction of a nanosecond, the frequency and phase terms, the exchanges not yet chosen from
(round trip and offset, ps), the seconds armed for the next edge, the exchange in progress (its number and the times t1,
t2, t3 known so far), and the nanoseconds by which steps have moved the clock from its count since t = 0 (R70). -/
structure TimSt where
  frac : Nat := 0
  freq : Int := 0
  phase : Int := 0
  exch : List (Int × Int) := []
  armed : Option Nat := none
  seqOut : Nat := 0
  sync : Option (Nat × Nat) := none
  asked : Option (Nat × Nat × Nat × Nat) := none
  stepped : Int := 0
  /-- What the frequency and phase terms have removed and the count does not show yet, and the nanoseconds left of the interval
  that removes the phase (R342). -/
  slew : Int := 0
  phaseLeft : Nat := 0
  deriving DecidableEq, Repr

/-- The state of the block. -/
structure State where
  /-- The commands that wait, first in, first out. -/
  pending : List Instr := []
  /-- What the module has sent, oldest first. -/
  out : List Output := []
  /-- The model's own counter of free values. -/
  freeCtr : Nat := 0
  life : Life := .running
  cause : Cause := .powerOn
  pins : Pins := {}
  fuses : FuseSt := {}
  flash : FlashSt := {}
  regs : Table Word := [(0x140, 0x2000), (0x2100, 1)]
  ev : EvSt := {}
  host : HostSt := {}
  cmds : CmdSt := {}
  laps : LapSt := {}
  lanes : Table LaneSt := []
  num : NumSt := {}
  mem : MemSt := {}
  cbz : Table CbzSlot := []
  fab : FabSt := {}
  coll : CollSt := {}
  upd : UpdSt := {}
  mil : MilSt := {}
  tim : TimSt := {}
  stw : StwSt := {}
  pac : PacSt := {}
  /-- Thermal shutdown not yet followed by a restart, and whether MOD_RST_N was pulsed or power cycled since (R41). -/
  hot : Bool := false
  pulsed : Bool := false
  deviceTime : Nat := 0
  deriving DecidableEq, Repr

/-- The machine at t = 0 of a power-on start: both blades up, straps sampled as zeros, nothing loaded yet. -/
def State.reset : State := {}

end Sys2Proof.Machine
end

