-- ==== Sys2Proof/Machine/Table.lean ====
section
/-! DEFINITION. Reading and writing a sparse table: an unlisted key reads as its default, and writing the default
removes the entry, so that equal contents are equal lists. -/

namespace Sys2Proof.Machine

/-- The value of a key: the listed one, or the key's default. -/
def tget {α : Type} (d : Nat → α) : Table α → Nat → α
  | [], k => d k
  | (j, v) :: t, k => if j = k then v else tget d t k

/-- List a value under a key (the default is not told apart here). -/
def tput {α : Type} (k : Nat) (v : α) : Table α → Table α
  | [] => [(k, v)]
  | (j, w) :: t => if k < j then (k, v) :: (j, w) :: t else if k = j then (k, v) :: t else (j, w) :: tput k v t

/-- Take a key's entry out. -/
def tdel {α : Type} (k : Nat) : Table α → Table α
  | [] => []
  | (j, w) :: t => if j = k then t else (j, w) :: tdel k t

/-- Write a value: a default value is not listed. -/
def tset {α : Type} [DecidableEq α] (d : Nat → α) (t : Table α) (k : Nat) (v : α) : Table α :=
  if v = d k then tdel k t else tput k v t

/-- Every listed key is above a bound and the keys rise strictly. -/
def risingAbove {α : Type} : Nat → Table α → Bool
  | _, [] => true
  | b, (j, _) :: t => decide (b ≤ j) && risingAbove (j + 1) t

/-- The canonical form: keys strictly rising, no entry equal to its key's default. -/
def tableWf {α : Type} [DecidableEq α] (d : Nat → α) (t : Table α) : Bool :=
  risingAbove 0 t && t.all (fun p => decide (p.2 ≠ d p.1))

end Sys2Proof.Machine
end

