-- ==== Sys2Proof/Machine/Ops.lean ====
section
/-! DEFINITION. The named operations over registers, events, interrupts and outputs, which every meaning shares. -/

namespace Sys2Proof.Machine

/-! ### Registers -/

/-- The stored word of the register at a BAR0 offset. -/
def reg (s : State) (a : Nat) : Word := tget resetWord s.regs a

/-- Store a register word. -/
def setReg (s : State) (a : Nat) (w : Word) : State := { s with regs := tset resetWord s.regs a w }

/-- The value of a field. -/
def getF (s : State) (f : Fld) : Nat := bitsOf (reg s f.addr).toNat f.lo f.w

/-- Store a value in a field (cut to its width). -/
def setF (s : State) (f : Fld) (v : Nat) : State := setReg s f.addr (insertBits (reg s f.addr) f.lo f.w v)

/-- A one-bit field reads 1. -/
def isSet (s : State) (f : Fld) : Bool := getF s f == 1

/-- Add to a saturating count field. -/
def satF (s : State) (f : Fld) (k : Nat) : State := setF s f (satAdd f.w (getF s f) k)

/-- Return every register of the pages whose index passes a test to its reset word. -/
def resetPages (s : State) (p : Nat → Bool) : State :=
  { s with regs := s.regs.filter (fun e => !p (e.1 / 0x1000)) }

/-! ### Outputs and free values -/

/-- Send something. -/
def emit (s : State) (o : Output) : State := { s with out := s.out ++ [o] }

/-- Take n free bytes. -/
def freshBytes (s : State) (n : Nat) : List Byte × State :=
  ((List.range n).map (fun i => Config.freeByte (s.freeCtr + i)), { s with freeCtr := s.freeCtr + n })

/-- The 64-bit device time, or before time_valid the nanosecond count (R70, R86). -/
def timeNow (s : State) : Nat :=
  (if isSet s DEV_START_time_valid then s.deviceTime else ((s.deviceTime : Int) - s.tim.stepped).toNat) % 2 ^ 64

/-- Nanoseconds the clock has counted since t = 0, which no step of the servo moves: what spans of time are measured on. -/
def elapsed (s : State) : Nat := ((s.deviceTime : Int) - s.tim.stepped).toNat

/-! ### Page indices -/

def pgDEV : Nat := 0x000
def pgCLK : Nat := 0x001
def pgRST : Nat := 0x002
def pgPRF : Nat := 0x003
def pgSEC : Nat := 0x004
def pgSTW : Nat := 0x005
def pgFWU : Nat := 0x006
def pgHIF : Nat := 0x007
def pgEVQ : Nat := 0x008
def pgLAP : Nat := 0x009
def pgNUM : Nat := 0x00A
def pgCOL : Nat := 0x00B
def pgUPD : Nat := 0x00C
def pgFAB : Nat := 0x00D
def pgTIM : Nat := 0x00E
def pgKEY : Nat := 0x00F
def pgPAC (d : Nat) : Nat := 0x010 + d
def pgATT (d : Nat) : Nat := 0x014 + d
def pgCBZ : Nat := 0x018
def pgCbzTbl (n : Nat) : Nat := 0x019 + n
def pgMIL (n : Nat) : Nat := 0x01D + n
def pgCMD : Nat := 0x020
def pgCmdQ (q : Nat) : Nat := 0x040 + q
def pgCEL : Nat := 0x080
def pgCelPkg (n : Nat) : Nat := 0x081 + n
def pgPORT (n : Nat) : Nat := 0x0A0 + n
def pgRTE : Nat := 0x0C0
def pgLANE (n : Nat) : Nat := 0x200 + n

/-! ### Event rings (R86-R93) -/

/-- An event of the catalogue: its code and severity (R94, R95). -/
structure Ev where
  code : Nat
  sev : Nat
  deriving DecidableEq, Repr

/-- The hidden state of an event ring. -/
def ringSt (s : State) (n : Nat) : RingSt := tget (fun _ => {}) s.ev.rings n

/-- Store the hidden state of an event ring. -/
def setRingSt (s : State) (n : Nat) (r : RingSt) : State :=
  { s with ev := { s.ev with rings := tset (fun _ => {}) s.ev.rings n r } }

/-- A ring's size in records (R89). -/
def ringSize (s : State) (n : Nat) : Nat := 2 ^ (8 + getF s (EVQ_CFG_size_code n))

/-- The records in a ring not yet read: tail - head modulo 2^32 (R91). -/
def ringUsed (s : State) (n : Nat) : Nat :=
  (getF s (EVQ_TAIL_tail n) + 2 ^ 32 - getF s (EVQ_HEAD_head n)) % 2 ^ 32

/-- A ring is enabled. -/
def ringOn (s : State) (n : Nat) : Bool := isSet s (EVQ_CFG_enable n)

/-- The reset word of the MSI-X table (R84): vectors are masked and the other words are 0. The spec gives none (PRESUMED
from the PCIe Base Specification R82 names; log entry 83). -/
def msixReset (i : Nat) : Word := if i % 4 = 3 then 1 else 0

/-- A word of the MSI-X table (R84). -/
def msixWord (s : State) (i : Nat) : Word := tget msixReset s.host.msix i

/-- Send an MSI-X vector with its table entry, or hold it in the pending-bit array while the entry's mask bit is set
(R84). -/
def sendMsix (s : State) (v : Nat) : State :=
  if bitOf (msixWord s (4 * v + 3)).toNat 0 then
    { s with host := { s.host with msixPending := if s.host.msixPending.contains v then s.host.msixPending else s.host.msixPending ++ [v] } }
  else emit s (.msix v ((List.range 4).map (fun i => msixWord s (4 * v + i))))

/-- Store a word of the MSI-X table; a vector that is unmasked while its pending bit is set is sent (R84). -/
def storeMsix (s : State) (i : Nat) (w : Word) : State :=
  let s := { s with host := { s.host with msix := tset msixReset s.host.msix i w } }
  let v := i / 4
  if i % 4 = 3 ∧ !bitOf w.toNat 0 ∧ s.host.msixPending.contains v then
    sendMsix { s with host := { s.host with msixPending := s.host.msixPending.filter (· != v) } } v
  else s

/-- A word of the pending-bit array at BAR4 offset 0x2000 (R84). -/
def pendingWord (s : State) (i : Nat) : Word :=
  BitVec.ofNat 32 (((List.range 32).map (fun b => if s.host.msixPending.contains (32 * i + b) then 2 ^ b else 0)).foldl (· + ·) 0)

/-- Signal a ring whose records call for it: irq_en, and the threshold reached or no holdoff (R93). -/
def ringSignal (s : State) (n : Nat) : State :=
  let r := ringSt s n
  if isSet s (EVQ_CFG_irq_en n) && decide (r.unsignalled ≠ 0) &&
      (decide (max 1 (getF s (EVQ_MOD_threshold n)) ≤ r.unsignalled) || getF s (EVQ_MOD_holdoff n) == 0) then
    sendMsix (setRingSt s n { r with unsignalled := 0 }) (getF s (EVQ_CFG_vector n))
  else s

/-- Bytes 0 to 3 of an event record (R86). -/
def eventHead (rec : EventRec) (phase : Bool) : List Byte :=
  natLe 4 (rec.code % 2 ^ 16 + 2 ^ 16 * (rec.page % 2 ^ 12) + 2 ^ 28 * (rec.sev % 8) + 2 ^ 31 * b2n phase)

/-- Bytes 16 to 31 of an event record; an injected record's payload is zero (R76, R86). -/
def eventBytes16 (sev code : Nat) (payload : List Nat) : BitVec 128 := if sev = 7 then 0 else Config.eventPayload code payload

/-- Bytes 4 to 31 of an event record (R86). -/
def eventTail (rec : EventRec) : List Byte :=
  natLe 4 rec.seq ++ natLe 8 rec.time ++ natLe 16 (eventBytes16 rec.sev rec.code rec.payload).toNat

/-- Write a record into the next slot of a ring: bytes 4 to 31, then bytes 0 to 3 with the phase (R88). -/
def ringWrite (s : State) (n : Nat) (rec : EventRec) : State :=
  let tail := getF s (EVQ_TAIL_tail n)
  let size := ringSize s n
  let base := (getF s (EVQ_BASE_HI_base_hi n)) * 2 ^ 32 + getF s (EVQ_BASE_LO_base_lo n) * 2 ^ 12
  let addr := base + 32 * (tail % size)
  let s := emit s (.eventBody (addr + 4) (eventTail rec) rec)
  let s := emit s (.eventPhase addr (eventHead rec (tail / size % 2 == 0)) rec)
  let s := setF s (EVQ_TAIL_tail n) ((tail + 1) % 2 ^ 32)
  let s := setF s (EVQ_STAT_full n) (b2n (ringUsed s n == size))
  let r := ringSt s n
  ringSignal (setRingSt s n { r with unsignalled := r.unsignalled + 1 }) n

/-- Take the next sequence number (R87). -/
def takeSeq (s : State) : Nat × State :=
  (getF s EVQ_SEQ_next_seq, setF s EVQ_SEQ_next_seq ((getF s EVQ_SEQ_next_seq + 1) % 2 ^ 32))

/-- Set the BLK_EVENT bit of an occurrence and count it (R76). -/
def markEvent (s : State) (page code : Nat) : State :=
  let b := code % 1024 % 32
  let s := setReg s (page * 0x1000 + 0x010) (reg s (page * 0x1000 + 0x010) ||| BitVec.ofNat 32 (2 ^ b))
  satF s (BLK_EVENT_COUNT_count page) 1

/-- A marker of a ring itself, written whatever the masks and the enables are (R91). -/
def ringMarker (s : State) (n : Nat) (e : Ev) (payload : List Nat) : State :=
  let s := markEvent s pgEVQ e.code
  let (seq, s) := takeSeq s
  ringWrite s n ⟨e.sev, pgEVQ, e.code, seq, timeNow s, payload⟩

def evRingFull : Ev := ⟨0x2801, 2⟩
def evRingResumed : Ev := ⟨0x2802, 2⟩

/-- Drop a record at a full ring (R91). -/
def ringDrop (s : State) (n : Nat) (rec : EventRec) : State :=
  let r := ringSt s n
  let r := if r.dropping then { r with dropLast := rec.seq, dropCount := r.dropCount + 1 }
    else { r with dropping := true, dropFirst := rec.seq, dropLast := rec.seq, dropCount := 1 }
  satF (setRingSt s n r) (EVQ_STAT_dropped n) 1

/-- Give a record to a ring under R91. The marker of resumed takes the slot the host freed; where it was the only one, the
next record finds none and begins an episode of drops without a new evq.ring.full (log entry 85). -/
def ringPut (s : State) (n : Nat) (rec : EventRec) : State :=
  let free := ringSize s n - ringUsed s n
  if (ringSt s n).dropping || free == 0 then ringDrop s n rec
  else if free = 1 then ringMarker (ringDrop s n rec) n evRingFull [n, rec.seq]
  else ringWrite s n rec

/-- The ring a record goes to (R90): the lowest enabled ring whose masks accept it, else the lowest enabled ring. -/
def chooseRing (s : State) (sev page : Nat) : Option Nat :=
  let ty := match pageOf page with | some p => p.type | none => 0
  match (List.range 16).find? (fun n => ringOn s n && bitOf (getF s (EVQ_CFG_sev_mask n)) sev
      && bitOf (reg s (EVQ_SRCMASK_src_mask n).addr).toNat ty) with
  | some n => some n
  | none => (List.range 16).find? (ringOn s)

def evOverflow : Ev := ⟨0x0402, 2⟩

/-- Put a record into the holding log of R63: the first 255 are kept; the first loss raises dev.start.overflow, which
takes the last slot. -/
def holdPut (s : State) (rec : EventRec) : State :=
  if s.ev.lost = 0 ∧ s.ev.hold.length < 255 then { s with ev := { s.ev with hold := s.ev.hold ++ [rec] } }
  else if s.ev.lost = 0 then
    let s := { s with ev := { s.ev with lost := 1 } }
    let s := markEvent s pgDEV evOverflow.code
    if bitOf (getF s (BLK_EVENT_EN_event_en pgDEV)) (evOverflow.code % 32) then
      let (seq, s) := takeSeq s
      { s with ev := { s.ev with hold := s.ev.hold ++ [⟨evOverflow.sev, pgDEV, evOverflow.code, seq, timeNow s, [1]⟩] } }
    else s
  else { s with ev := { s.ev with lost := s.ev.lost + 1 } }

/-- Write an event record (R86-R91). -/
def putRecord (s : State) (page code sev : Nat) (payload : List Nat) : State :=
  let (seq, s) := takeSeq s
  let rec' : EventRec := ⟨sev, page, code, seq, timeNow s, payload⟩
  match chooseRing s sev page with
  | some n => ringPut s n rec'
  | none => holdPut s rec'

/-- The error log of a page (R76): BLK_ERR_CODE, the time and bytes 16 to 19 of the record, which are free as the places of
a payload's items are (log entry 82). -/
def logError (s : State) (page code sev : Nat) (payload : List Nat) : State :=
  let s := setF s (BLK_ERR_CODE_code page) code
  let s := setF s (BLK_ERR_CODE_severity page) sev
  let s := setF s (BLK_ERR_CODE_valid page) 1
  let s := setF s (BLK_ERR_TIME_LO_time page) (timeNow s)
  let s := setF s (BLK_ERR_TIME_HI_time page) (timeNow s / 2 ^ 32)
  setF s (BLK_ERR_INFO_info page) (eventBytes16 sev code payload).toNat

/-- An occurrence of a block event on a page (R76): bit, count, error log, record. -/
def raiseEv (s : State) (page : Nat) (e : Ev) (payload : List Nat) : State :=
  let s := markEvent s page e.code
  let s := if 3 ≤ e.sev then logError s page e.code e.sev payload else s
  if bitOf (getF s (BLK_EVENT_EN_event_en page)) (e.code % 1024 % 32) then putRecord s page e.code e.sev payload
  else s

/-! ### Receive taps (R384) -/

/-- The taps of a port, by the adaptation they are from: stadium port n, or Milant port n - 20. -/
def tapsOf (s : State) (n : Nat) : Nat := tget (fun _ => 0) s.pac.taps n

/-- The port trains or adapts: its taps are new. -/
def freshTaps (s : State) (n : Nat) : State :=
  { s with pac := { s.pac with taps := tset (fun _ => 0) s.pac.taps n (tapsOf s n + 1) } }

/-! ### Data-path stages (R392) -/

def evPathFailed : Ev := ⟨0x0407, 3⟩

/-- A word lost on a data-path stage of a page (R392): the cmd_id, or the device that asks. -/
def pathFailed (s : State) (page who : Nat) (origin : Bool) : State :=
  raiseEv (satF s DEV_REPLAY_path_failures 1) pgDEV evPathFailed [page, who, if origin then 2 else 1]

/-- A word replayed on a data-path stage (R392): it changes when a result appears, never its bits. -/
def pathReplayed (s : State) : State := satF s DEV_REPLAY_path_replays 1

/-- What the stages of a page lose while an operation moves its words (R392); false where the operation ends. -/
def stageWords (s : State) (page who : Nat) (g : Stages) : State × Bool :=
  let s := if g.replays = 0 then s else satF s DEV_REPLAY_path_replays g.replays
  match g.lost with
  | none => (s, true)
  | some origin => (pathFailed s page who origin, false)

/-! ### The catalogue (R95, R126, R155, R187, R212, R236, R255; the later chapters' events stand beside their use) -/

def evFabricReady : Ev := ⟨0x0401, 0⟩
def evCoolantRise : Ev := ⟨0x0403, 2⟩
def evSupplyLow : Ev := ⟨0x0404, 2⟩
def evStrapInvalid : Ev := ⟨0x0405, 4⟩
def evArithMismatch : Ev := ⟨0x0406, 3⟩
def evClkUnlock : Ev := ⟨0x0801, 4⟩
def evProfileBad : Ev := ⟨0x1401, 4⟩
def evBar2Early : Ev := ⟨0x2401, 2⟩
def evBar0Unmapped : Ev := ⟨0x2402, 2⟩
def evAccessSize : Ev := ⟨0x2403, 2⟩
def evBar2Unmapped : Ev := ⟨0x2404, 2⟩
def evBar2Parity : Ev := ⟨0x2405, 3⟩
def evLaneResetDone : Ev := ⟨0x3401, 1⟩
def evLaneFenced : Ev := ⟨0x3402, 4⟩
def evReductionVoid : Ev := ⟨0x4801, 3⟩
def evReplayExhausted : Ev := ⟨0x5001, 4⟩
def evTrainFailed : Ev := ⟨0x5401, 3⟩
def evPortResetDone : Ev := ⟨0x5402, 1⟩
def evTimeValid : Ev := ⟨0x6001, 0⟩
def evCommandFailed : Ev := ⟨0x2C01, 3⟩
def evDoorbellBad : Ev := ⟨0x2C02, 2⟩
def evQueueFault : Ev := ⟨0x2C03, 4⟩
def evHurdleDone : Ev := ⟨0x2C04, 1⟩
def evLapSaturated : Ev := ⟨0x3001, 2⟩
def evWatchBusy : Ev := ⟨0x3002, 2⟩
def evParityReplayed : Ev := ⟨0x3403, 2⟩
def evParityFailed : Ev := ⟨0x3404, 3⟩
def evBistFailed : Ev := ⟨0x3405, 4⟩
def evRepairFused : Ev := ⟨0x3406, 1⟩
def evFusedVoid : Ev := ⟨0x3407, 3⟩
def evVectorFault : Ev := ⟨0x3408, 3⟩
def evVectorReplayed : Ev := ⟨0x3409, 2⟩
def evSlotSaturated : Ev := ⟨0x4001, 2⟩
def evInputNonfinite : Ev := ⟨0x4002, 2⟩
def evJobDeclared : Ev := ⟨0x4003, 1⟩
def evSelfMeasured : Ev := ⟨0x4004, 2⟩
def evAttReplayed : Ev := ⟨0x3801, 2⟩
def evAttFailed : Ev := ⟨0x3802, 4⟩
def evCelReplayed : Ev := ⟨0x3C01, 2⟩
def evCelFailed : Ev := ⟨0x3C02, 3⟩
def evCelInitDone : Ev := ⟨0x3C03, 0⟩
def evCelTrainFailed : Ev := ⟨0x3C04, 4⟩
def evPprApplied : Ev := ⟨0x3C05, 1⟩
def evPprExhausted : Ev := ⟨0x3C06, 2⟩
def evCelTempHigh : Ev := ⟨0x3C07, 2⟩
def evBlockReread : Ev := ⟨0x4401, 2⟩
def evBlockDamaged : Ev := ⟨0x4402, 3⟩
def evTableSwitched : Ev := ⟨0x4403, 1⟩
def evTableDrained : Ev := ⟨0x4404, 1⟩
def evTableBad : Ev := ⟨0x4405, 2⟩

/-! ### Blocks (R75, R78) -/

/-- Set a page's BLK_STATE.state. -/
def setBlk (s : State) (page v : Nat) : State := setF s (BLK_STATE_state page) v

/-- A page's BLK_STATE.state. -/
def blkState (s : State) (page : Nat) : Nat := getF s (BLK_STATE_state page)

/-- Put a page's block in fault with its reason (R75). -/
def blkFault (s : State) (page code : Nat) : State := setF (setBlk s page 4) (BLK_STATE_fault_code page) code

/-- The page's expert area is open (R78). -/
def expertOpen (s : State) (page : Nat) : Bool := isSet s (BLK_CTRL_expert_open page)

/-- A write to a register by its access codes (R7, R74, R78): RW and WO-with-a-store bits are written, RWX bits only
while the expert area is open, RWU bits of the user calibration area, W1C bits cleared by ones; every other bit keeps
its value. A write to the expert area while it is closed is ignored and counted. -/
def plainWrite (s : State) (a : Nat) (v : Word) : State :=
  match regAt a with
  | none => s
  | some r =>
    let page := a / 0x1000
    let off := a % 0x1000
    let open' := expertOpen s page
    if 0x600 ≤ off ∧ off < 0xC00 ∧ !open' then satF s (BLK_CTRL_expert_denied page) 1
    else
      let s := if r.rwx ≠ 0 ∧ !open' then satF s (BLK_CTRL_expert_denied page) 1 else s
      let m : Word := BitVec.ofNat 32 (r.rw ||| r.rwu ||| (if open' then r.rwx else 0))
      let old := reg s a
      setReg s a (((old &&& ~~~m) ||| (v &&& m)) &&& ~~~(v &&& BitVec.ofNat 32 r.w1c))

/-! ### Lists of commands -/

/-- The entry of a queue's command, if the table holds it. -/
def findCmd (s : State) (q idx : Nat) : Option CmdEntry :=
  s.cmds.table.find? (fun e => e.q == q && e.idx == idx)

/-- Replace the entry of a queue's command. -/
def putCmd (s : State) (e : CmdEntry) : State :=
  { s with cmds := { s.cmds with table := s.cmds.table.map (fun x => if x.q == e.q && x.idx == e.idx then e else x) } }

/-- Take the entry of a queue's command out of the table (R118, step 7). -/
def dropCmd (s : State) (q idx : Nat) : State :=
  { s with cmds := { s.cmds with table := s.cmds.table.filter (fun x => !(x.q == q && x.idx == idx)) } }

/-! ### Lanes -/

/-- A lane's state. -/
def lane (s : State) (n : Nat) : LaneSt := tget (fun _ => {}) s.lanes n

/-- Store a lane's state. -/
def setLane (s : State) (n : Nat) (l : LaneSt) : State :=
  { s with lanes := tset (fun _ => {}) s.lanes n l }

/-- The physical lane serving a logical lane since this start (R127, R154). -/
def physLane (s : State) (n : Nat) : Nat := tget id s.fuses.loadedLane n

/-- The outcome of a command on an instance the module has, or the fault of one it has not. -/
def onInstance (ok : Bool) (s : State) : Host.Outcome State Fault Refusal :=
  if ok then .next s else .fault .noSuchInstance

/-! ### Which pages answer (R62, R73) -/

/-- A reset wider than a lane, port or soft reset is in progress (R61): a function-level reset, or PERST_N low. -/
def widerReset (s : State) : Bool := s.host.flr || !s.pins.perstN

/-- BAR0 answers the host for a page: once the Steward is ready, or the DEV page alone where both banks failed (R62), and
outside the resets of the host's interface (R42, R59) and D3hot (R82). -/
def regsOpen (s : State) (page : Nat) : Bool :=
  s.life == .running && (isSet s DEV_START_steward_ready || (isSet s DEV_START_boot_failed && page == 0)) &&
    !widerReset s && !s.host.d3hot

/-- A register row takes effect only while BAR0 answers for its page. -/
def onPage (s : State) (page : Nat) (t : State) : State := if regsOpen s page then t else s

/-- A page index of R72. -/
def isPage (page : Nat) : Bool := (pageOf page).isSome

end Sys2Proof.Machine
end

