-- ==== Sys2Proof/Machine/Txn.lean ====
section
/-! DEFINITION. Sending on the stadium fabric (11_stadium_fabric): device identifiers, routes (R270, R271), the cutting of
a packet into flits (R260, R265), credits and arbitration (R263, R264), and the transaction table (R268). -/

namespace Sys2Proof.Machine

/-! ### Identifiers and routes -/

/-- The slot of a device identifier (R265). -/
def idSlot (d : Nat) : Nat := d % 32
/-- Its x coordinate. -/
def idX (d : Nat) : Nat := d / 32 % 16
/-- Its y coordinate. -/
def idY (d : Nat) : Nat := d / 512 % 16
/-- The identifier of a place (R44). -/
def idOf (x y slot : Nat) : Nat := y * 512 + x * 32 + slot
/-- This module's identifier. -/
def myId (s : State) : Nat := (reg s 0x140).toNat % 2 ^ 13
/-- This module is a reserve (R45). -/
def isReserve (s : State) : Bool := idSlot (myId s) == 16

/-- heat_port(a, b) of R256; from the reserve the heat port to member b is b, to the reserve it is 15. -/
def heatPort (a b : Nat) : Nat := if a = 16 then b else if b = 16 then 15 else (b + 16 - a - 1) % 16

/-- A place lies in the rectangle of the image in force (R273). -/
def inRect (s : State) (x y : Nat) : Bool :=
  let ox := s.fab.orgX
  let oy := s.fab.orgY
  decide (ox ≤ x ∧ x < ox + s.fab.extX ∧ oy ≤ y ∧ y < oy + s.fab.extY)

/-- The image in force marks a device present (R273). -/
def present (s : State) (x y slot : Nat) : Bool :=
  isSet s RTE_STATE_valid && inRect s x y && !bitOf (tget (fun _ => 0) s.fab.absent (y * 16 + x)) slot

/-- The coordinates of a ring from position a upwards by one, modulo the extent. -/
def ringNext (o ext a : Nat) (up : Bool) : Nat :=
  if up then o + (a + 1 - o) % ext else o + (a + ext - 1 - o) % ext

/-- The present positions met going from a to b in one direction of a ring (R271). -/
def ringSteps (p : Nat → Bool) (o ext : Nat) (up : Bool) (b : Nat) : Nat → Nat → Nat
  | 0, _ => 0
  | n + 1, a =>
    if a = b then 0
    else let a' := ringNext o ext a up; (if p a' then 1 else 0) + ringSteps p o ext up b n a'

/-- The primary descriptor to a destination (R271); none where it is unreachable. -/
def primaryRoute (s : State) (d : Nat) : Option Nat :=
  let me := myId s
  let x := idX me
  let y := idY me
  let ss := idSlot me
  if !isSet s RTE_STATE_valid || decide (16 < idSlot d) || !present s (idX d) (idY d) (idSlot d) then none
  else if idX d = x ∧ idY d = y then some (ss * 8)
  else
    let start := if ss = 16 then
        (let i := tget (fun _ => 0xFF) s.fab.reserveFor (y * 16 + x); if i < 16 then (i + 1) % 16 else 0) else ss
    match (List.range 16).find? (fun k => let c := (start + k) % 16
        present s x y c && present s (idX d) y c && present s (idX d) (idY d) c) with
    | none => none
    | some k =>
      let c := (start + k) % 16
      let ox := s.fab.orgX
      let ex := s.fab.extX
      let oy := s.fab.orgY
      let ey := s.fab.extY
      let px := fun a => present s a y c
      let py := fun b => present s (idX d) b c
      let xdir := b2n (decide (ringSteps px ox ex false (idX d) 16 x < ringSteps px ox ex true (idX d) 16 x))
      let ydir := b2n (decide (ringSteps py oy ey false (idY d) 16 y < ringSteps py oy ey true (idY d) 16 y))
      some (c * 8 + ydir * 2 + xdir)

/-- The alternate descriptor (R271). -/
def alternateOf (r : Nat) : Nat := xorNat r 3 ||| 4

/-- The descriptor in use toward a destination; none where it is unreachable (R272). -/
def routeTo (s : State) (d : Nat) : Option Nat :=
  if s.fab.lostDest.contains d || s.fab.badRoutes.contains d then none
  else match primaryRoute s d with
    | none => none
    | some r => some (if s.fab.onAlt.contains d then alternateOf r else r)

/-- next_port of R270 at this device; 31 for local. -/
def nextPort (s : State) (d route : Nat) : Nat :=
  let me := myId s
  let slot := idSlot me
  let ring := route / 8
  let via := bitOf route 2
  if d = me then 31
  else if (idX d ≠ idX me ∨ idY d ≠ idY me) ∧ slot ≠ ring then (if via && slot != 16 then 15 else heatPort slot ring)
  else if idX d ≠ idX me then (if bitOf route 0 then 17 else 16)
  else if idY d ≠ idY me then (if bitOf route 1 then 19 else 18)
  else if via && slot != 16 && idSlot d != 16 then 15
  else heatPort slot (idSlot d)

/-- A port is a dateline (R270): no present member of its slot and row (column) lies further in its direction. -/
def isDateline (s : State) (port : Nat) : Bool :=
  let me := myId s
  let any := fun (f : Nat → Bool) => (List.range 16).any f
  if isReserve s || port < 16 then false
  else if port = 16 then !any (fun x => decide (idX me < x) && present s x (idY me) (idSlot me))
  else if port = 17 then !any (fun x => decide (x < idX me) && present s x (idY me) (idSlot me))
  else if port = 18 then !any (fun y => decide (idY me < y) && present s (idX me) y (idSlot me))
  else !any (fun y => decide (y < idY me) && present s (idX me) y (idSlot me))

/-- A flit's class on the hop out of a port (R270); arrival is the arrival port and class of a forwarded packet. -/
def hopClass (s : State) (d route port : Nat) (arrival : Option (Nat × Nat)) : Nat :=
  let me := myId s
  if isDateline s port then 1
  else match arrival with
    | some (ap, 1) => if 16 ≤ ap ∧ 16 ≤ port ∧ ap / 2 = port / 2 then 1
        else if port < 16 ∧ (idX d ≠ idX me ∨ idY d ≠ idY me) ∧ idSlot me ≠ route / 8 then 1 else 0
    | _ => if port < 16 ∧ (idX d ≠ idX me ∨ idY d ≠ idY me) ∧ idSlot me ≠ route / 8 then 1 else 0

/-! ### Flits -/

/-- The header bytes of a packet (R266). -/
def headerBytes (p : Packet) : List Byte :=
  natLe 2 p.src ++ natLe 2 p.dst ++ natLe 1 p.op
    ++ natLe 1 (b2n p.reissue + 2 * b2n p.first + 4 * p.status)
    ++ natLe 2 p.tag ++ natLe 4 p.seq ++ natLe 2 p.epoch ++ natLe 2 p.length ++ natLe 8 p.addr
    ++ natLe 8 p.operand ++ natLe 1 p.route ++ List.replicate 7 0

/-- The packet a byte string holds (R266), on a channel. -/
def packetOfBytes (vc : Nat) (bs : List Byte) : Packet :=
  { vc := vc, src := leAt bs 0 2 % 2 ^ 13, dst := leAt bs 2 2 % 2 ^ 13, op := leAt bs 4 1,
    reissue := bitOf (leAt bs 5 1) 0, first := bitOf (leAt bs 5 1) 1, status := bitsOf (leAt bs 5 1) 2 3,
    tag := leAt bs 6 2 % 2 ^ 12, seq := leAt bs 8 4, epoch := leAt bs 12 2, length := leAt bs 14 2,
    addr := leAt bs 16 8, operand := leAt bs 24 8, route := leAt bs 32 1, data := bs.drop 40 }

/-- Cut a byte string into flits of 240 payload bytes (R265). -/
def cutFlits (vc cls : Nat) : Nat → Bool → List Byte → List Flit
  | 0, _, _ => []
  | n + 1, first, bs =>
    { vc := vc, cls := cls, som := first, eom := decide (bs.length ≤ 240), payload := bs.take 240 }
      :: (if bs.length ≤ 240 then [] else cutFlits vc cls n false (bs.drop 240))

/-- The flits of a packet. -/
def flitsOf (p : Packet) (cls : Nat) : List Flit :=
  let bs := headerBytes p ++ p.data
  cutFlits p.vc cls (bs.length / 240 + 1) true bs

/-- A number of a link-control message, for its free payload bytes. -/
def linkMsgNum : LinkMsg → Nat
  | .identity d p => 8 * (d * 32 + p)
  | .swapRequest l => 8 * l + 1
  | .swapAnswer l => 8 * l + 2
  | .drain => 3
  | .insertDone => 4
  | .timeRequest t => 8 * t + 5
  | .timeAnswer a b c => 8 * (a + 2 ^ 64 * b + 2 ^ 128 * c) + 6

/-- Bytes 0 to 251 of a flit (R260). -/
def flitBytes (f : Flit) : List Byte :=
  let body := match f.ctl with
    | some m => (List.range 240).map (fun i => Config.linkMsgBytes (240 * linkMsgNum m + i))
    | none => bytesAt f.payload 0 240
  natLe 8 (f.vc % 8 + 8 * (f.cls % 2) + 16 * b2n f.som + 32 * b2n f.eom + 64 * b2n f.null + 128 * b2n f.nak
      + 2 ^ 8 * (f.ackSeq % 2 ^ 16) + 2 ^ 24 * (f.crdSel % 16) + 2 ^ 28 * (f.crdTotal % 4096))
    ++ body ++ natLe 2 f.seq ++ [0, 0]

/-- A flit with its CRC. -/
def sealFlit (f : Flit) : Flit := { f with crc := crc32c (flitBytes f) }

/-! ### Ports -/

/-- A port's state. -/
def port (s : State) (n : Nat) : PortSt := tget (fun _ => {}) s.fab.ports n

/-- Store a port's state. -/
def setPort (s : State) (n : Nat) (p : PortSt) : State :=
  { s with fab := { s.fab with ports := tset (fun _ => {}) s.fab.ports n p } }

/-- PORT_STATE.state: 0 dark, 1 training, 2 loopback, 3 up, 4 draining, 5 down. -/
def portState (s : State) (n : Nat) : Nat := getF s (PORT_STATE_state n)

/-- Flits per class of a channel's receive buffer (R263). -/
def bufFlits (vc : Nat) : Nat := ([16, 80, 32, 48, 48, 24, 8, 8] : List Nat).getD vc 0

/-- The transmitter has credit for a buffer (R263). -/
def hasCredit (p : PortSt) (vc cls : Nat) : Bool :=
  let b := vc * 2 + cls
  decide ((tget (fun _ => 0) p.sent b + 4096 - tget (fun _ => 0) p.peerFreed b % 4096) % 4096 < bufFlits vc)

/-- A port carries a channel now (R68, R257, R274, R275): VC0 on any trained link; VC7 in loopback too; the others on
an up port, or one whose queued flits drain, and before fabric-ready only VC6 and the responses to it. -/
def carries (s : State) (n vc : Nat) : Bool :=
  let st := portState s n
  if vc = 0 then (port s n).train == .trained
  else if vc = 7 then st == 2 || st == 3
  else (st == 3 || st == 4) && (vc == 6 || vc == 3 || isSet s DEV_START_fabric_ready)

/-- The arbitration's VC1 cap, VC1 bucket depth and channel weights in force (R264). -/
def arbCap (s : State) : Nat :=
  match getF s FAB_ARB_arb_intent with | 0 => 192 | 1 => 224 | 2 => 128 | _ => getF s FAB_ARB_CAP_vc1_cap
def arbBurst (s : State) : Nat := max 1 (getF s FAB_ARB_CAP_vc1_burst)
def arbWeight (s : State) (vc : Nat) : Nat :=
  match getF s FAB_ARB_arb_intent with
  | 3 => max 1 (bitsOf (getF s FAB_ARB_WEIGHT_weights) (4 * (vc - 1)) 4)
  | i => if vc ≤ 4 then 4 else if vc = 5 ∧ i = 2 then 4 else 1

/-- The first waiting flit of a channel that may go now. -/
def readyFlit (s : State) (n : Nat) (p : PortSt) (vc : Nat) : Option Flit :=
  match p.txq.find? (fun f => f.vc == vc) with
  | some f => if carries s n vc && hasCredit p vc f.cls then some f else none
  | none => none

/-- A channel's balance in the round robin, in flits. -/
def balance (p : PortSt) (vc : Nat) : Int := tget (fun _ => 0) p.deficits vc

/-- A flit of the round robin is charged to its channel, which keeps the turn (R264). -/
def chargeTurn (p : PortSt) (vc : Nat) : PortSt :=
  { p with turn := vc, deficits := tset (fun _ => 0) p.deficits vc (balance p vc - 1) }

/-- The rounds after which a channel of a balance and a weight has something to spend. -/
def roundsDue (b : Int) (w : Nat) : Nat := if 0 < b then 0 else ((-b) / (w : Int)).toNat + 1

/-- Every ready channel gains its weight as often as it takes for one to have a balance; a channel with nothing to send
keeps a debt and no balance (R264). -/
def nextRound (s : State) (p : PortSt) (ready : List Nat) : PortSt :=
  let k := (ready.map (fun v => roundsDue (balance p v) (arbWeight s v))).foldl min 2048
  if k = 0 then p
  else { p with deficits := (List.range 7).foldl (fun t i =>
    tset (fun _ => 0) t (i + 1) (if ready.contains (i + 1) then balance p (i + 1) + (k * arbWeight s (i + 1) : Nat)
      else min 0 (balance p (i + 1)))) p.deficits }

/-- The flit a port sends in the next slot and the arbiter after it (R264): VC0; a packet begun keeps its channel's turn,
and VC1 takes a token for it while it has one; VC1 with a token; else the deficit round robin. -/
def arbitrate (s : State) (n : Nat) (p : PortSt) : Option (Flit × PortSt) :=
  let token := fun (f : Flit) => (f, { p with bucket := p.bucket - 256, turn := 1 })
  match readyFlit s n p 0, (if p.midPacket then readyFlit s n p p.turn else none),
      (if 256 ≤ p.bucket then readyFlit s n p 1 else none) with
  | some f, _, _ => some (f, p)
  | none, some f, some g => if p.turn = 1 then some (token g) else some (f, chargeTurn p p.turn)
  | none, some f, none => some (f, chargeTurn p p.turn)
  | none, none, some g => some (token g)
  | none, none, none =>
    let ready := ((List.range 7).map (· + 1)).filter (fun v => (readyFlit s n p v).isSome)
    let p := nextRound s p ready
    match ((List.range 7).map (fun k => (p.turn + k) % 7 + 1)).find? (fun v => ready.contains v && decide (0 < balance p v)) with
    | none => none
    | some v => (readyFlit s n p v).map (fun f => (f, chargeTurn p v))

/-- Take the first flit of a channel out of a list. -/
def dropFirstVc (vc : Nat) : List Flit → List Flit
  | [] => []
  | f :: t => if f.vc = vc then t else f :: dropFirstVc vc t

/-- The acknowledgement and credit fields a port sends (R260): the highest sequence number received in order, and the
next changed buffer's total. -/
def stampFlit (p : PortSt) (f : Flit) : Flit × PortSt :=
  let b := p.changed.headD 0
  ({ f with ackSeq := (p.expected + 65535) % 65536, crdSel := b, crdTotal := tget (fun _ => 0) p.freed b % 4096 },
    { p with changed := p.changed.drop 1 })

/-- Send one flit: it takes the next sequence number, enters the replay buffer and uses a credit (R261, R263). -/
def sendFlit (s : State) (n : Nat) (p : PortSt) (f : Flit) : State :=
  let (f, p) := stampFlit p f
  let f := sealFlit { f with seq := p.txSeq }
  let b := f.vc * 2 + f.cls
  let p := { p with
    txSeq := (p.txSeq + 1) % 65536, replay := p.replay ++ [f],
    txq := dropFirstVc f.vc p.txq, sent := tset (fun _ => 0) p.sent b ((tget (fun _ => 0) p.sent b + 1) % 4096),
    bucket := min (p.bucket + arbCap s) (256 * arbBurst s), midPacket := if f.vc = 0 then p.midPacket else !f.eom }
  emit (setPort s n p) (.flit n f)

/-- Send waiting flits while the port may: not while a swap drains it, and while the replay buffer has room (R258,
R261). -/
def pumpGo : Nat → State → Nat → State
  | 0, s, _ => s
  | k + 1, s, n =>
    let p := port s n
    if 4096 ≤ p.replay.length then s
    else match p.swap with
      | .draining _ | .training _ => s
      | _ => match arbitrate s n p with
        | none => s
        | some (f, p) => pumpGo k (sendFlit s n p f) n

/-- Send what a port has waiting. -/
def pump (s : State) (n : Nat) : State := pumpGo (port s n).txq.length s n

/-- A null flit with the acknowledgement and credits of now (R260). -/
def sendNull (s : State) (n : Nat) (nak : Bool) : State :=
  let p := port s n
  let (f, p) := stampFlit p { vc := 0, null := true, nak := nak, seq := p.txSeq }
  emit (setPort s n p) (.flit n (sealFlit f))

/-- Queue flits on a port and send what may go. -/
def enqueue (s : State) (n : Nat) (fs : List Flit) : State :=
  let p := port s n
  pump (setPort s n { p with txq := p.txq ++ fs }) n

/-- Send a link-control message on VC0. -/
def sendCtl (s : State) (n : Nat) (m : LinkMsg) : State :=
  enqueue s n [{ vc := 0, som := true, eom := true, ctl := some m }]

/-! ### Requests and responses -/

/-- The tags set aside by a loss whose time has not passed (R268). -/
def asideTags (s : State) : List (Nat × Nat) := s.fab.deadTags.filter (fun d => decide (elapsed s < d.2))

/-- The request table has room for n requests on a channel, and a tag for each: thirty-two of its 4,096 entries are kept for
VC6, and a tag set aside is no tag (R268). -/
def txnRoomFor (s : State) (vc n : Nat) : Bool :=
  decide (s.fab.txns.length + (asideTags s).length + n ≤ 4096)
    && (vc == 6 || decide ((s.fab.txns.filter (fun t => t.pkt.vc != 6)).length + n ≤ 4064))

/-- The request table has room for a request on a channel (R104, R268). -/
def txnRoom (s : State) (vc : Nat) : Bool := txnRoomFor s vc 1

/-- A tag a request holds. -/
def tagTaken (s : State) (g : Nat) : Bool := s.fab.txns.any (fun t => t.pkt.tag == g)

/-- A tag in use, or set aside by a loss until its time (R268). -/
def tagBusy (s : State) (g : Nat) : Bool := tagTaken s g || (asideTags s).any (fun d => d.1 == g)

/-- The lowest free tag; with none free, the one set aside longest ago, for whose time the request waits (R104). -/
def freeTag (s : State) : Nat :=
  ((List.range 4096).find? (fun g => !tagBusy s g)).getD
    ((((asideTags s).filter (fun d => !tagTaken s d.1)).head?.map (·.1)).getD 0)

def evTxnLost : Ev := ⟨0x5004, 3⟩

/-- Count and report a lost transaction (R268). -/
def reportLost (s : State) (p : Packet) : State :=
  raiseEv (satF s FAB_COUNT_lost 1) pgFAB evTxnLost [p.dst, p.tag, p.op, p.vc]

/-- Put a request's flits on its first port (R270). -/
def transmit (s : State) (p : Packet) : State :=
  let n := nextPort s p.dst p.route
  if n = 31 then s else enqueue s n (flitsOf p (hopClass s p.dst p.route n none))

/-- Issue a request (R265, R268, R269): false where it ends at once as lost. The caller has found room. -/
def sendReq (s : State) (vc dst op addr length operand : Nat) (data : List Byte) (who : TxnFor) : State × Bool :=
  let tag := freeTag s
  let key := dst * 8 + vc
  let known := s.fab.outSeq.any (fun e => e.1 == key)
  let seq := tget (fun _ => 0) s.fab.outSeq key
  let p : Packet := {
    vc := vc, src := myId s, dst := dst, op := op, first := !known, tag := tag, seq := seq,
    epoch := getF s CMD_EPOCH_current, length := length, addr := addr, operand := operand, data := data }
  match routeTo s dst with
  | none => (reportLost s p, false)
  | some r =>
    let p := { p with route := r }
    let hold := s.fab.rerouting.any (fun e => e.1 == dst)
    let s := { s with fab := { s.fab with
      txns := s.fab.txns ++ [{ pkt := p, held := hold, who := who }],
      outSeq := tput key ((seq + 1) % 2 ^ 32) s.fab.outSeq } }
    let s := setF s FAB_TXN_peak (max (getF s FAB_TXN_peak) s.fab.txns.length)
    (if hold then s else transmit s p, true)

/-- Answer a request (R266, R267): a response on VC3 along the way back, unless no way back is known. -/
def respond (s : State) (req : Packet) (status : Nat) (data : List Byte) : State :=
  let p : Packet := {
    vc := 3, src := myId s, dst := req.src, op := 0x80, status := status, tag := req.tag,
    seq := req.seq, epoch := getF s CMD_EPOCH_current, length := data.length, addr := req.addr, data := data }
  match routeTo s req.src with
  | none => s
  | some r => transmit s { p with route := r }

/-- A transit request whose next port is down is dropped and answered route down; a response is dropped (R272). -/
def routeDown (s : State) (p : Packet) : State := if p.vc = 3 then s else respond s p 4 []

/-- The packets of a channel of which no flit has been sent, among its queued flits. -/
def wholePackets (vc : Nat) : List Flit → Bool → List Byte → List Packet
  | [], _, _ => []
  | f :: t, begun, acc =>
    let bs := (if f.som then [] else acc) ++ f.payload
    if !(begun || f.som) then wholePackets vc t false []
    else if f.eom then packetOfBytes vc bs :: wholePackets vc t false [] else wholePackets vc t true bs

/-- The transit packets a port has queued and of which it has sent nothing. -/
def queuedTransit (s : State) (p : PortSt) : List Packet :=
  ((List.range 6).flatMap (fun i => wholePackets (i + 1) (p.txq.filter (fun f => f.vc == i + 1)) false [])).filter
    (fun q => q.src != myId s)

end Sys2Proof.Machine
end

