-- ==== Sys2Proof/Machine/Laps.lean ====
section
/-! DEFINITION. Lap counters, waits and watches (05_commands R106, R114-R117; 17_recovery R391), and the fields of a
command (R105). -/

namespace Sys2Proof.Machine

/-! ### The fields of a command (R105) -/

def CmdEntry.opcode (e : CmdEntry) : Nat := leAt e.bytes 0 2
/-- The class of an opcode: 1 lane, 2 data, 3 collective, 4 update, 5 Milant, 6 sync, 7 control (R108). -/
def CmdEntry.cls (e : CmdEntry) : Nat := leAt e.bytes 1 1
def CmdEntry.serial (e : CmdEntry) : Bool := bitOf (leAt e.bytes 2 1) 0
def CmdEntry.quiet (e : CmdEntry) : Bool := bitOf (leAt e.bytes 2 1) 1
def CmdEntry.irq (e : CmdEntry) : Bool := bitOf (leAt e.bytes 2 1) 2
def CmdEntry.timeout (e : CmdEntry) : Nat := leAt e.bytes 3 1
def CmdEntry.cmdId (e : CmdEntry) : Nat := leAt e.bytes 4 2
def CmdEntry.epoch (e : CmdEntry) : Nat := leAt e.bytes 6 2
def CmdEntry.firstLane (e : CmdEntry) : Nat := bitsOf (leAt e.bytes 8 2) 0 7
def CmdEntry.laneCount (e : CmdEntry) : Nat := bitsOf (leAt e.bytes 8 2) 7 7
def CmdEntry.sigAdd (e : CmdEntry) : Nat := leAt e.bytes 12 4
def CmdEntry.wait0Ref (e : CmdEntry) : Nat := leAt e.bytes 16 4
def CmdEntry.wait1Ref (e : CmdEntry) : Nat := leAt e.bytes 20 4
def CmdEntry.sigRef (e : CmdEntry) : Nat := leAt e.bytes 24 4
def CmdEntry.wait0Val (e : CmdEntry) : Nat := leAt e.bytes 28 8
def CmdEntry.wait1Val (e : CmdEntry) : Nat := leAt e.bytes 36 8
/-- The operand block's address, bytes 44 to 51, of a command that points to one. -/
def CmdEntry.block (e : CmdEntry) : Nat := leAt e.bytes 44 8

/-- A counter reference's fields (R106). -/
def refValid (r : Nat) : Bool := bitOf r 31
def refRemote (r : Nat) : Bool := bitOf r 30
def refRank (r : Nat) : Nat := bitsOf r 16 14
def refIndex (r : Nat) : Nat := bitsOf r 0 12

/-- What a logical rank resolves to in the role table in force (R106, R117, R273). -/
inductive RankAt where
  | unknown
  | offStadium
  | device (id : Nat)
  deriving DecidableEq, Repr

/-- Resolve a rank; an entry that failed parity is unknown until the next table load (R391). -/
def resolveRank (s : State) (rank : Nat) : RankAt :=
  let e := (tget (fun _ => 0) s.fab.roles rank).toNat
  if s.fab.badRoles.contains rank || !bitOf e 31 then .unknown
  else if bitOf e 30 then .offStadium else .device (e % 2 ^ 13)

/-- The local counter a reference names: a local one, or a remote one whose rank is this module. -/
def localIndex (s : State) (r : Nat) : Option Nat :=
  if !refRemote r then some (refIndex r)
  else match resolveRank s (refRank r) with
    | .device d => if d = myId s then some (refIndex r) else none
    | _ => none

/-! ### Counters -/

/-- A counter's value. -/
def lapVal (s : State) (n : Nat) : Nat := (tget (fun _ => 0) s.laps.vals n).toNat

/-- A counter is held failed (R391). -/
def lapHeld (s : State) (n : Nat) : Bool := s.laps.held.contains n

/-- Store a counter's value. -/
def setLap (s : State) (n v : Nat) : State :=
  { s with laps := { s.laps with vals := tset (fun _ => 0) s.laps.vals n (BitVec.ofNat 64 v) } }

/-- A counter stands at or above a threshold and is not held failed (R115, R391). -/
def lapReached (s : State) (n v : Nat) : Bool := !lapHeld s n && decide (v ≤ lapVal s n)

/-- Latch a wait whose condition holds (R115). -/
def latchWait (s : State) (ref val : Nat) (w : WaitSt) : WaitSt :=
  if w = .latched then .latched
  else if refValid ref then
    match localIndex s ref with
    | some n => if lapReached s n val then .latched else w
    | none => w
  else w

/-- Latch the waits of every issued command (R115). -/
def latchAll (s : State) : State :=
  { s with cmds := { s.cmds with table := s.cmds.table.map (fun e =>
      if e.stage = .issued then
        { e with wait0 := latchWait s e.wait0Ref e.wait0Val e.wait0, wait1 := latchWait s e.wait1Ref e.wait1Val e.wait1 }
      else e) } }

/-- Answer the held watches whose condition holds (R116). -/
def answerWatches (s : State) : State :=
  let due := s.laps.watches.filter (fun w => lapReached s w.counter w.value)
  let s := { s with laps := { s.laps with watches := s.laps.watches.filter (fun w => !lapReached s w.counter w.value) } }
  due.foldl (fun s w => respond s w.pkt 0 []) s

/-- Waits and watches are evaluated after the counter operations (R115). -/
def settleLaps (s : State) : State := answerWatches (latchAll s)

def evLapFailed : Ev := ⟨0x3003, 3⟩

/-- A counter that fails parity twice is held failed (R391). -/
def failLap (s : State) (n : Nat) : State :=
  if lapHeld s n then s
  else raiseEv { s with laps := { s.laps with held := s.laps.held ++ [n] } } pgLAP evLapFailed [n]

/-- Add to a counter, saturating (R114); false where the counter is held failed. src: 0 a command, 1 the host, 2 a
partner. -/
def lapAdd (s : State) (n v src : Nat) : State × Bool :=
  if lapHeld s n then (s, false)
  else
    let sum := lapVal s n + v
    let s := setLap s n (min sum (2 ^ 64 - 1))
    let s := if 2 ^ 64 ≤ sum then raiseEv s pgLAP evLapSaturated [n, src] else s
    (settleLaps s, true)

/-- Store a counter (R114); a store clears the hold (R391). -/
def lapStore (s : State) (n v : Nat) : State :=
  settleLaps (setLap { s with laps := { s.laps with held := s.laps.held.filter (· != n) } } n v)

/-- The write to LAP_ADD (R114, R391): an add to a held counter is ignored and counted. -/
def hostLapAdd (s : State) (v : Word) (counterFails : Bool) : State :=
  let n := getF s LAP_SEL_index
  let s := if counterFails then failLap s n else s
  match lapAdd s n v.toNat 1 with
  | (s', true) => s'
  | (_, false) => satF s LAP_CFG_held_refused 1

/-- HOST_LAP_ADD (R114). -/
def execHostLapAdd (v : Word) (counterFails : Bool) (s : State) : Host.Outcome State Fault Refusal :=
  .next (onPage s pgLAP (hostLapAdd s v counterFails))

end Sys2Proof.Machine
end

