-- ==== Sys2Proof/Machine/Tables.lean ====
section
/-! DEFINITION. The Cabouz table slots (10_cabouz R241, R247-R249): banks, generations, references, and the commit and
retire rows. -/

namespace Sys2Proof.Machine

/-- A table slot the module has. -/
def isSlotC (n : Nat) : Bool := decide (n < 16)

/-- A slot's state. -/
def cbzSlot (s : State) (n : Nat) : CbzSlot := tget (fun _ => {}) s.cbz n

/-- Store a slot. -/
def setCbz (s : State) (n : Nat) (t : CbzSlot) : State := { s with cbz := tset (fun _ => {}) s.cbz n t }

/-- The code lengths of a bank. -/
def CbzSlot.bank (t : CbzSlot) (b : Bool) : Table Nat := if b then t.bank1 else t.bank0

/-- The slot has a current table (R247). -/
def CbzSlot.hasCurrent (t : CbzSlot) : Bool := t.state == 1 || t.state == 2

/-- The slot has a draining bank. -/
def CbzSlot.hasOld (t : CbzSlot) : Bool := t.state == 2 || t.state == 3

/-- The generations a slot holds: of a current or draining bank (R247). -/
def CbzSlot.holds (t : CbzSlot) (gen : Nat) : Bool :=
  (t.hasCurrent && t.curGen == gen) || (t.hasOld && t.oldGen == gen)

/-- The lengths a slot holds under a generation (R245, check 3). While retiring, the bank last current drains. -/
def CbzSlot.lengths (t : CbzSlot) (gen : Nat) : Option (Table Nat) :=
  if t.hasCurrent && t.curGen == gen then some (t.bank t.cur)
  else if t.hasOld && t.oldGen == gen then some (t.bank (if t.state = 2 then !t.cur else t.cur)) else none

/-- The code length of a symbol. -/
def codeLen (t : Table Nat) (sym : Nat) : Nat := tget (fun _ => 0) t sym

/-- The draining bank is freed: ready from draining, empty from retiring (R248). -/
def freeOld (s : State) (n : Nat) : State :=
  let t := cbzSlot s n
  raiseEv (setCbz s n { t with state := if t.state = 2 then 1 else 0, oldRefs := 0 }) pgCBZ evTableDrained [n, t.oldGen]

/-- Take a reference on the bank that carries a generation (R249). -/
def takeRef (s : State) (n gen : Nat) : State :=
  let t := cbzSlot s n
  if t.hasCurrent && t.curGen == gen then setCbz s n { t with curRefs := t.curRefs + 1 }
  else if t.hasOld && t.oldGen == gen then setCbz s n { t with oldRefs := t.oldRefs + 1 } else s

/-- Release a reference; a draining bank whose references reach 0 is freed (R248, R249). -/
def dropRef (s : State) (n gen : Nat) : State :=
  let t := cbzSlot s n
  if t.hasCurrent && t.curGen == gen then setCbz s n { t with curRefs := t.curRefs - 1 }
  else if t.hasOld && t.oldGen == gen then
    let s := setCbz s n { t with oldRefs := t.oldRefs - 1 }
    if t.oldRefs ≤ 1 then freeOld s n else s
  else s

/-- Release the table reference a command holds. -/
def dropHeld (s : State) (r : Option (Nat × Nat)) : State :=
  match r with
  | some (n, gen) => dropRef s n gen
  | none => s

/-! ### Commit and retire (R248) -/

/-- Why a table is invalid (R241): reason 1, 2 or 3. -/
def tableFault (t : Table Nat) : Option Nat :=
  let ls := (List.range 256).map (codeLen t)
  let used := ls.filter (· != 0)
  if ls.any (fun l => decide (12 < l)) then some 1
  else if used.length < 2 then some 2
  else if (used.map (fun l => 2 ^ (12 - l))).foldl (· + ·) 0 ≠ 4096 then some 3 else none

/-- An ignored commit, retire or length write. -/
def denyTable (s : State) (n : Nat) : State := satF s (CBZ_TBL_STATE_denied n) 1

/-- A commit that is refused with a reason. -/
def badCommit (s : State) (n gen reason : Nat) : State := raiseEv (denyTable s n) pgCBZ evTableBad [n, gen, reason]

/-- Writing commit with new_gen (R248). -/
def tableCommit (s : State) (n gen : Nat) : State :=
  let t := cbzSlot s n
  if t.state = 2 then badCommit s n gen 5
  else match tableFault (t.bank (!t.cur)) with
    | some r => badCommit s n gen r
    | none =>
      if t.holds gen then badCommit s n gen 4
      else
        let old := if t.state = 0 then 0xFF else if t.state = 1 then t.curGen else t.oldGen
        let t' : CbzSlot := { t with cur := !t.cur, curGen := gen, curRefs := 0 }
        if t.state = 1 then
          let s := setCbz s n { t' with state := 2, oldGen := t.curGen, oldRefs := t.curRefs }
          let s := raiseEv s pgCBZ evTableSwitched [n, gen, old]
          if t.curRefs = 0 then freeOld s n else s
        else raiseEv (setCbz s n { t' with state := if t.state = 0 then 1 else 2 }) pgCBZ evTableSwitched [n, gen, old]

/-- Writing retire (R248). -/
def tableRetire (s : State) (n : Nat) : State :=
  let t := cbzSlot s n
  if t.state = 1 then
    setCbz s n (if t.curRefs = 0 then { t with state := 0 }
      else { t with state := 3, oldGen := t.curGen, oldRefs := t.curRefs, curRefs := 0 })
  else denyTable s n

/-- A write to a length word (R248): symbols 8w to 8w + 7 of the idle bank; ignored while draining. -/
def tableLenWrite (s : State) (n w : Nat) (v : Word) : State :=
  let t := cbzSlot s n
  if t.state = 2 then denyTable s n
  else
    let b := (List.range 8).foldl (fun b i => tset (fun _ => 0) b (8 * w + i) (bitsOf v.toNat (4 * i) 4)) (t.bank (!t.cur))
    setCbz s n (if t.cur then { t with bank0 := b } else { t with bank1 := b })

/-- A length word as it reads: the idle bank, or the current one while draining. -/
def tableLenRead (s : State) (n w : Nat) : Word :=
  let t := cbzSlot s n
  let b := t.bank (if t.state = 2 then t.cur else !t.cur)
  BitVec.ofNat 32 (((List.range 8).map (fun i => codeLen b (8 * w + i) * 2 ^ (4 * i))).foldl (· + ·) 0)

/-- A write to CBZ_TBL_CTRL (R248). -/
def tableCtrlWrite (s : State) (n : Nat) (v : Word) : State :=
  let gen := bitsOf v.toNat 0 4
  let s := setF s (CBZ_TBL_CTRL_new_gen n) gen
  if bitOf v.toNat 8 && bitOf v.toNat 9 then denyTable s n
  else if bitOf v.toNat 8 then tableCommit s n gen
  else if bitOf v.toNat 9 then tableRetire s n else s

end Sys2Proof.Machine
end

