-- ==== Sys2Proof/Machine/Memory.lean ====
section
/-! DEFINITION. Attic and cellar (09_memory): the address map, reads and writes with parity at rest (R213-R230), and the
fencing of a lane (R13). -/

namespace Sys2Proof.Machine

/-- A region of the local address space (R213). -/
inductive Region where
  | cellar | attic | pages | laps | none
  deriving DecidableEq, Repr

/-- The region of a local address (R213). -/
def regionOf (a : Nat) : Region :=
  if a < 0x17400000000 then .cellar
  else if 0x100000000000 ≤ a ∧ a < 0x1000C0000000 then .attic
  else if 0x110000000000 ≤ a ∧ a < 0x110004000000 then .pages
  else if 0x120000000000 ≤ a ∧ a < 0x120000008000 then .laps
  else .none

/-- A range of n bytes lies wholly in one memory: the attic or the cellar data window. -/
def inMemory (a n : Nat) : Bool :=
  let r := regionOf a
  (r == .cellar || r == .attic) && regionOf (a + (n - 1)) == r

/-- The byte at an address: an unwritten one reads 0 (R217, R226). -/
def memByte (s : State) (a : Nat) : Byte := tget (fun _ => 0) s.mem.cells a

/-- The n bytes from an address, without any check. -/
def peek (s : State) (a n : Nat) : List Byte := (List.range n).map (fun i => memByte s (a + i))

/-- Write bytes to the cell list. -/
def pokeCells (cells : List Host.Cell) (a : Nat) : List Byte → List Host.Cell
  | [] => cells
  | b :: bs => pokeCells (tset (fun _ => 0) cells a b) (a + 1) bs

/-- Write bytes, without any check. -/
def poke (s : State) (a : Nat) (bs : List Byte) : State :=
  { s with mem := { s.mem with cells := pokeCells s.mem.cells a bs } }

/-- The 64-byte line of an address. -/
def lineOf (a : Nat) : Nat := a / 64 * 64

/-- The lines a range touches. -/
def linesOf (a n : Nat) : List Nat :=
  if n = 0 then [] else (List.range ((lineOf (a + n - 1) - lineOf a) / 64 + 1)).map (fun i => lineOf a + 64 * i)

/-- The logical lane whose attic share holds an address (R213). -/
def atticLane (a : Nat) : Nat := (a - 0x100000000000) / 0x2000000

/-- The initialised region of a cellar address: its channel and 2 KiB region (R219, R226). -/
def regionKey (a : Nat) : Nat :=
  let g := a / 256
  (g % 192) * 0x400000 + (g / 192 * 256 + a % 256) / 2048

/-- Who asks a memory for an access (R216, R227): a lane's own engines, the on-die network for everyone else (other lanes,
engines, the command processor, the host, partners), or the patrol. -/
inductive Requester where
  | lane (l : Nat) | network | patrol
  deriving DecidableEq, Repr

/-! ### Ends of commands and lanes -/

/-- The status codes of R121. -/
def stOK : Nat := 0x00
def stMalformed : Nat := 0x01
def stTimeout : Nat := 0x02
def stAborted : Nat := 0x03
def stLaneReset : Nat := 0x04
def stLaneFenced : Nat := 0x05
def stEpochStale : Nat := 0x06
def stEpochAbandoned : Nat := 0x07
def stRankUnknown : Nat := 0x08
def stOffStadium : Nat := 0x09
def stRemoteError : Nat := 0x0A
def stParity : Nat := 0x0B
def stDamaged : Nat := 0x0C
def stCollVoid : Nat := 0x0D
def stCollFailed : Nat := 0x0E
def stRelayTimeout : Nat := 0x0F
def stArithMismatch : Nat := 0x10
def stProfileBusy : Nat := 0x11
def stUnitFault : Nat := 0x12

/-- Set or clear the tag of an array (R136). -/
def setTag (s : State) (l : Nat) (right : Bool) (t : Option (List Nat)) : State :=
  setLane s l (if right then { lane s l with tagR := t } else { lane s l with tagL := t })

/-- Clear the tags of arrays (R136). -/
def clearTags (s : State) (arrays : List (Nat × Bool)) : State := arrays.foldl (fun s x => setTag s x.1 x.2 none) s

/-- End a command with a status, a detail and its result bytes (R118, step 1); the table reference it holds is released
(R249), and a product that ends with a status other than OK leaves the tags of its arrays cleared (R136). -/
def endCmd (s : State) (q idx status detail : Nat) (result : List Byte) : State :=
  match findCmd s q idx with
  | none => s
  | some e =>
    if e.stage = .issued ∨ e.stage = .placed ∨ e.stage = .running then
      putCmd (dropHeld (if status = 0 then s else clearTags s e.arrays) e.held) { e with
        stage := .ended, status := status, detail := if status = 0 then 0 else detail, result := result,
        endTime := timeNow s, held := none, arrays := [] }
    else s

/-- The status and detail of a command of several lanes: those of its lowest-positioned part that did not end with OK
(R109). -/
def partsStatus (ps : List PartSt) : Nat × Nat :=
  match ps.find? (fun p => p.status != 0) with
  | some p => (p.status, p.detail)
  | none => (0, 0)

/-- The result bytes of a lane-class completion record (R144, R209). -/
def laneResult (loads bubbles chunks : Nat) (ovf replayed : Bool) : List Byte :=
  natLe 4 (min loads (2 ^ 32 - 1)) ++ natLe 4 (min bubbles (2 ^ 32 - 1)) ++ natLe 2 (min chunks 0xFFFF)
    ++ natLe 1 (b2n ovf + 2 * b2n replayed) ++ [0]

/-- The landing chunks a fused product has consumed, each once. -/
def chunksUsed (e : CmdEntry) : List Nat := (e.chunks.map (·.2)).eraseDups

/-- The result bytes of a product, from what it has done so far (R144). -/
def productResult (e : CmdEntry) : List Byte :=
  laneResult e.prod.loads e.prod.bubbles (chunksUsed e).length e.prod.ovf e.prod.replayed

/-- The exit record of a lane's program (R208). -/
def exitRecord (ln : LaneSt) (status detail : Nat) : List Byte :=
  ((List.range 16).flatMap (fun i => natLe 8 (tget (fun _ => 0) ln.s i).toNat)) ++ natLe 4 ln.exitCode ++ natLe 2 ln.pc
    ++ natLe 1 status ++ [0] ++ natLe 2 detail ++ natLe 2 ln.sticky ++ List.replicate 4 0 ++ natLe 8 ln.count ++ natLe 8 ln.slots
    ++ List.replicate 96 0

/-- A line's word is held in its memory: every line of the attic, and a line of an initialised region (R226). -/
def initialised (s : State) (line : Nat) : Bool :=
  regionOf line != .cellar || s.mem.allInit || tget (fun _ => false) s.mem.regions (regionKey line)

/-- Regions of 2 KiB in a channel's 7.75 GiB of data (R220, R226). -/
def channelRegions : Nat := 4063232

/-- Set the bits of regions (R226): the last of all sets init_done and raises cel.init.done, ms after cellar_ready. -/
def setInit (s : State) (keys : List Nat) (ms : Nat) : State :=
  let regions := keys.foldl (fun t k => tset (fun _ => false) t k true) s.mem.regions
  let s := { s with mem := { s.mem with regions := regions } }
  let gib := regions.length / 524288
  let s := if getF s CEL_STATE_init_gib = gib then s else setF s CEL_STATE_init_gib gib
  if regions.length = 192 * channelRegions then
    raiseEv (setF { s with mem := { s.mem with regions := [], allInit := true } } CEL_STATE_init_done 1) pgCEL evCelInitDone [ms]
  else s

/-- A write initialises the cellar regions it touches (R226); the time since cellar_ready is the device time's (log entry
94). -/
def touchRegions (s : State) (a n : Nat) : State :=
  if (linesOf a n).all (initialised s) then s
  else setInit s ((linesOf a n).map regionKey) ((elapsed s - s.mem.readyAt) / 1000000)

/-- The lines a range covers wholly. -/
def coveredLines (a n : Nat) : List Nat := (linesOf a n).filter (fun l => decide (a ≤ l ∧ l + 64 ≤ a + n))

/-- A line of memory is written whole: it is good again (R218), and its region is initialised (R226). -/
def freshLines (s : State) (a n : Nat) : State :=
  let s := touchRegions s a n
  { s with mem := { s.mem with damaged := s.mem.damaged.filter (fun l => !(coveredLines a n).contains l) } }

/-- A lane's program ends with its part: the exit record is written where one is asked for and the program was loaded,
and its flags are kept for the completion record (R208, R209). -/
def leaveVec (s : State) (l q idx status detail : Nat) : State :=
  let ln := lane s l
  if ln.vecRun ≠ some (q, idx) then s
  else
    let s := if ln.outAddr ≠ 0 ∧ ln.loaded then
        (let a := ln.outAddr + 256 * ln.pos; freshLines (poke s a (exitRecord ln status detail)) a 256)
      else s
    match findCmd s q idx with
    | none => s
    | some e => putCmd s { e with
        progress := e.progress ||| (b2n (ln.sticky % 2 == 1 || bitOf ln.sticky 1 || bitOf ln.sticky 3) + 2 * b2n ln.replayed) }

/-- Take a command out of a lane's four places. -/
def unplace (s : State) (l q idx : Nat) : State :=
  let ln := lane s l
  setLane s l { ln with
    queue := ln.queue.filter (fun x => !(x == (q, idx))),
    vecRun := if ln.vecRun = some (q, idx) then none else ln.vecRun,
    vecFault := if ln.vecRun = some (q, idx) then none else ln.vecFault,
    pend := if ln.vecRun = some (q, idx) then [] else ln.pend }

/-- End one lane's part of a command (R109); a product's part that fails clears its tags on the lane (R136). -/
def endPart (s : State) (q idx l status detail : Nat) : State :=
  let s := leaveVec s l q idx status detail
  match findCmd s q idx with
  | none => s
  | some e =>
    let gone := if status = 0 then [] else e.arrays.filter (fun x => x.1 == l)
    let s := putCmd (clearTags s gone) { e with
      arrays := e.arrays.filter (fun x => !gone.contains x),
      parts := e.parts.map (fun p =>
        if p.lane = l ∧ !p.done then { p with done := true, status := status, detail := detail } else p) }
    unplace s l q idx

/-- A command whose parts have all ended, ends (R109). -/
def finishParts (s : State) (q idx : Nat) (result : List Byte) : State :=
  match findCmd s q idx with
  | none => s
  | some e =>
    if e.parts.all (·.done) then
      let (st, d) := partsStatus e.parts
      endCmd s q idx st d (if e.opcode = 0x0110 then laneResult 0 0 0 (bitOf e.progress 0) (bitOf e.progress 1) else result)
    else s

/-- Burn a lane's repair fuse (R154, R400): a spare physical lane serves it from the next start, where one remains and
the one field substitution is unused; both blades must be above 41 V and the Steward up, else the burn waits. After the
substitution a lane that fails stays fenced at every start. A Steward held in fault repairs nothing (R363). -/
def repairLane (s : State) (l : Nat) : State :=
  if isSet s STW_STATE_held then s
  else if s.fuses.subUsed then
    { s with flash := { s.flash with
      fencedLanes := if s.flash.fencedLanes.contains l then s.flash.fencedLanes else l :: s.flash.fencedLanes } }
  else match s.fuses.spares with
    | [] => s
    | sp :: rest =>
      if 41000 < s.pins.bladeA ∧ 41000 < s.pins.bladeB ∧ !s.stw.restarting then
        let old := physLane s l
        let s := { s with fuses := { s.fuses with
          spares := rest, subUsed := true, subLanes := l :: s.fuses.subLanes,
          physLane := tset id s.fuses.physLane l sp } }
        raiseEv s (pgLANE l) evRepairFused [l, old, sp]
      else { s with fuses := { s.fuses with burnDue := s.fuses.burnDue ++ [l] } }

/-- Fence a lane (R13): every command dispatched to it but the one that met the fault ends its part with LANE_FENCED,
the lane takes no further command, lane.fenced is raised, and its repair fuse is burned where R154 and R400 allow. -/
def fenceLane (s : State) (l : Nat) (own : Option (Nat × Nat)) : State :=
  let ln := lane s l
  if ln.fenced then s
  else
    let others := ln.queue.filter (fun x => some x != own)
    let s := others.foldl (fun s x => finishParts (endPart s x.1 x.2 l stLaneFenced 0) x.1 x.2 []) s
    let s := setLane s l { lane s l with fenced := true }
    repairLane (raiseEv s (pgLANE l) evLaneFenced [l, physLane s l, ln.queue.length]) l

/-! ### Parity at rest -/

/-- The package, channel and row of a cellar line as a repair candidate (R219, R230). -/
def candidateOf (a : Nat) : Nat × Nat × Nat :=
  let c := a / 256 % 192
  (c / 8, c % 8, Config.rowOf (a / 256 / 192 * 256 + a % 256))

/-- Enter a failed line's row as a repair candidate (R230): up to fifteen rows of a package; a listed row adds nothing;
a further row raises cel.ppr.exhausted. The list is in the flash log. -/
def addCandidate (s : State) (a : Nat) : State :=
  let (pkg, ch, row) := candidateOf a
  let mine := s.flash.repairs.filter (fun r => r.1 == pkg)
  if mine.contains (pkg, ch, row) then s
  else if 15 ≤ mine.length then raiseEv s pgCEL evPprExhausted [pkg, ch, row / 2 ^ 32, row % 2 ^ 32]
  else
    let s := { s with flash := { s.flash with repairs := s.flash.repairs ++ [(pkg, ch, row)] } }
    setF (setF s (CEL_PKG_STATE_candidates pkg) (mine.length + 1)) CEL_STATE_ppr_pending 1

/-- A line damaged at rest is read (R218, R227): counted, recorded, reported; an attic line fences its lane. own is the
command that met it: its own part on the fenced lane ends with its own status, unless another lane's part met the line
(log entry 95). -/
def failLine (s : State) (line : Nat) (by' : Requester) (own : Option (Nat × Nat)) : State :=
  if regionOf line = .attic then
    let l := atticLane line
    let d := physLane s l / 25
    let off := line - 0x100000000000 - l * 0x2000000
    let s := satF s (ATT_PARITY_failures d) 1
    let s := setF (setF (setF s (ATT_FAIL_lane d) l) (ATT_FAIL_line d) (off / 64)) (ATT_FAIL_valid d) 1
    fenceLane (raiseEv s (pgATT d) evAttFailed [l, off, b2n (by' != .lane l)]) l
      (match by' with | .lane m => if m = l then own else none | _ => own)
  else
    let s := satF s CEL_PARITY_failures 1
    let s := setF (setF (setF s CEL_FAIL_LO_addr line) CEL_FAIL_HI_addr (line / 2 ^ 32)) CEL_FAIL_HI_valid 1
    addCandidate (raiseEv s pgCEL evCelFailed [line, b2n (by' == .patrol)]) line

/-- A line whose re-read passes (R218, R227). -/
def replayLine (s : State) (line : Nat) : State :=
  let s := { s with mem := { s.mem with rereads := s.mem.rereads + 1 } }
  if regionOf line = .attic then
    let l := atticLane line
    let d := physLane s l / 25
    raiseEv (satF s (ATT_PARITY_replays d) 1) (pgATT d) evAttReplayed [l, line - 0x100000000000 - l * 0x2000000]
  else raiseEv (satF s CEL_PARITY_replays 1) pgCEL evCelReplayed [line]

/-- Words of lines that fail as they are read: those whose re-read passes are replayed, the others are damaged at rest
(R218, R227). A line of a region not initialised yet reads zeros with good parity and meets nothing (R226). -/
def meetHits (s : State) (hits : List Hit) (touches : Nat → Bool) : State :=
  let here := hits.filter (fun h => touches (lineOf h.line) && initialised s (lineOf h.line))
  let s := (here.filter (fun h => !h.rest)).foldl (fun s h => replayLine s (lineOf h.line)) s
  { s with mem := { s.mem with
    damaged := s.mem.damaged ++ ((here.filter (·.rest)).map (fun h => lineOf h.line)).filter (fun l => !s.mem.damaged.contains l) } }

/-- A command met a word whose re-read passed between two states. -/
def rereadSince (s t : State) : Bool := s.mem.rereads != t.mem.rereads

/-- Read n bytes of memory for a command or a requester: the words that fail meanwhile are replayed or found damaged at
rest, and a read of a damaged line fails (R218, R227). none where the read fails. -/
def memRead (s : State) (hits : List Hit) (a n : Nat) (by' : Requester) (own : Option (Nat × Nat)) : State × Option (List Byte) :=
  let lines := linesOf a n
  let s := meetHits s hits lines.contains
  match lines.find? (fun l => s.mem.damaged.contains l) with
  | some l => (failLine s l by' own, none)
  | none => (s, some (peek s a n))

/-- A write of n bytes at an address holds no part of a 32-bit word (R228). -/
def wholeWords (a n : Nat) : Bool := a % 4 == 0 && n % 4 == 0

/-- The lines whose old words a write of part of a 32-bit word reads (R228). -/
def partLines (a n : Nat) : List Nat :=
  if n = 0 then []
  else (if a % 4 = 0 then [] else [lineOf a]) ++ (if (a + n) % 4 = 0 then [] else [lineOf (a + n - 1)])

/-- Write bytes to memory (R226, R228): the old word of a partial one is read first, and where its line is damaged the
write is dropped and is a parity failure (false); a line written whole is good again (R218). -/
def memWrite (s : State) (hits : List Hit) (a : Nat) (bs : List Byte) (by' : Requester) (own : Option (Nat × Nat)) :
    State × Bool :=
  let n := bs.length
  let edges := partLines a n
  let s := meetHits s hits edges.contains
  match edges.find? (fun l => s.mem.damaged.contains l) with
  | some l => (failLine s l by' own, false)
  | none => (freshLines (poke s a bs) a n, true)

/-- Leave a range's contents unspecified: free bytes (R113). -/
def scramble (s : State) (a n : Nat) : State :=
  if inMemory a n then let (bs, s) := freshBytes s n; poke s a bs else s

/-- Leave a list of ranges unspecified. -/
def scrambleAll (s : State) (rs : List (Nat × Nat)) : State := rs.foldl (fun s r => scramble s r.1 r.2) s

end Sys2Proof.Machine
end

