-- ==== Sys2Proof/Machine/Cmd.lean ====
section
/-! DEFINITION. The command processor (05_commands): doorbells, fetching, dispatch, and the synchronisation commands. A
command row names a queue's command by its ring index; the row dispatches it when R110 lets it and then runs it. -/

namespace Sys2Proof.Machine

/-! ### Fields the processor reads -/

/-- A queue number the module has. -/
def isQueue (q : Nat) : Bool := decide (q < 64)

/-- The size of a queue's rings (R97). -/
def queueSize (s : State) (q : Nat) : Nat := 2 ^ (6 + getF s (CMD_Q_CFG_size_code q))

/-- Commands of a queue issued and not retired. -/
def queueIssued (s : State) (q : Nat) : Nat := (s.cmds.table.filter (fun e => e.q == q)).length

/-- An address is stadium-global (R265), its device and its local address. -/
def isGlobal (a : Nat) : Bool := bitOf a 63
def globalDev (a : Nat) : Nat := bitsOf a 50 13
def localPart (a : Nat) : Nat := a % 2 ^ 50

/-- A reference that reaches another member's counters. -/
def usesRemote (r : Nat) : Bool := refValid r && refRemote r

/-- A command carries a remote counter reference. -/
def anyRemoteRef (e : CmdEntry) : Bool := usesRemote e.wait0Ref || usesRemote e.wait1Ref || usesRemote e.sigRef

/-- A field of the operand block, read at dispatch. -/
def blockField (s : State) (e : CmdEntry) (o n : Nat) : Nat := leNat (peek s (e.block + o) n)

/-- A DMA.COPY with a stadium-global address (R231). -/
def dmaGlobal (s : State) (e : CmdEntry) : Bool :=
  e.opcode == 0x0201 && (isGlobal (blockField s e 0 8) || isGlobal (blockField s e 8 8))

/-- A command that needs the fabric (R64). -/
def needsFabric (s : State) (e : CmdEntry) : Bool :=
  e.cls == 3 || e.cls == 5 || anyRemoteRef e || dmaGlobal s e
    || (e.opcode == 0x0410 && isGlobal (blockField s e 8 8))
    || (e.opcode == 0x0401 && (blockField s e 24 1 == 3 || (blockField s e 24 1 == 4 && bitOf (blockField s e 25 1) 3)))
    || e.opcode == 0x0604

/-- An epoch-bound command (R123). -/
def epochBound (s : State) (e : CmdEntry) : Bool :=
  e.cls == 3 || e.cls == 4 || e.cls == 5 || e.opcode == 0x0604 || anyRemoteRef e || dmaGlobal s e

/-- How an epoch compares with the current one (R123). -/
inductive EpochCmp where
  | equal | newer | stale
  deriving DecidableEq, Repr

/-- Serial-number order of epochs (R123). -/
def epochCmp (e c : Nat) : EpochCmp :=
  let d := (e + 65536 - c % 65536) % 65536
  if d = 0 then .equal else if d ≤ 32767 then .newer else .stale

/-- What the epoch check says of a command; a HURDLE proceeds when its epoch is newer (R124). -/
def epochTest (s : State) (e : CmdEntry) : EpochCmp :=
  if !epochBound s e then .equal
  else
    let c := epochCmp e.epoch (getF s CMD_EPOCH_current)
    if e.opcode = 0x0604 then (if c = .newer then .equal else .stale) else c

/-- The lanes a command names (R107). -/
def laneList (e : CmdEntry) : List Nat := (List.range e.laneCount).map (· + e.firstLane)

/-- The pages of the units a command runs on (R109). -/
def unitPages (e : CmdEntry) : List Nat :=
  if e.cls = 1 then (laneList e).map pgLANE
  else if e.cls = 2 then (laneList e).map pgLANE ++ (if e.opcode = 0x0201 then [] else [pgNUM])
  else if e.cls = 3 then [pgCOL] else if e.cls = 4 then [pgUPD]
  else if e.cls = 7 then [pgSTW] else if e.cls = 6 then [pgCMD] else []

/-! ### The checks at fetch (R105, R107, R108, R122, R124) -/

/-- The assigned opcodes of R108. -/
def assignedOpcodes : List Nat :=
  [0x0101, 0x0102, 0x0110, 0x0201, 0x0210, 0x0211, 0x0301, 0x0302, 0x0303, 0x0304, 0x0305, 0x0401, 0x0410, 0x0411,
    0x0501, 0x0601, 0x0602, 0x0603, 0x0604, 0x0701]

/-- The operand bytes an opcode leaves reserved are 0. -/
def operandsOk (e : CmdEntry) : Bool :=
  let op := e.opcode
  if op = 0x0601 then zeroAt e.bytes 44 20
  else if op = 0x0602 then decide (leAt e.bytes 44 1 ≤ 1) && zeroAt e.bytes 45 3 && zeroAt e.bytes 56 8
  else if op = 0x0603 then decide (leAt e.bytes 44 1 ≤ 1) && zeroAt e.bytes 45 19
  else if op = 0x0701 then true
  else zeroAt e.bytes 52 12

/-- The reserved bits of a valid counter reference are 0 (R106). -/
def refOk (r : Nat) : Bool := !refValid r || bitsOf r 12 4 == 0

/-- The lanes field is right for the class (R107). -/
def lanesOk (e : CmdEntry) : Bool :=
  if e.cls = 1 ∨ e.cls = 2 then decide (1 ≤ e.laneCount ∧ e.laneCount ≤ 96 ∧ e.firstLane + e.laneCount ≤ 96)
      && bitsOf (leAt e.bytes 8 2) 14 2 == 0
  else leAt e.bytes 8 2 == 0

/-- The command's own fields are well formed (R107). -/
def cmdOk (e : CmdEntry) : Bool :=
  assignedOpcodes.contains e.opcode && leAt e.bytes 2 1 / 8 == 0 && decide (e.timeout < 32) && lanesOk e
    && zeroAt e.bytes 10 2 && refOk e.wait0Ref && refOk e.wait1Ref && refOk e.sigRef && operandsOk e

/-! ### Fetching (R99, R100, R103) -/

/-- A queue whose page serves: enabled and ready. -/
def queueServes (s : State) (q : Nat) : Bool :=
  isSet s (BLK_CTRL_enable (pgCmdQ q)) && blkState s (pgCmdQ q) == 2

/-- Table entries kept free for the other enabled queues that hold fewer than four (R103). -/
def keptFree (s : State) (q : Nat) : Nat :=
  ((List.range 64).map (fun k => if k ≠ q ∧ isSet s (BLK_CTRL_enable (pgCmdQ k)) then 4 - queueIssued s k else 0)).foldl (· + ·) 0

/-- A table entry is free for a queue (R103). -/
def tableRoom (s : State) (q : Nat) : Bool :=
  let free := 1024 - s.cmds.table.length
  if queueIssued s q < 4 then decide (0 < free) else decide (keptFree s q < free)

/-- Completion records written and not consumed. -/
def cqWaiting (s : State) (q : Nat) : Nat :=
  (getF s (CMD_CQ_TAIL_cq_tail q) + 2 ^ 32 - getF s (CMD_CQ_HEAD_cq_head q)) % 2 ^ 32

/-- The conditions of R99, with commands waiting in the ring; nothing is fetched during a function-level reset (R59). -/
def mayFetch (s : State) (q : Nat) : Bool :=
  !s.host.flr && queueServes s q && getF s (CMD_Q_HEAD_head q) != getF s (CMD_Q_TAIL_tail q) && tableRoom s q
    && decide (queueIssued s q < 4 * max 1 (getF s (CMD_Q_CFG_max_issued_div4 q)))
    && decide (queueIssued s q + cqWaiting s q < queueSize s q)

/-- The address of a ring slot. -/
def ringSlot (s : State) (q i : Nat) : Nat :=
  getF s (CMD_Q_BASE_HI_base_hi q) * 2 ^ 32 + getF s (CMD_Q_BASE_LO_base_lo q) * 2 ^ 12 + 64 * (i % queueSize s q)

/-- Put a fetched command in the table (R99); one that breaks R107 ends there with MALFORMED, detail 0. -/
def issueCmd (s : State) (q : Nat) (bytes : List Byte) : State :=
  let i := getF s (CMD_Q_HEAD_head q)
  let e : CmdEntry := { q := q, idx := i, bytes := bytesAt bytes 0 64 }
  let s := { s with cmds := { s.cmds with table := s.cmds.table ++ [e] } }
  let s := setF s (CMD_Q_HEAD_head q) ((i + 1) % 2 ^ 32)
  let s := setF s CMD_INFLIGHT_peak (max (getF s CMD_INFLIGHT_peak) s.cmds.table.length)
  let s := latchAll s
  if cmdOk e then s else endCmd s q i stMalformed 0 []

/-- A fetch that fails stops the queue (R100). -/
def failFetch (s : State) (q : Nat) : State :=
  let i := getF s (CMD_Q_HEAD_head q)
  raiseEv (blkFault s (pgCmdQ q) 1) (pgCmdQ q) evQueueFault [q, i, ringSlot s q i]

/-- Fetch the next command: from host memory as given, or from local memory. -/
def fetchCmd (s : State) (q : Nat) (fetched : Option (List Byte)) : State :=
  if !mayFetch s q then s
  else match fetched with
    | none => failFetch s q
    | some bs =>
      if !isSet s (CMD_Q_CFG_loc q) then issueCmd s q bs
      else
        let a := ringSlot s q (getF s (CMD_Q_HEAD_head q))
        if !inMemory a 64 then failFetch s q
        else match memRead s [] a 64 .network none with
          | (s, some own) => issueCmd s q own
          | (s, none) => failFetch s q

/-- COMMAND_FETCH (R99). -/
def execCommandFetch (q : Nat) (fetched : Option (List Byte)) (s : State) : Host.Outcome State Fault Refusal :=
  onInstance (isQueue q) (fetchCmd s q fetched)

/-- A write to CMD_Q_TAIL (R98). -/
def doorbell (s : State) (q : Nat) (v : Word) : State :=
  let size := queueSize s q
  let head := getF s (CMD_Q_HEAD_head q)
  let old := getF s (CMD_Q_TAIL_tail q)
  if size < (v.toNat + 2 ^ 32 - head) % 2 ^ 32 ∨ size < (v.toNat + 2 ^ 32 - old) % 2 ^ 32 then
    raiseEv (satF s (CMD_Q_STAT_bad_doorbells q) 1) (pgCmdQ q) evDoorbellBad [q, v.toNat, head]
  else setF s (CMD_Q_TAIL_tail q) v.toNat

/-- DOORBELL (R98). -/
def execDoorbell (q : Nat) (v : Word) (s : State) : Host.Outcome State Fault Refusal :=
  onInstance (isQueue q) (onPage s (pgCmdQ q) (doorbell s q v))

/-! ### Dispatch (R110-R112) -/

/-- The table's entries before a command. -/
def earlier (s : State) (e : CmdEntry) : List CmdEntry :=
  s.cmds.table.takeWhile (fun x => !(x.q == e.q && x.idx == e.idx))

/-- The command is its queue's head: every earlier command of its queue has been dispatched, and has retired where the
serial flag or a FENCE asks it; a FENCE over every queue waits for all issued before it (R110, R122). -/
def orderOk (s : State) (e : CmdEntry) : Bool :=
  let before := earlier s e
  let mine := before.filter (fun x => x.q == e.q)
  mine.all (fun x => x.stage != .issued)
    && (!(e.serial || e.opcode == 0x0603) || mine.isEmpty)
    && (!(e.opcode == 0x0603 && bitOf (leAt e.bytes 44 1) 0) || before.isEmpty)

/-- The conditions R64 holds a command for. -/
def startedEnough (s : State) (e : CmdEntry) : Bool :=
  isSet s DEV_START_cellar_ready && (isSet s DEV_START_fabric_ready || !needsFabric s e)

/-- No hurdle in progress holds the command (R124). -/
def hurdleFree (s : State) (e : CmdEntry) : Bool := s.cmds.hurdle.isNone || !epochBound s e

/-- Both waits are satisfied (R110). -/
def waitsOk (e : CmdEntry) : Bool :=
  (!refValid e.wait0Ref || e.wait0 == .latched) && (!refValid e.wait1Ref || e.wait1 == .latched)

/-- The units a command needs accept work: the pages are ready, every lane has a free place (R111), the collective engine
runs fewer than sixteen commands (12_collectives), the gateway fewer than thirty-two (14_milant), and the update engine
fewer than four and no background audit (R307, R317). -/
def unitsOk (s : State) (e : CmdEntry) : Bool :=
  (unitPages e).all (fun p => blkState s p == 2)
    && (e.cls != 3 || decide (s.coll.running.length < 16)) && (e.cls != 5 || decide (s.mil.runs.length < 32))
    && (e.cls != 4 || (s.upd.audits.isEmpty && decide (s.upd.runs.length < 4)))
    && (e.cls == 6 || e.cls == 7 || (laneList e).all (fun l => decide ((lane s l).queue.length < 4)))

/-- A command could be dispatched now (R102's dispatchable head). -/
def dispatchable (s : State) (e : CmdEntry) : Bool :=
  e.stage == .issued && orderOk s e && startedEnough s e && epochTest s e == .equal && hurdleFree s e && waitsOk e
    && unitsOk s e

/-- A queue has had the dispatch slots its weight gives it in this round (R102). -/
def roundSpent (s : State) (q : Nat) : Bool :=
  decide (max 1 (getF s (CMD_Q_CFG_weight q)) ≤ tget (fun _ => 0) s.cmds.rounds q)

/-- Another queue's dispatchable head goes first (R102): one of higher priority, or one of the same priority that still has
slots of the round when this queue has none. -/
def outranked (s : State) (e : CmdEntry) : Bool :=
  let prio := fun (q : Nat) => getF s (CMD_Q_CFG_prio q)
  s.cmds.table.any (fun x =>
    (decide (prio x.q < prio e.q) || (prio x.q == prio e.q && roundSpent s e.q && !roundSpent s x.q)) && dispatchable s x)

/-- A dispatch takes a slot of its queue's round (R102); the queues of a priority begin a new round when one dispatches that
has had all of its slots. The order within a round is the model's (log entry 71). -/
def takeSlot (s : State) (q : Nat) : State :=
  let prio := fun (k : Nat) => getF s (CMD_Q_CFG_prio k)
  let old := if roundSpent s q then s.cmds.rounds.filter (fun x => prio x.1 != prio q) else s.cmds.rounds
  { s with cmds := { s.cmds with rounds := tset (fun _ => 0) old q (tget (fun _ => 0) old q + 1) } }

/-- The status that the rank of a remote reference ends a command with, if any (R117). -/
def refEnd (s : State) (r : Nat) : Option Nat :=
  if !usesRemote r then none
  else match resolveRank s (refRank r) with
    | .unknown => some stRankUnknown
    | .offStadium => some stOffStadium
    | .device _ => none

/-- Take a command's requests for remote waits out of the transaction table (R113, R116). -/
def dropWatches (s : State) (q idx : Nat) : State :=
  { s with fab := { s.fab with txns := s.fab.txns.filter (fun t =>
      match t.who with | .wait a b _ => !(a == q && b == idx) | _ => true) } }

/-- End a command that waits: it withdraws its remote watches (R113, R116). -/
def endWaiting (s : State) (e : CmdEntry) (status detail : Nat) : State :=
  dropWatches (endCmd s e.q e.idx status detail []) e.q e.idx

/-- The local address of a lap counter (R114). -/
def lapAddr (n : Nat) : Nat := 0x120000000000 + 8 * n

/-- Send the watch of wait w of a command that waits on another member's counter (R116); false where the destination is
unreachable and the command has ended with REMOTE_ERROR, detail 3. -/
def sendWatch (s : State) (e : CmdEntry) (w : Nat) : State × Bool :=
  let ref := if w = 0 then e.wait0Ref else e.wait1Ref
  let val := if w = 0 then e.wait0Val else e.wait1Val
  let st := if w = 0 then e.wait0 else e.wait1
  if usesRemote ref ∧ st = .idle then
    match resolveRank s (refRank ref) with
    | .device d =>
      if d = myId s ∨ !txnRoom s 2 then (s, true)
      else
        match sendReq s 2 d 0x07 (lapAddr (refIndex ref)) 8 val [] (.wait e.q e.idx w) with
        | (s, true) =>
          match findCmd s e.q e.idx with
          | some e => (putCmd s (if w = 0 then { e with wait0 := .asked } else { e with wait1 := .asked }), true)
          | none => (s, true)
        | (s, false) => (endWaiting s e stRemoteError 3, false)
    | _ => (s, true)
  else (s, true)

def evEntryFailed : Ev := ⟨0x5803, 3⟩

/-- Routing and role entries that fail parity when they are looked up (R391): the destination is unreachable, or the rank
unknown, until the next table load. -/
def failEntries (s : State) (sur : Surround) : State :=
  let s := sur.routeFails.foldl (fun s d =>
    if s.fab.badRoutes.contains d then s
    else raiseEv { s with fab := { s.fab with badRoutes := s.fab.badRoutes ++ [d] } } pgRTE evEntryFailed [0x100 + d / 128, d % 128]) s
  sur.roleFails.foldl (fun s r =>
    if s.fab.badRoles.contains r then s
    else raiseEv { s with fab := { s.fab with badRoles := s.fab.badRoles ++ [r] } } pgRTE evEntryFailed [0x140 + r / 256, r % 256]) s

/-- What the last checks at dispatch say: go, or end with a status and a detail. -/
def dispatchEnd (s : State) (e : CmdEntry) (tableFails : Bool) : Option (Nat × Nat) :=
  if tableFails then some (stParity, 11)
  else if 1 ≤ e.cls ∧ e.cls ≤ 5 ∧ !isSet s NUM_JOB_job_valid then some (stArithMismatch, 1)
  else if (e.cls = 1 ∨ e.cls = 2) ∧ (laneList e).any (fun l => (lane s l).fenced) then some (stLaneFenced, 0)
  else if (unitPages e).any (fun p => blkState s p == 4) then some (stUnitFault, 0)
  else none

/-- Try to dispatch a command: the state after, and whether it is dispatched now (R110, R112, R116, R117, R123). While a
hurdle is in progress epoch-bound commands are held, other hurdles among them, whatever their epoch (R124). -/
def admitCmd (s : State) (e : CmdEntry) (tableFails : Bool) : State × Bool :=
  if e.stage ≠ .issued ∨ !orderOk s e ∨ !startedEnough s e ∨ !hurdleFree s e then (s, false)
  else if anyRemoteRef e ∧ epochTest s e = .stale then (endWaiting s e stEpochStale 0, false)
  else if anyRemoteRef e ∧ epochTest s e = .newer then (s, false)
  else match [e.wait0Ref, e.wait1Ref, e.sigRef].findSome? (refEnd s) with
    | some st => (endWaiting s e st 0, false)
    | none =>
      match sendWatch s e 0 with
      | (s, false) => (s, false)
      | (s, true) =>
        match sendWatch s ((findCmd s e.q e.idx).getD e) 1 with
        | (s, false) => (s, false)
        | (s, true) =>
          let e := (findCmd s e.q e.idx).getD e
          if !waitsOk e then (s, false)
          else if epochTest s e = .stale then (endWaiting s e stEpochStale 0, false)
          else if epochTest s e = .newer ∨ outranked s e then (s, false)
          else match dispatchEnd s e tableFails with
            | some (st, d) => (endWaiting s e st d, false)
            | none => (s, unitsOk s e)

/-- Run a body on a command that is dispatched now; the row changes nothing where the table holds no such command or the
command has another opcode. -/
def onDispatch (s : State) (q idx : Nat) (ok : CmdEntry → Bool) (sur : Surround) (body : State → CmdEntry → State) : State :=
  match findCmd s q idx with
  | none => s
  | some e =>
    if !ok e then s
    else match admitCmd (failEntries s sur) e sur.table with
      | (s, true) => takeSlot (body s e) q
      | (s, false) => s

/-- The body of an engine's command, after the words of its path (R392): where one is lost the command ends with PARITY,
detail 10, and nothing is formed from it. The word lost is one of the first the engine moves (log entry 104). -/
def onStages (page : Nat) (sur : Surround) (body : State → CmdEntry → State) (s : State) (e : CmdEntry) : State :=
  match stageWords s page e.cmdId sur.stage with
  | (s, true) => body s e
  | (s, false) => endCmd s e.q e.idx stParity 10 []

/-- Place a lane-class or data-class command on the lanes it names (R109, R111). -/
def placeCmd (s : State) (e : CmdEntry) : State :=
  let s := putCmd s { e with stage := .placed, parts := (laneList e).map (fun l => { lane := l }) }
  (laneList e).foldl (fun s l => setLane s l { lane s l with queue := (lane s l).queue ++ [(e.q, e.idx)] }) s

/-- The command is at the front of every lane it still runs on (R111). -/
def atFront (s : State) (e : CmdEntry) : Bool :=
  e.parts.all (fun p => p.done || ((lane s p.lane).queue.head? == some (e.q, e.idx) && !(lane s p.lane).resetting))

/-- Dispatch a lane-class or data-class command and, when it is first on all its lanes, run it: the body gets the command
as it runs (R109-R111). -/
def onLanes (s : State) (q idx : Nat) (ok : CmdEntry → Bool) (sur : Surround) (body : State → CmdEntry → State) : State :=
  let s := onDispatch s q idx ok sur placeCmd
  match findCmd s q idx with
  | none => s
  | some e =>
    if ok e ∧ e.stage = .placed ∧ atFront s e then
      let e := { e with stage := .running }
      body (putCmd s e) e
    else s

/-- End every part of a command that has not ended, with one status, and so the command (R109). -/
def endAllParts (s : State) (q idx status detail : Nat) (result : List Byte) : State :=
  match findCmd s q idx with
  | none => s
  | some e =>
    finishParts (e.parts.foldl (fun s p => if p.done then s else endPart s q idx p.lane status detail) s) q idx result

/-! ### The synchronisation commands (R122) -/

/-- End a dispatched synchronisation command. -/
def endSync (st d : Nat) (s : State) (e : CmdEntry) : State := endCmd s e.q e.idx st d []

/-- LAP_WAIT (R122): retires once its waits are satisfied. -/
def execLapWait (q idx : Nat) (sur : Surround) (s : State) : Host.Outcome State Fault Refusal :=
  onInstance (isQueue q) (onDispatch s q idx (fun e => e.opcode == 0x0601) sur (endSync stOK 0))

/-- LAP_SIGNAL_ADD (R122): LAP.SIGNAL with operand 0. -/
def execLapSignalAdd (q idx : Nat) (sur : Surround) (s : State) : Host.Outcome State Fault Refusal :=
  onInstance (isQueue q)
    (onDispatch s q idx (fun e => e.opcode == 0x0602 && leAt e.bytes 44 1 == 0) sur (endSync stOK 0))

/-- LAP_SIGNAL_STORE (R122): LAP.SIGNAL with operand 1; the store is made as its signal. -/
def execLapSignalStore (q idx : Nat) (sur : Surround) (s : State) : Host.Outcome State Fault Refusal :=
  onInstance (isQueue q)
    (onDispatch s q idx (fun e => e.opcode == 0x0602 && leAt e.bytes 44 1 == 1) sur (endSync stOK 0))

/-- FENCE (R122): dispatched only after the commands it names have retired. -/
def execFence (q idx : Nat) (sur : Surround) (s : State) : Host.Outcome State Fault Refusal :=
  onInstance (isQueue q) (onDispatch s q idx (fun e => e.opcode == 0x0603) sur (endSync stOK 0))

/-! ### Ending commands from outside -/

/-- End a command that has not ended and take it from its lanes (R59, R101, R113). -/
def stopCmd (s : State) (q idx status detail : Nat) (result : List Byte) : State :=
  match findCmd s q idx with
  | none => s
  | some e =>
    let s := e.parts.foldl (fun s p => unplace (leaveVec s p.lane q idx status detail) p.lane q idx) s
    let result := match findCmd s q idx with
      | some e => if e.opcode = 0x0110 then laneResult 0 0 0 (bitOf e.progress 0) (bitOf e.progress 1) else result
      | none => result
    dropWatches (endCmd s q idx status detail result) q idx

/-- A HURDLE stands in steps 1 to 4 (R124): its step 5 has not changed the epoch yet. -/
def hurdleOpen (s : State) : Bool := s.cmds.hurdle.isSome && !s.cmds.hurdlePassed

/-- The engines all of whose commands are epoch-bound read held while a hurdle holds their commands, and ready again after
it (R75; log entry 96). -/
def heldPages : List Nat := [pgCOL, pgUPD]
def hurdleHold (s : State) : State := heldPages.foldl (fun s p => if blkState s p = 2 then setBlk s p 5 else s) s
def hurdleRelease (s : State) : State := heldPages.foldl (fun s p => if blkState s p = 5 then setBlk s p 2 else s) s

/-- A hurdle that ends early: target returns to current and dispatch resumes (R124, R125). -/
def dropHurdle (s : State) (q idx : Nat) : State :=
  if s.cmds.hurdle = some (q, idx) ∧ !s.cmds.hurdlePassed then
    hurdleRelease (setF { s with cmds := { s.cmds with hurdle := none } } CMD_EPOCH_target (getF s CMD_EPOCH_current))
  else s

end Sys2Proof.Machine
end

