-- ==== Sys2Proof/Machine/Profile.lean ====
section
/-! DEFINITION. Profiles (16_pacers R380, R386, R387): the record's check, its fields, and applying it; the training
queue of R65. -/

namespace Sys2Proof.Machine

/-- A profile's fields (R386). -/
structure Prof where
  capW : Nat
  basePace : Nat
  lanePower : Nat
  ports : Nat
  extents : Nat
  arb : Nat
  milCfg : Word
  milTiming : Word
  tim : Nat
  timServe : Nat
  evqSev : Nat
  evqHoldoff : Nat
  evqThreshold : Nat
  entries : List (Nat × List Byte)
  deriving DecidableEq, Repr

/-- The pages whose has_user_cal is 1 (R385): PAC, CEL packages and TIM. -/
def hasUserCal (page : Nat) : Bool :=
  decide ((0x010 ≤ page ∧ page ≤ 0x013) ∨ (0x081 ≤ page ∧ page ≤ 0x098) ∨ page = 0x00E)

/-- The fields of a record. -/
def profOf (r : List Byte) : Prof where
  capW := leAt r 8 2
  basePace := leAt r 10 1
  lanePower := leAt r 11 1
  ports := leAt r 12 4
  extents := leAt r 16 1
  arb := leAt r 17 1
  milCfg := BitVec.ofNat 32 (leAt r 20 4)
  milTiming := BitVec.ofNat 32 (leAt r 24 4)
  tim := leAt r 28 4
  timServe := leAt r 32 4
  evqSev := leAt r 36 1
  evqHoldoff := leAt r 38 2
  evqThreshold := leAt r 40 2
  entries := (List.range (leAt r 6 2)).map (fun i => (leAt r (64 + 520 * i) 2, bytesAt r (72 + 520 * i) 512))

/-- Profile 3 (R387). -/
def profile3 : Prof where
  capW := 1200
  basePace := 8
  lanePower := 0
  ports := 0
  extents := 0
  arb := 0
  milCfg := resetWord 0x1D140
  milTiming := resetWord 0x1D144
  tim := 31
  timServe := (resetWord 0xE104).toNat
  evqSev := 0xFF
  evqHoldoff := 0
  evqThreshold := 1
  entries := []

/-- The check of a record for slot n (R386, R382). -/
def profOk (n : Nat) (r : List Byte) : Bool :=
  let k := leAt r 6 2
  leAt r 0 4 == 0x4B375046 && leAt r 4 1 == 1 && leAt r 5 1 == n && decide (k ≤ 128)
    && decide (r.length = 64 + 520 * k)
    && decide (600 ≤ leAt r 8 2) && decide (leAt r 10 1 ≤ 16) && leAt r 11 1 / 8 == 0 && leAt r 15 1 == 0
    && leAt r 17 1 / 4 == 0 && zeroAt r 18 2 && leAt r 28 1 / 32 == 0 && zeroAt r 30 2 && leAt r 37 1 == 0
    && leAt r 32 4 / 2 ^ 22 == 0 && zeroAt r 42 18
    && (List.range k).all (fun i => hasUserCal (leAt r (64 + 520 * i) 2) && zeroAt r (66 + 520 * i) 6)
    && leAt r 60 4 == crc32c (r.take 60 ++ r.drop 64)

/-- The pace level in force from its terms (R380), on every die's page. -/
def settlePace (s : State) : State :=
  let l := min 16 (max (getF s (PAC_STATE_base_pace 0)) (max (getF s (PAC_STATE_cap_level 0))
    (max (getF s (PAC_STATE_therm_level 0)) (if isSet s (PAC_STATE_cel_hold 0) then 4 else 0))))
  (List.range 4).foldl (fun s d => setF s (PAC_STATE_level d) l) s

/-- Set a pace term on every die's page. -/
def setPace (s : State) (f : Nat → Fld) (v : Nat) : State :=
  settlePace ((List.range 4).foldl (fun s d => setF s (f d) v) s)

/-- Write a page's user calibration area (R386): the words' user bits. -/
def writeUserCal (s : State) (page : Nat) (bytes : List Byte) : State :=
  (List.range 128).foldl (fun s i =>
    let a := page * 0x1000 + 0xE00 + 4 * i
    match regAt a with
    | none => s
    | some r => setReg s a (BitVec.ofNat 32 (leAt bytes (4 * i) 4 &&& (r.rw ||| r.rwu)))) s

/-- The event defaults of the profile on every ring that is not enabled (R386). -/
def applyEventDefaults (s : State) : State :=
  (List.range 16).foldl (fun s n =>
    if ringOn s n then s
    else setF (setF (setF s (EVQ_CFG_sev_mask n) s.pac.evqSev) (EVQ_MOD_holdoff n) s.pac.evqHoldoff)
      (EVQ_MOD_threshold n) s.pac.evqThreshold) s

/-- The stadium ports a profile may enable here: none with an invalid strap (R44), no ring port on a reserve (R45). -/
def portMask (s : State) : Nat :=
  if !isSet s DEV_STRAP_id_valid then 0 else if isReserve s then 0xFFFF else 0xFFFFF

/-- The user calibration areas of a profile: listed pages from the profile, the others 0 (R386). -/
def applyUserCal (s : State) (p : Prof) : State :=
  let s := ((List.range 4).map pgPAC ++ (List.range 24).map pgCelPkg ++ [pgTIM]).foldl (fun s g => writeUserCal s g []) s
  p.entries.foldl (fun s e => writeUserCal s (e.1 % 4096) e.2) s

/-- Take a time source and PTP domain (R340): a new source is acquired afresh, or none is followed. -/
def applyTimSrc (s : State) (src dom : Nat) : State :=
  let changed := src != getF s TIM_SRC_source
  let s := setF (setF s TIM_SRC_source src) TIM_SRC_domain dom
  if changed then
    setF (setF { s with tim := { s.tim with exch := [], sync := none, asked := none } } TIM_SERVO_state (if src = 31 then 0 else 1))
      TIM_SERVO_lock_count 0
  else s

/-- Apply a profile's fields (R386). allow_x and allow_y are kept for the step that sets them. -/
def applyProfile (s : State) (p : Prof) (keepCal : Bool) : State :=
  let s := if keepCal then s else applyUserCal s p
  let s := (List.range 96).foldl (fun s l => setReg s (LANE_POWER_hold_on l).addr (BitVec.ofNat 32 (p.lanePower % 8))) s
  let s := setF (setF s FAB_GEOM_extent_x (p.extents % 16 + 1)) FAB_GEOM_extent_y (p.extents / 16 % 16 + 1)
  let s := setF s FAB_ARB_arb_intent (p.arb % 4)
  let s := setReg (setReg s (MIL_CFG_relay_cap 0).addr p.milCfg) (MIL_TIMING_relay_timeout 0).addr p.milTiming
  let s := applyTimSrc s (p.tim % 32) (p.tim / 256 % 256)
  let s := setF (setF s TIM_SERVE_stadium (p.timServe % 2 ^ 20)) TIM_SERVE_milant (p.timServe / 2 ^ 20 % 4)
  let s := { s with pac := { s.pac with
    extents := p.extents, ports := p.ports % 2 ^ 20 &&& portMask s, milPorts := p.ports / 2 ^ 20 % 4,
    allowX := bitOf p.ports 22, allowY := bitOf p.ports 23,
    evqSev := p.evqSev, evqHoldoff := p.evqHoldoff, evqThreshold := p.evqThreshold } }
  let s := setF (applyEventDefaults s) (PAC_CAP_cap_w 0) (min 2800 p.capW)
  setPace s PAC_STATE_base_pace p.basePace

/-- The profile of a slot, if its record passes (slot 3 is the factory's and passes unless its flash fails). -/
def slotProfile (s : State) (n : Nat) : Option Prof :=
  if n = 3 then some profile3
  else let r := tget (fun _ => []) s.flash.profiles n
    if profOk n r then some (profOf r) else none

/-! ### The training queue (R65) -/

/-- h of R65. -/
def hashOf (s : State) : Nat := (myId s * 40503) % 65536

/-- The batch a module begins at (R65). -/
def firstBatch (s : State) : Nat := (hashOf s / 256) % (if isReserve s then 4 else 5)

/-- The training queue of R65: the enabled ports by batch from b0, ascending in each. -/
def trainingQueue (s : State) : List Nat :=
  let n := if isReserve s then 4 else 5
  ((List.range n).flatMap (fun i => (List.range 4).map (fun k => (firstBatch s + i) % n * 4 + k))).filter
    (fun p => bitOf s.pac.ports p)

end Sys2Proof.Machine
end

