-- ==== Sys2Proof/Machine/Power.lean ====
section
/-! DEFINITION. Supplies, resets and clocks (02_module, 03_first_second): the start of the module and what each reset
returns to its start state. -/

namespace Sys2Proof.Machine

/-- A row of the hardware's life takes effect only while the module runs. -/
def whileRunning (s t : State) : State := if s.life = .running then t else s

/-! ### Keeper drives (R52, R53) -/

/-- Set a keeper drive's level, counting a transition. -/
def driveKeeper (s : State) (axisY level : Bool) : State :=
  let f := if axisY then FAB_KEEP_hold_y else FAB_KEEP_hold_x
  if isSet s f = level then s else satF (setF s f (b2n level)) FAB_KEEP_hold_changes 1

/-- Release both keeper drives in hardware (R53). -/
def releaseKeepers (s : State) : State := driveKeeper (driveKeeper s false false) true false

/-! ### Starts (R43, R44, R56, R58) -/

/-- The DEV_STRAP word of sampled straps (R43, R44): position bits 12 to 0, profile bits 17 and 16. The operand holds
POS_SLOT, POS_X, POS_Y in bits 12 to 0 and PROF_SEL in bits 17 and 16. -/
def strapWord (straps : BitVec 18) : Word :=
  let n := straps.toNat
  BitVec.ofNat 32 (n % 2 ^ 13 + (if n % 32 ≤ 16 then 2 ^ 13 else 0) + n / 2 ^ 16 * 2 ^ 16)

/-- The RST_CAUSE word of a start. -/
def causeWord : Cause → Word
  | .powerOn => 1 | .modRst => 2 | .thermal => 4 | .supply => 8

/-- Everything at its start state (R58): flash and fuses are kept, and what is outside the module, its pins' levels, what
it has sent and the commands that wait. -/
def freshState (s : State) (cause : Cause) (strap : Word) : State :=
  { pending := s.pending, out := s.out, freeCtr := s.freeCtr, fuses := s.fuses, flash := s.flash,
    life := .running, cause := cause,
    pins := { bladeA := s.pins.bladeA, bladeB := s.pins.bladeB, sysRef := s.pins.sysRef, netRef := s.pins.netRef,
              perstN := s.pins.perstN, modRstN := s.pins.modRstN },
    regs := tset resetWord (tset resetWord [] 0x140 strap) 0x2100 (causeWord cause) }

/-- Lock bits of a domain (R57). -/
def setLock (s : State) (d : Nat) (on : Bool) : State :=
  if d < 32 then setReg s CLK_LOCK_LO_lock_lo.addr (insertBits (reg s CLK_LOCK_LO_lock_lo.addr) d 1 (b2n on))
  else setReg s CLK_LOCK_HI_lock_hi.addr (insertBits (reg s CLK_LOCK_HI_lock_hi.addr) (d - 32) 1 (b2n on))

/-- A domain's lock bit. -/
def isLocked (s : State) (d : Nat) : Bool :=
  if d < 32 then bitOf (reg s CLK_LOCK_LO_lock_lo.addr).toNat d else bitOf (reg s CLK_LOCK_HI_lock_hi.addr).toNat (d - 32)

/-- A domain runs from REFCLK_NET (R57). -/
def fromNet (d : Nat) : Bool := decide ((25 ≤ d ∧ d ≤ 36) ∨ d = 38)

/-- Enabled blocks are starting from step 1 on (R75, R404). -/
def startBlocks (s : State) : State :=
  allPages.foldl (fun s p => if isSet s (BLK_CTRL_enable p) then setBlk s p 1 else s) s

/-- Step 1 of start-up: fuses loaded, factory calibration copied, the root PLL and every domain whose reference is
present locked (R56, R57). Step 1 names the root PLL and its dividers; that the domains with a PLL or a source of their
own, 13 to 38, lock with it is the model's choice (log entry 90). JTAG's domain 39 follows TCK and reads unlocked. -/
def loadFuses (s : State) : State :=
  let s := s.fuses.words.foldl (fun s e => setReg s e.1 e.2) s
  let s := { s with fuses := { s.fuses with loadedLane := s.fuses.physLane, loadedSub := s.fuses.subLanes } }
  let s := (List.range 39).foldl (fun s d => if fromNet d ∧ !s.pins.netRef then s else setLock s d true) s
  let s := setF (setF (setF s CLK_STATUS_root_lock 1) CLK_STATUS_sys_ref_ok 1) CLK_STATUS_net_ref_ok (b2n s.pins.netRef)
  startBlocks (setF s DEV_START_fuses_done 1)

/-- Begin a start at t = 0: straps sampled, an invalid slot reported (R44), the reserve's and the member's first batch
(R65), and step 1 where REFCLK_SYS is present (R56). -/
def bootStart (s : State) (cause : Cause) (strap : Word) : State :=
  let s := freshState s cause strap
  let s := setF s DEV_START_profile (getF s DEV_STRAP_prof_sel)
  let s := setF s FAB_TRAIN_first_batch (firstBatch s)
  let s := if isSet s DEV_STRAP_id_valid then s else raiseEv s pgDEV evStrapInvalid [(reg s 0x140).toNat]
  if s.pins.sysRef then loadFuses s else s

/-- POWER_ON (R36, R43, R58): both blades above 39 V, and the straps are sampled. A start that follows a thermal shutdown
waits for THERMAL_RESTART; with MOD_RST_N low the module is held in reset until its rising edge (R42). -/
def powerOn (s : State) (straps : BitVec 18) (bladeA bladeB : Nat) (sysRef netRef : Bool) : State :=
  if s.life = .off ∧ 39000 < bladeA ∧ 39000 < bladeB then
    let s := { s with pins := { s.pins with bladeA := bladeA, bladeB := bladeB, sysRef := sysRef, netRef := netRef } }
    let w := strapWord straps
    if s.hot then { setReg s 0x140 w with life := .thermalStop, pulsed := true, pins := { s.pins with faultN := true } }
    else if s.pins.modRstN then bootStart s s.cause w
    else { freshState s s.cause w with life := .heldInReset }
  else s

def execPowerOn (straps : BitVec 18) (bladeA bladeB : Nat) (sysRef netRef : Bool) (s : State) : Host.Outcome State Fault Refusal :=
  .next (powerOn s straps bladeA bladeB sysRef netRef)

/-- SUPPLY_STOP (R36): a blade below 37 V for 50 µs is loss of power, and an unpowered module drives nothing but PRESENT_N
(R40), so FAULT_N is released. -/
def supplyStop (s : State) (bladeB : Bool) (millivolts : Nat) : State :=
  if s.life ≠ .off ∧ millivolts < 37000 then
    { pending := s.pending, out := s.out, freeCtr := s.freeCtr, fuses := s.fuses, flash := s.flash,
      life := .off, cause := if s.hot then .thermal else .supply, hot := s.hot, regs := [],
      pins := { bladeA := if bladeB then s.pins.bladeA else millivolts,
                bladeB := if bladeB then millivolts else s.pins.bladeB,
                modRstN := s.pins.modRstN, perstN := s.pins.perstN, sysRef := s.pins.sysRef, netRef := s.pins.netRef } }
  else s

def execSupplyStop (bladeB : Bool) (millivolts : Nat) (s : State) : Host.Outcome State Fault Refusal :=
  .next (supplyStop s bladeB millivolts)

/-- MOD_RST_FALL (R42, R53). -/
def modRstFall (s : State) : State :=
  let s' := { s with pins := { s.pins with modRstN := false } }
  match s.life with
  | .off => s'
  | .thermalStop => s'
  | _ => { releaseKeepers s' with life := .heldInReset }

def execModRstFall (s : State) : Host.Outcome State Fault Refusal := .next (modRstFall s)

/-- MODULE_RESET (R42, R43, R58): MOD_RST_N rises after at least 10 µs low, and the straps are sampled. After thermal
shutdown it counts as the pulse R41 asks for. -/
def moduleReset (s : State) (straps : BitVec 18) : State :=
  if s.pins.modRstN then s
  else
    let s := { s with pins := { s.pins with modRstN := true } }
    match s.life with
    | .heldInReset => bootStart s .modRst (strapWord straps)
    | .thermalStop => { setReg s 0x140 (strapWord straps) with pulsed := true }
    | _ => s

def execModuleReset (straps : BitVec 18) (s : State) : Host.Outcome State Fault Refusal := .next (moduleReset s straps)

/-- THERMAL_SHUTDOWN (R41, R53, R383): a junction of any die at or above 110 °C: compute dies 0 to 3, and the I/O dies as 4
and 5, whose event comes from the last PAC page (log entry 93). -/
def thermalShutdown (s : State) (die : Nat) (celsius : Int) : State :=
  if s.life = .running ∧ 110 ≤ celsius then
    let s := raiseEv s (pgPAC (min die 3)) ⟨0x1005, 5⟩ [die, unsigned 32 (4 * celsius)]
    let s := if isSet s FAB_KEEP_hold_x then raiseEv s pgFAB ⟨0x5007, 1⟩ [0, 1] else s
    let s := if isSet s FAB_KEEP_hold_y then raiseEv s pgFAB ⟨0x5007, 1⟩ [1, 1] else s
    let s := releaseKeepers s
    { s with life := .thermalStop, hot := true, pulsed := false, pins := { s.pins with faultN := true } }
  else s

def execThermalShutdown (die : Nat) (celsius : Int) (s : State) : Host.Outcome State Fault Refusal :=
  onInstance (decide (die < 6)) (thermalShutdown s die celsius)

/-- THERMAL_RESTART (R41, R43): after a pulse of MOD_RST_N or a power cycle, with every junction below 90 °C by the factory
trim, and with the straps sampled then. -/
def thermalRestart (s : State) (junctions : List Int) : State :=
  if s.life = .thermalStop ∧ s.pulsed ∧ s.pins.modRstN ∧ junctions.all (fun t => decide (t < 90)) then
    bootStart s .thermal (reg s 0x140) else s

def execThermalRestart (compute io : List Int) (s : State) : Host.Outcome State Fault Refusal :=
  .next (thermalRestart s (compute ++ io))

/-! ### Supplies and coolant in service -/

/-- THERM_WARN_N is asserted; R41 joins its two causes at the pin. -/
def thermWarnN (s : State) : Bool := s.pins.thermWarn || s.pins.riseWarn

/-- FAULT_N is asserted (R41): thermal shutdown, a boot that fails or a held Steward, which faultN holds, or a blade supply
fault, which the model takes to stand while low_a or low_b reads 1 (log entry 81). -/
def faultDriven (s : State) : Bool :=
  s.pins.faultN || (s.life != .off && (isSet s DEV_SUPPLY_low_a || isSet s DEV_SUPPLY_low_b))

/-- A numeric sensor's reading (R49). -/
def sensor (s : State) (n : Nat) : Option Int :=
  match n with
  | 0 => some s.pins.bladeA
  | 1 => some s.pac.mAmpA
  | 2 => some s.pins.bladeB
  | 3 => some s.pac.mAmpB
  | 4 => some (getF s (PAC_CAP_power_w 0))
  | 5 => some s.pac.inlet
  | 6 => some s.pac.outlet
  | 7 => some s.pac.hottest
  | _ => none

/-- SMB_ALERT_N is asserted while a sensor is past its threshold (R49). -/
def settleAlert (s : State) : State :=
  { s with pins := { s.pins with
    smbAlert := s.host.thresholds.any (fun t => match sensor s t.1 with | some v => decide (t.2 < v) | none => false) } }

/-- COOLANT_RISE (R34): temperatures in 0.01 K. The rule does not say when THERM_WARN_N is released again; it stays asserted
until the next start (log entry 80). -/
def coolantRise (s : State) (inlet outlet : Int) : State :=
  if s.life = .running ∧ 2200 < outlet - inlet then
    let s := { s with pac := { s.pac with inlet := inlet, outlet := outlet }, pins := { s.pins with riseWarn := true } }
    settleAlert (raiseEv s pgDEV evCoolantRise [unsigned 32 inlet, unsigned 32 outlet])
  else s

def execCoolantRise (inlet outlet : Int) (s : State) : Host.Outcome State Fault Refusal := .next (coolantRise s inlet outlet)

/-- SUPPLY_LOW (R95, DEV_SUPPLY): a blade below 41 V for 1 ms; its voltage in 20 mV steps. -/
def supplyLow (s : State) (bladeB : Bool) (steps : Nat) : State :=
  if s.life = .running ∧ 20 * steps < 41000 then
    let s := { s with pins := if bladeB then { s.pins with bladeB := 20 * steps } else { s.pins with bladeA := 20 * steps } }
    let s := setF s (if bladeB then DEV_SUPPLY_blade_b else DEV_SUPPLY_blade_a) steps
    let s := setF s (if bladeB then DEV_SUPPLY_low_b else DEV_SUPPLY_low_a) 1
    settleAlert (raiseEv s pgDEV evSupplyLow [b2n bladeB, steps])
  else s

def execSupplyLow (bladeB : Bool) (steps : Nat) (s : State) : Host.Outcome State Fault Refusal := .next (supplyLow s bladeB steps)

/-! ### Clocks (R56, R57) -/

/-- ROOT_PLL_RETRY (R56): the root PLL tries again; when it locks, step 1 completes. -/
def rootPllRetry (s : State) (locks : Bool) : State :=
  if s.life = .running ∧ !isSet s DEV_START_fuses_done ∧ locks then
    loadFuses { s with pins := { s.pins with sysRef := true } }
  else s

def execRootPllRetry (locks : Bool) (s : State) : Host.Outcome State Fault Refusal := .next (rootPllRetry s locks)

/-- A domain's reference goes missing: its status bit reads 0 (R56). Domain 39 runs from TCK, of which no bit tells. -/
def loseRef (s : State) (d : Nat) : State :=
  if fromNet d then setF { s with pins := { s.pins with netRef := false } } CLK_STATUS_net_ref_ok 0
  else if d = 39 then s
  else setF { s with pins := { s.pins with sysRef := false } } CLK_STATUS_sys_ref_ok 0

/-- CLOCK_UNLOCK (R56, R57, CLK_STATUS.relock_count): refLost says that the reference the domain runs from is missing. -/
def clockUnlock (s : State) (d : Nat) (refLost : Bool) : State :=
  if s.life = .running ∧ isLocked s d then
    let s := if refLost then loseRef s d else s
    raiseEv (satF (setLock s d false) CLK_STATUS_relock_count 1) pgCLK evClkUnlock [d]
  else s

def execClockUnlock (loss : ClockLoss) (s : State) : Host.Outcome State Fault Refusal :=
  onInstance (decide (loss.domain < 40)) (clockUnlock s loss.domain loss.refLost)

/-- CLOCK_DOMAIN_RELOCK (R57): the lock bit and the reference's status return to 1. -/
def clockDomainRelock (s : State) (d : Nat) : State :=
  if s.life = .running ∧ isSet s DEV_START_fuses_done ∧ !isLocked s d then
    let s := setLock s d true
    if fromNet d then setF { s with pins := { s.pins with netRef := true } } CLK_STATUS_net_ref_ok 1
    else if d = 39 then s
    else setF { s with pins := { s.pins with sysRef := true } } CLK_STATUS_sys_ref_ok 1
  else s

def execClockDomainRelock (domain : Nat) (s : State) : Host.Outcome State Fault Refusal :=
  onInstance (decide (domain < 40)) (clockDomainRelock s domain)

/-! ### PCIe (R58, R59, R62, R82) -/

/-- PERST_ASSERT (R42, R58): the PCIe link and endpoint are reset; the rest follows at its end. -/
def perstAssert (s : State) : State :=
  if s.life = .running ∧ s.pins.modRstN ∧ s.pins.perstN then
    let s := satF { s with pins := { s.pins with perstN := false } } RST_CAUSE_perst_count 1
    let s := setF (setF (setF s HIF_LINK_gen 0) HIF_LINK_width 0) HIF_LINK_flit_mode 0
    { s with host := { s.host with linkUp := false, gen := 0, width := 0, flitMode := false, doe := none } }
  else s

def execPerstAssert (s : State) : Host.Outcome State Fault Refusal := .next (perstAssert s)

/-- Close every expert area (R78). -/
def closeExperts (s : State) : State := allPages.foldl (fun s p => setF s (BLK_CTRL_expert_open p) 0) s

/-- Take every command away without a record and without a signal (R59): lanes and engines stop. The table references
that the commands held stay counted (R247 keeps the references), and an array's clock that hold_on keeps stays on (R58,
R151). -/
def abandonCmds (s : State) : State :=
  let s := hurdleRelease (s.cmds.table.foldl (fun s e => dropWatches s e.q e.idx) s)
  let s := { s with cmds := {}, num := { s.num with waiting := s.num.waiting.filter (·.window) } }
  let s := { s with lanes := s.lanes.map (fun l => (l.1, { l.2 with
    queue := [], vecRun := none, pend := [],
    leftOn := l.2.leftOn && isSet s (LANE_POWER_hold_on l.1), rightOn := l.2.rightOn && isSet s (LANE_POWER_hold_on l.1) })) }
  setF s CMD_EPOCH_target (getF s CMD_EPOCH_current)

/-- The pages a function-level reset returns to their start values: HIF, EVQ and the queue pages, EVQ_SEQ kept. -/
def flrPages (s : State) : State :=
  let seq := getF s EVQ_SEQ_next_seq
  let s := resetPages s (fun p => p == pgHIF || p == pgEVQ || decide (0x040 ≤ p ∧ p < 0x080))
  setBlk (setBlk (setF s EVQ_SEQ_next_seq seq) pgHIF 2) pgEVQ 2

end Sys2Proof.Machine
end

