-- ==== Sys2Proof/Machine/Events.lean ====
section
/-! DEFINITION. Register rows of the common page and of the event queue (04_registers_host R71-R93): event bits, injected
events, event rings, the expert area, and refused BAR0 accesses. -/

namespace Sys2Proof.Machine

/-! ### Event bits -/

/-- EVENT_CLEAR (R77): bits written 1 are cleared; an occurrence in the same cycle is raised after, so its set wins. -/
def eventClear (s : State) (page : Nat) (bits : Word) (occ : List (Nat × Nat × List Nat)) : State :=
  let a := page * 0x1000 + 0x010
  let s := setReg s a (reg s a &&& ~~~bits)
  occ.foldl (fun s o => raiseEv s page ⟨o.1, o.2.1⟩ o.2.2) s

def execEventClear (page : Nat) (bits : Word) (occ : List (Nat × Nat × List Nat)) (s : State) : Host.Outcome State Fault Refusal :=
  onInstance (isPage page) (onPage s page (eventClear s page bits occ))

/-- One injected occurrence (R76): severity 7, the lowest event number on the bit (1 to 31, or 32 for bit 0), a zero
payload; the error log is not touched. -/
def injectBit (s : State) (page b : Nat) : State :=
  let ty := match pageOf page with | some p => p.type | none => 0
  let code := ty * 1024 + (if b = 0 then 32 else b)
  let s := markEvent s page code
  if bitOf (getF s (BLK_EVENT_EN_event_en page)) b then putRecord s page code 7 [] else s

/-- EVENT_INJECT (R76): a write to BLK_EVENT_SET. -/
def eventInject (s : State) (page : Nat) (bits : Word) : State :=
  (List.range 32).foldl (fun s b => if bitOf bits.toNat b then injectBit s page b else s) s

def execEventInject (page : Nat) (bits : Word) (s : State) : Host.Outcome State Fault Refusal :=
  onInstance (isPage page) (onPage s page (eventInject s page bits))

/-! ### Event rings -/

/-- A held record for a ring: the overflow record carries the final count of lost records (R63). -/
def heldRecord (lost : Nat) (r : EventRec) : EventRec :=
  if r.code = evOverflow.code ∧ r.sev = evOverflow.sev then { r with payload := [lost] } else r

/-- Write the holding log to a ring, in order (R63). -/
def flushHold (s : State) (n : Nat) : State :=
  let rs := s.ev.hold.map (heldRecord s.ev.lost)
  rs.foldl (fun s r => ringPut s n r) { s with ev := { s.ev with hold := [], lost := 0 } }

/-- A write to EVQ_CFG (R89): size_code changes are ignored and counted while the ring is enabled, codes 9 to 15 always;
enabling zeroes head and tail, forgets an episode of drops the ring had (log entry 84) and flushes the holding log. A
change of irq_en or threshold signals nothing by itself: the next record, or the holdoff's end, does (log entry 86). -/
def writeEvqCfg (s : State) (n : Nat) (v : Word) : State :=
  let old := getF s (EVQ_CFG_size_code n)
  let new := bitsOf v.toNat 1 4
  let on := ringOn s n
  let bad := decide (9 ≤ new) || (on && new != old)
  let s := if bad then satF s (EVQ_STAT_cfg_denied n) 1 else setF s (EVQ_CFG_size_code n) new
  let s := setF s (EVQ_CFG_vector n) (bitsOf v.toNat 12 7)
  let s := setF s (EVQ_CFG_irq_en n) (bitsOf v.toNat 19 1)
  let s := setF s (EVQ_CFG_sev_mask n) (bitsOf v.toNat 20 8)
  let en := bitOf v.toNat 0
  let s := setF s (EVQ_CFG_enable n) (b2n en)
  if en && !on then
    let s := setRingSt (setF (setF (setF s (EVQ_HEAD_head n) 0) (EVQ_TAIL_tail n) 0) (EVQ_STAT_full n) 0) n {}
    flushHold s n
  else s

/-- EVENT_RING_ENABLE (R89). -/
def execEventRingEnable (ring : Nat) (cfg : Word) (s : State) : Host.Outcome State Fault Refusal :=
  onInstance (decide (ring < 16)) (onPage s pgEVQ (writeEvqCfg s ring (cfg ||| 1)))

/-- EVENT_RING_DISABLE (R89). -/
def execEventRingDisable (ring : Nat) (cfg : Word) (s : State) : Host.Outcome State Fault Refusal :=
  onInstance (decide (ring < 16)) (onPage s pgEVQ (writeEvqCfg s ring (cfg &&& 0xFFFFFFFE)))

/-- A write to EVQ_HEAD (R91): slots freed end a dropped episode with evq.ring.resumed. -/
def writeEvqHead (s : State) (n : Nat) (v : Word) : State :=
  let s := setF s (EVQ_HEAD_head n) v.toNat
  let s := setF s (EVQ_STAT_full n) (b2n (ringUsed s n == ringSize s n))
  let r := ringSt s n
  if ringOn s n && r.dropping && decide (ringUsed s n < ringSize s n) then
    ringMarker (setRingSt s n { r with dropping := false }) n evRingResumed [n, r.dropFirst, r.dropLast, r.dropCount]
  else s

/-- EVQ_HEAD_WRITE (R91). -/
def execEvqHeadWrite (ring : Nat) (v : Word) (s : State) : Host.Outcome State Fault Refusal :=
  onInstance (decide (ring < 16)) (onPage s pgEVQ (writeEvqHead s ring v))

/-- EVQ_HOLDOFF_EXPIRY (R93): the records not yet signalled are signalled. -/
def holdoffExpiry (s : State) (n : Nat) : State :=
  let r := ringSt s n
  if ringOn s n && isSet s (EVQ_CFG_irq_en n) && decide (r.unsignalled ≠ 0) then
    sendMsix (setRingSt s n { r with unsignalled := 0 }) (getF s (EVQ_CFG_vector n))
  else s

def execEvqHoldoffExpiry (ring : Nat) (s : State) : Host.Outcome State Fault Refusal :=
  onInstance (decide (ring < 16)) (whileRunning s (holdoffExpiry s ring))

/-! ### The expert area (R78) -/

/-- EXPERT_UNLOCK (R78): unlock 0x5EA7. -/
def execExpertUnlock (page : Nat) (s : State) : Host.Outcome State Fault Refusal :=
  onInstance (isPage page) (onPage s page (setF s (BLK_CTRL_expert_open page) 1))

/-- EXPERT_LOCK (R78): unlock 0x0000. -/
def execExpertLock (page : Nat) (s : State) : Host.Outcome State Fault Refusal :=
  onInstance (isPage page) (onPage s page (setF s (BLK_CTRL_expert_open page) 0))

/-- The unlock field of a BLK_CTRL write (R78). -/
def writeUnlock (s : State) (page : Nat) (unlock : BitVec 16) : State :=
  if unlock = 0x5EA7 then setF s (BLK_CTRL_expert_open page) 1
  else if unlock = 0 then setF s (BLK_CTRL_expert_open page) 0 else s

/-! ### Refused accesses (R71, R73) -/

/-- An access R71 refuses: a write of 1 or 2 bytes, an unaligned access, or a size BAR0 does not know. -/
def badAccess (off size : Nat) (write : Bool) : Bool :=
  (write && (size == 1 || size == 2)) || size == 0 || off % size != 0 || !(size == 1 || size == 2 || size == 4 || size == 8)

/-- A memory request before the Steward is ready receives Unsupported Request (R62). -/
def bar0Early (s t : State) : State :=
  if s.life = .running ∧ s.host.linkUp ∧ s.pins.perstN ∧ !isSet s DEV_START_steward_ready ∧ !isSet s DEV_START_boot_failed then
    emit s (.pcie .unsupportedRequest)
  else t

/-- BAR0_BAD_ACCESS (R71). -/
def bar0BadAccess (s : State) (off size : Nat) (write : Bool) : State :=
  if badAccess off size write then
    raiseEv (satF s HIF_ACCESS_size_errors 1) pgHIF evAccessSize [off, size]
  else s

def execBar0BadAccess (off size : Nat) (write : Bool) (s : State) : Host.Outcome State Fault Refusal :=
  .next (bar0Early s (onPage s pgHIF (bar0BadAccess s off size write)))

/-- A BAR0 offset that reaches no page (R73), or another page than DEV where both banks failed (R62). -/
def unmapped (s : State) (off : Nat) : Bool :=
  !isPage (off / 0x1000) || (isSet s DEV_START_boot_failed && off / 0x1000 != 0)

/-- BAR0_UNMAPPED_WRITE (R73): ignored, counted and reported. -/
def bar0UnmappedWrite (s : State) (off : Nat) : State :=
  if unmapped s off then raiseEv (satF s HIF_ACCESS_unmapped 1) pgHIF evBar0Unmapped [off] else s

def execBar0UnmappedWrite (off : Nat) (_v : Word) (s : State) : Host.Outcome State Fault Refusal :=
  .next (bar0Early s (onPage s 0 (bar0UnmappedWrite s off)))

end Sys2Proof.Machine
end

