-- ==== Sys2Proof/Machine/Ports.lean ====
section
/-! DEFINITION. Port training and the identity check (03_first_second R65-R68, 11_stadium_fabric R256, R257, R273), and
the isolated-heat tables. -/

namespace Sys2Proof.Machine

/-- A port number the module has. -/
def isPort (n : Nat) : Bool := decide (n < 20)

/-- Calibration engines in use: on a port that knocks or trains, or on a spare lane (R66, R258). -/
def enginesBusy (s : State) : Nat :=
  ((List.range 20).filter (fun n =>
    let p := port s n
    p.train == .knocking || p.train == .training || (match p.swap with | .training _ => true | _ => false))).length

/-- Every enabled port has trained or been left dark (R68). -/
def portsDone (s : State) : Bool :=
  (List.range 20).all (fun n => !bitOf s.pac.ports n || (port s n).train == .trained || (port s n).train == .leftDark)

/-- Set DEV_START.ports_done when it comes to hold. -/
def settlePorts (s : State) : State :=
  if isSet s DEV_START_steward_ready && portsDone s && s.pac.ports != 0 then setF s DEV_START_ports_done 1 else s

/-- Put a port in the training queue. -/
def queuePort (s : State) (n : Nat) : State :=
  let s := setPort s n { port s n with train := .queued }
  { s with fab := { s.fab with queue := s.fab.queue ++ [n] } }

/-- PORT_KNOCK_START (R66): a free engine takes the next queued port, lights it and knocks. -/
def knockStart (s : State) : State :=
  match s.fab.queue with
  | [] => s
  | n :: rest =>
    if s.life = .running ∧ enginesBusy s < 4 ∧ isSet s CLK_STATUS_net_ref_ok then
      let p := port s n
      let s := { s with fab := { s.fab with queue := rest } }
      let s := setPort s n { p with train := .knocking, knocks := p.knocks + 1 }
      emit (setF s (PORT_STATE_state n) 1) (.orderedSet n 0)
    else s

def execPortKnockStart (s : State) : Host.Outcome State Fault Refusal := .next (knockStart s)

/-- KNOCK_RECEIVED (R66): ready where an engine is on the port, false start where the lit port has none. -/
def knockReceived (s : State) (n : Nat) : State :=
  if !bitOf s.pac.ports n ∨ s.life ≠ .running then s
  else
    let p := port s n
    match p.train with
    | .knocking => emit (setPort s n { p with train := .training }) (.orderedSet n 1)
    | .training => emit s (.orderedSet n 1)
    | _ => emit s (.orderedSet n 2)

def execKnockReceived (port : Nat) (s : State) : Host.Outcome State Fault Refusal :=
  onInstance (isPort port) (knockReceived s port)

/-- KNOCK_ANSWER_READY (R66): both ends train. -/
def knockReady (s : State) (n : Nat) : State :=
  if (port s n).train = .knocking then setPort s n { port s n with train := .training } else s

def execKnockAnswerReady (port : Nat) (s : State) : Host.Outcome State Fault Refusal :=
  onInstance (isPort port) (whileRunning s (knockReady s port))

/-- The wait of the k-th back-off in µs (R67). -/
def backoffUs (s : State) (n k : Nat) : Nat :=
  min (2 ^ (min k 6) * 1000 + xorNat (hashOf s) (n * 181) % 1000) 64000

/-- A port backs off and its engine moves on (R66, R67). -/
def backOff (s : State) (n : Nat) (falseStart : Bool) : State :=
  let p := port s n
  if p.train = .knocking then
    let s := setPort s n { p with
      train := .backoff, backoffs := p.backoffs + 1, waitUs := backoffUs s n p.backoffs,
      falseStarts := p.falseStarts + b2n falseStart }
    satF s FAB_TRAIN_false_starts 1
  else s

/-- KNOCK_ANSWER_FALSE_START (R66). -/
def execKnockAnswerFalseStart (port : Nat) (s : State) : Host.Outcome State Fault Refusal :=
  onInstance (isPort port) (whileRunning s (backOff s port true))

/-- KNOCK_TIMEOUT (R66): no light within 5 ms. -/
def execKnockTimeout (port : Nat) (s : State) : Host.Outcome State Fault Refusal :=
  onInstance (isPort port) (whileRunning s (backOff s port false))

/-- PORT_BACKOFF_EXPIRY (R67): the port rejoins the queue. -/
def backoffExpiry (s : State) (n : Nat) : State :=
  if (port s n).train = .backoff then queuePort s n else s

def execPortBackoffExpiry (port : Nat) (s : State) : Host.Outcome State Fault Refusal :=
  onInstance (isPort port) (whileRunning s (backoffExpiry s port))

/-- A starting block has come up (R75, R404). -/
def upBlock (s : State) (page : Nat) : State := if blkState s page = 1 then setBlk s page 2 else s

/-- A ready block trains again (R75). -/
def downBlock (s : State) (page : Nat) : State := if blkState s page = 2 then setBlk s page 1 else s

/-- A port reset ends: RST_PORT.busy and the page's soft_reset read 0 (R60, R74). -/
def endPortReset (s : State) (n : Nat) : State := setF (setF s RST_PORT_busy 0) (BLK_CTRL_soft_reset (pgPORT n)) 0

def evInsertDone : Ev := ⟨0x5005, 1⟩
def evInsertTimeout : Ev := ⟨0x5006, 2⟩

/-- An axis's insertion state. -/
def insertSt (s : State) (axisY : Bool) : InsertSt := if axisY then s.fab.insertY else s.fab.insertX

/-- Store an axis's insertion state. -/
def setInsert (s : State) (axisY : Bool) (i : InsertSt) : State :=
  { s with fab := if axisY then { s.fab with insertY := i } else { s.fab with insertX := i } }

/-- Step 7 of R275: with both links up, fabric.insert.done, or fabric.insert.timeout naming the neighbours that did not
answer. A link left dark toward such a neighbour is waited for no longer. -/
def insertDone (s : State) (axisY : Bool) : State :=
  let i := insertSt s axisY
  let a := if axisY then 18 else 16
  let settled := fun (n : Nat) => portState s n == 3 || (i.missed != 0 && (port s n).train == .leftDark)
  if i.handshake ∧ !i.reported ∧ settled a ∧ settled (a + 1) then
    let s := setInsert s axisY { i with reported := true, linkPlus := portState s a == 3, linkMinus := portState s (a + 1) == 3 }
    if i.missed = 0 then raiseEv s pgFAB evInsertDone [b2n axisY, (elapsed s - i.startedAt) / 1000000]
    else raiseEv s pgFAB evInsertTimeout [b2n axisY, i.missed]
  else s

/-- PORT_TRAIN_TIMEOUT (R67): a port that has knocked and not trained is left dark. -/
def trainTimeout (s : State) (n : Nat) : State :=
  let p := port s n
  if p.knocks ≠ 0 ∧ (p.train = .queued ∨ p.train = .knocking ∨ p.train = .training ∨ p.train = .backoff) then
    let s := { s with fab := { s.fab with queue := s.fab.queue.filter (· != n) } }
    let s := setPort s n { p with train := .leftDark, resetBusy := false }
    let s := if p.resetBusy then endPortReset s n else s
    let s := raiseEv (setF s (PORT_STATE_state n) 0) (pgPORT n) evTrainFailed [n, p.knocks, p.falseStarts]
    settlePorts (if 16 ≤ n then insertDone s (decide (18 ≤ n)) else s)
  else s

def execPortTrainTimeout (port : Nat) (s : State) : Host.Outcome State Fault Refusal :=
  onInstance (isPort port) (whileRunning s (trainTimeout s port))

/-- PORT_TRAINED (R66, R257): the link comes up with fresh link state and tells the far end its identity. -/
def portTrained (s : State) (n : Nat) : State :=
  let p := port s n
  if p.train = .training then
    let s := setPort s n { train := .trained, knocks := p.knocks, falseStarts := p.falseStarts, backoffs := p.backoffs }
    let s := freshTaps (setF (setF s (PORT_STATE_spare_used n) 0) (PORT_STATE_spare_for n) 0) n
    let s := upBlock s (pgPORT n)
    let s := if p.resetBusy then raiseEv (endPortReset s n) (pgPORT n) evPortResetDone [n] else s
    settlePorts (sendCtl s n (.identity (myId s) n))
  else s

def execPortTrained (port : Nat) (s : State) : Host.Outcome State Fault Refusal :=
  onInstance (isPort port) (whileRunning s (portTrained s port))

/-! ### Identity (R256, R257) -/

/-- The far end a port must meet: for a heat port its device and port; for a ring port this device and the partner port
(the far device is any member of its ring). -/
def expectedFar (s : State) (n : Nat) : Nat × Nat :=
  let me := myId s
  let base := me - idSlot me
  if 16 ≤ n then (me, if n % 2 = 0 then n + 1 else n - 1)
  else if idSlot me = 16 then (base + n, 15)
  else if n = 15 then (base + 16, idSlot me)
  else (base + (idSlot me + n + 1) % 16, 14 - n)

/-- The far end passes the check of R257. -/
def farOk (s : State) (n dev farPort : Nat) : Bool :=
  let me := myId s
  let e := expectedFar s n
  if n < 16 then dev == e.1 && farPort == e.2
  else decide (farPort = e.2 ∧ idSlot dev = idSlot me ∧ (if n < 18 then idY dev = idY me else idX dev = idX me))

def evLinkUp : Ev := ⟨0x5406, 1⟩
def evMiscabled : Ev := ⟨0x5407, 4⟩

/-- LINK_IDENTITY (R257): the far end's device and port arrive on VC0. -/
def linkIdentity (s : State) (n dev farPort : Nat) : State :=
  if (port s n).train ≠ .trained ∨ (port s n).identitySeen then s
  else
    let s := setPort s n { port s n with identitySeen := true, far := dev * 32 + farPort }
    let s := setF (setF s (PORT_PEER_peer_id n) dev) (PORT_PEER_peer_port n) farPort
    if farOk s n dev farPort then
      let s := setF s (PORT_PEER_peer_valid n) 1
      let s := setF s (PORT_STATE_state n) (if 16 ≤ n ∧ dev = myId s then 2 else 3)
      let s := setF s (PORT_STATE_dateline n) (b2n (isDateline s n))
      let s := raiseEv s (pgPORT n) evLinkUp [n, dev, farPort]
      let s := if 16 ≤ n then insertDone s (decide (18 ≤ n)) else s
      pump s n
    else
      let e := expectedFar s n
      raiseEv (setF s (PORT_STATE_state n) 5) (pgPORT n) evMiscabled [n, e.1, e.2, dev, farPort]

def execLinkIdentity (port dev farPort : Nat) (s : State) : Host.Outcome State Fault Refusal :=
  onInstance (isPort port) (whileRunning s (linkIdentity s port dev farPort))

/-! ### The isolated heat (R68, R273) -/

def evTablesLoaded : Ev := ⟨0x5801, 1⟩

/-- Every present device of the image in force. -/
def presentDevices (s : State) : List Nat :=
  (List.range s.fab.extY).flatMap (fun j => (List.range s.fab.extX).flatMap (fun i =>
    ((List.range 17).filter (present s (s.fab.orgX + i) (s.fab.orgY + j))).map (idOf (s.fab.orgX + i) (s.fab.orgY + j))))

/-- The present devices that no descriptor reaches. -/
def unreachableCount (s : State) : Nat := ((presentDevices s).filter (fun d => (primaryRoute s d).isNone)).length

/-- The absence mask of the isolated-heat image: present are this device and the devices of its heat whose heat link is up
and identity-checked (R273). -/
def isolatedAbsent (s : State) : Nat :=
  ((List.range 17).map (fun slot =>
    if slot = idSlot (myId s) ∨ portState s (heatPort (idSlot (myId s)) slot) = 3 then 0 else 2 ^ slot)).foldl (· + ·) 0

/-- Load the isolated-heat image (R273). -/
def loadIsolated (s : State) : State :=
  let me := myId s
  let s := { s with fab := { s.fab with
    extX := 1, extY := 1, orgX := idX me, orgY := idY me,
    absent := tset (fun _ => 0) [] (idY me * 16 + idX me) (isolatedAbsent s),
    reserveFor := [], roles := [], badRoutes := [], badRoles := [], onAlt := [], lostDest := [] } }
  let s := setF (setF s FAB_GEOM_extent_x 1) FAB_GEOM_extent_y 1
  let s := setF (setF s FAB_GEOM_origin_x (idX me)) FAB_GEOM_origin_y (idY me)
  let s := setF (setF (setF s RTE_STATE_valid 1) RTE_STATE_isolated 1) RTE_STATE_epoch (getF s CMD_EPOCH_current)
  raiseEv s pgRTE evTablesLoaded [getF s RTE_STATE_epoch, 0, unreachableCount s]

end Sys2Proof.Machine
end

