-- ==== Sys2Proof/Machine/Sha3.lean ====
section
/-! DEFINITION. SHA3-256 and SHAKE256 as FIPS 202 defines them (R366, R369, R373), over lists of bytes. -/

namespace Sys2Proof.Machine

/-- Rotate a 64-bit word left. -/
def rotl64 (x n : Nat) : Nat := ((x <<< (n % 64)) ||| (x >>> (64 - n % 64))) % 2 ^ 64

/-- The rotation offsets of rho, by lane x + 5y. -/
def keccakRot : List Nat :=
  [0, 1, 62, 28, 27, 36, 44, 6, 55, 20, 3, 10, 43, 25, 39, 41, 45, 15, 21, 8, 18, 2, 61, 56, 14]

/-- The round constants of iota. -/
def keccakRc : List Nat :=
  [0x1, 0x8082, 0x800000000000808A, 0x8000000080008000, 0x808B, 0x80000001, 0x8000000080008081, 0x8000000000008009,
    0x8A, 0x88, 0x80008009, 0x8000000A, 0x8000808B, 0x800000000000008B, 0x8000000000008089, 0x8000000000008003,
    0x8000000000008002, 0x8000000000000080, 0x800A, 0x800000008000000A, 0x8000000080008081, 0x8000000000008080,
    0x80000001, 0x8000000080008008]

/-- Lane x, y of a state of 25 words. -/
def klane (a : List Nat) (x y : Nat) : Nat := (a[x % 5 + 5 * (y % 5)]?).getD 0

/-- One round of Keccak-f[1600]. -/
def keccakRound (a : List Nat) (rc : Nat) : List Nat :=
  let c := (List.range 5).map (fun x => klane a x 0 ^^^ klane a x 1 ^^^ klane a x 2 ^^^ klane a x 3 ^^^ klane a x 4)
  let d := (List.range 5).map (fun x => klane c (x + 4) 0 ^^^ rotl64 (klane c (x + 1) 0) 1)
  let t := (List.range 25).map (fun i => rotl64 (klane a i (i / 5) ^^^ klane d i 0) ((keccakRot[i]?).getD 0))
  let b := (List.range 25).map (fun i => klane t (i % 5 + 3 * (i / 5)) (i % 5))
  let e := (List.range 25).map (fun i =>
    klane b i (i / 5) ^^^ ((2 ^ 64 - 1 - klane b (i + 1) (i / 5)) &&& klane b (i + 2) (i / 5)))
  match e with
  | h :: r => (h ^^^ rc) :: r
  | [] => []

/-- Keccak-f[1600]. -/
def keccakF (a : List Nat) : List Nat := keccakRc.foldl keccakRound a

/-- Absorb blocks of the rate in bytes. -/
def absorb (rate : Nat) : Nat → List Byte → List Nat → List Nat
  | 0, _, a => a
  | n + 1, bs, a =>
    absorb rate n (bs.drop rate)
      (keccakF (a.mapIdx (fun i w => if i < rate / 8 then w ^^^ leAt bs (8 * i) 8 else w)))

/-- Pad a message with a domain suffix to whole blocks. -/
def keccakPad (rate suffix : Nat) (m : List Byte) : List Byte :=
  let k := rate - m.length % rate
  if k = 1 then m ++ [BitVec.ofNat 8 (suffix + 128)]
  else m ++ [BitVec.ofNat 8 suffix] ++ List.replicate (k - 2) 0 ++ [0x80]

/-- Squeeze blocks. -/
def squeeze (rate : Nat) : Nat → List Nat → List Byte
  | 0, _ => []
  | n + 1, a => (a.take (rate / 8)).flatMap (natLe 8) ++ squeeze rate n (keccakF a)

/-- The sponge over 136-byte blocks. -/
def sponge136 (suffix outLen : Nat) (m : List Byte) : List Byte :=
  let p := keccakPad 136 suffix m
  (squeeze 136 (outLen / 136 + 1) (absorb 136 (p.length / 136) p (List.replicate 25 0))).take outLen

/-- SHA3-256. -/
def sha3 (m : List Byte) : List Byte := sponge136 6 32 m

/-- SHAKE256 to a length in bytes. -/
def shake256 (m : List Byte) (n : Nat) : List Byte := sponge136 0x1F n m

end Sys2Proof.Machine
end

