-- ==== Sys2Proof/Machine/Boot.lean ====
section
/-! DEFINITION. The boot chain (15_steward_security R365-R368, 06_lanes R154, 09_memory R217): choosing and verifying a
bank, the Steward's readiness, the profile, the processors and the start-up test; and the PCIe rows of start-up (R62). -/

namespace Sys2Proof.Machine

/-! ### The boot record (R365) -/

/-- The bytes of a boot record that its crc covers: the spec names the fields and no places (log entry 102). -/
def BootRec.bytes (r : BootRec) : List Byte :=
  natLe 4 r.seq ++ natLe 1 (b2n r.active) ++ natLe 1 (match r.pending with | none => 2 | some b => b2n b)
    ++ natLe 1 (b2n r.trial) ++ natLe 1 (b2n r.failedA) ++ natLe 1 (b2n r.failedB)

/-- A copy as the Steward writes it. -/
def BootRec.sealed (r : BootRec) : BootCopy := ⟨r, crc32c r.bytes⟩

/-- A copy is valid: its crc holds. -/
def BootCopy.valid (c : BootCopy) : Bool := c.crc == crc32c c.record.bytes


/-- A serial number is above another (R365). -/
def seqAbove (a b : Nat) : Bool := let d := (a + 2 ^ 32 - b % 2 ^ 32) % 2 ^ 32; decide (0 < d ∧ d < 2 ^ 31)

/-- Copy B is in force: valid, and copy A is not or has the lower seq (R365). -/
def FlashSt.useB (f : FlashSt) : Bool :=
  f.bootB.valid && (!f.bootA.valid || seqAbove f.bootB.record.seq f.bootA.record.seq)

/-- The boot record in force (R365); with no valid copy copy A is read as it stands (log entry 102). -/
def FlashSt.boot (f : FlashSt) : BootRec := if f.useB then f.bootB.record else f.bootA.record

/-! ### Banks (R366) -/

/-- The bytes of a bank; false is A. -/
def bankBytes (f : FlashSt) (b : Bool) : List Byte := if b then f.bankB else f.bankA

/-- A bank's size in bytes (R364). -/
def bankSize : Nat := 0x6000000

/-- n bytes of a bank from an offset; past what was written the flash is erased. -/
def flashRead (bank : List Byte) (o n : Nat) : List Byte :=
  let got := (bank.drop o).take n
  got ++ List.replicate (n - got.length) 0xFF

/-- The regions of the flash by first offset and size: the boot records, the factory area, the banks, staging, the profiles
and the logs (R364). The Steward alone reaches it, so the model keeps what each region holds and not its bytes by offset. -/
def flashMap : List (Nat × Nat) :=
  [(0x0000000, 0x10000), (0x0010000, 0xF0000), (0x0100000, bankSize), (0x6100000, bankSize), (0xC100000, 0x2100000),
    (0xE200000, 0x100000), (0xE300000, 0x1D00000)]

/-- Where a piece lies in staging (R370). -/
def pieceOffset (index : Nat) : Nat := 0xC100000 + 0x10000 + index * 0x10000

/-- The public key's and the signature's length of an algorithm (R366). -/
def keyLen (alg : Nat) : Nat := if alg = 44 then 1312 else 1952
def sigLen (alg : Nat) : Nat := if alg = 44 then 2420 else 3309

/-- A signature verifies (FIPS 204). -/
def sigVerifies (f : FuseSt) (alg : Nat) (key msg sig : List Byte) : Bool := f.vouched.contains ⟨alg, key, msg, sig⟩

/-- An entry of a bank manifest: its type, bank offset and digest (R366). -/
def entryType (m : List Byte) (i : Nat) : Nat := leAt m (64 + 40 * i) 1
def entryOff (m : List Byte) (i : Nat) : Nat := leAt m (68 + 40 * i) 4
def entryDigest (m : List Byte) (i : Nat) : List Byte := bytesAt m (72 + 40 * i) 32

/-- The bytes of image i of a bank: to the next entry's offset, the last to the end of the bank (R366). -/
def imageBytes (bank : List Byte) (i : Nat) : List Byte :=
  let o := entryOff bank i
  let e := if i + 1 < leAt bank 9 1 then entryOff bank (i + 1) else bankSize
  flashRead bank o (e - o)

/-- Checks 2 to 4 of R366 over a manifest whose alg is at byte 5 and key_index at byte 6: its key, and its signature over the
digest of bytes 0 to 4,095. -/
def keyOk (f : FuseSt) (m : List Byte) : Bool :=
  let alg := leAt m 5 1
  let k := leAt m 6 1
  (alg == 44 || alg == 65) && zeroAt m (384 + keyLen alg) (1952 - keyLen alg) && decide (k < 4) && !bitOf f.revoked k
    && (f.keyHash[k]?).getD [] == sha3 (bytesAt m 384 (keyLen alg))
    && zeroAt m (4096 + sigLen alg) (3309 - sigLen alg)
    && sigVerifies f alg (bytesAt m 384 (keyLen alg)) (sha3 (bytesAt m 0 4096)) (bytesAt m 4096 (sigLen alg))

/-- A bank passes R366. arithRev is DEV_INFO.arith_rev. -/
def bankOk (f : FuseSt) (arithRev : Nat) (bank : List Byte) : Bool :=
  let m := bank.take 7424
  let n := leAt m 9 1
  leAt m 0 4 == 0x4B37424B && leAt m 4 1 == 1 && leAt m 12 4 == arithRev && decide (1 ≤ n ∧ n ≤ 8)
    && (List.range n).all (fun i => decide (1 ≤ entryType m i ∧ entryType m i ≤ 8)) && !bitOf (leAt m 8 1) (leAt m 6 1)
    && keyOk f m
    && decide (f.counter ≤ leAt m 7 1 ∧ leAt m 7 1 ≤ 64)
    && (match (List.range n).find? (fun i => entryType m i == 1) with
        | some i => sha3 (imageBytes bank i) == entryDigest m i
        | none => false)

/-- Images 2 to 8 of a bank match their entries (R368). -/
def imagesOk (bank : List Byte) : Bool :=
  (List.range (leAt bank 9 1)).all (fun i => sha3 (imageBytes bank i) == entryDigest bank i)

/-- A bank is marked failed. -/
def bankFailed (r : BootRec) (b : Bool) : Bool := if b then r.failedB else r.failedA

/-- Mark a bank failed, or good. -/
def markBank (r : BootRec) (b failed : Bool) : BootRec :=
  if b then { r with failedB := failed } else { r with failedA := failed }

/-- Write the boot record: each write takes the next sequence number and goes to the copy not in force (R365). -/
def writeBoot (s : State) (r : BootRec) : State :=
  let c := BootRec.sealed { r with seq := (s.flash.boot.seq + 1) % 2 ^ 32 }
  { s with flash := if s.flash.useB then { s.flash with bootA := c } else { s.flash with bootB := c } }

/-- The boot ROM's choice (R367): the record after it, and the bank booted with whether the start fell back, as it has too
where the trial before it lapsed. -/
def chooseBank (r : BootRec) (lapsed : Bool) (ok : Bool → Bool) : BootRec × Option (Bool × Bool) :=
  let r := match r.pending with
    | some b => { r with active := b, pending := none, trial := true }
    | none => r
  let tried := r.active
  if ok tried then (r, some (tried, lapsed))
  else
    let r := markBank r tried true
    if !bankFailed r (!tried) && ok (!tried) then
      ({ r with active := !tried, trial := false }, some (!tried, true))
    else (r, none)

/-! ### Readiness -/

def evBootFallback : Ev := ⟨0x1C03, 3⟩

/-- Both banks fail (R62): FAULT_N, and only the DEV page with boot_failed. -/
def bootFails (s : State) : State :=
  setF { s with pins := { s.pins with faultN := true } } DEV_START_boot_failed 1

/-- Load the selected profile, or profile 3 where its check fails (R69, R386, R387). -/
def loadProfile (s : State) (prof3Bad : Bool) : State :=
  let n := getF s DEV_STRAP_prof_sel
  let p3 := fun (s : State) => setF (setF (setF (applyProfile s profile3 false) DEV_START_profile 3) PRF_ACTIVE_profile 3) PRF_ACTIVE_builtin (b2n prof3Bad)
  match slotProfile s n with
  | some p => if n = 3 then p3 s else setF (setF (applyProfile s p false) DEV_START_profile n) PRF_ACTIVE_profile n
  | none =>
    let s := setF (setF s DEV_START_profile_fallback 1) PRF_ACTIVE_fallback 1
    p3 (raiseEv s pgPRF evProfileBad [n])

/-- The state a page's block comes up in (R75, R404): cellar pages start until training ends, stadium and Milant ports until
they have trained (log entry 92); profile 3 holds the ports; queues stay off; a Steward held in fault stays there (R363). -/
def comeUp (s : State) (p : Nat) : State :=
  let isPortPage := decide ((0x0A0 ≤ p ∧ p ≤ 0x0B3) ∨ p = 0x01D ∨ p = 0x01E)
  if !isSet s (BLK_CTRL_enable p) ∨ (p = pgSTW ∧ isSet s STW_STATE_held) then s
  else if 0x080 ≤ p ∧ p ≤ 0x098 then setBlk s p 1
  else if isPortPage then setBlk s p (if getF s DEV_START_profile = 3 then 5 else 1)
  else setBlk s p 2

/-- The start-up test's outcome on a lane (R154): a lane that fails, or whose earlier fault outlives its substitution
(R400), is fenced. -/
def bistLane (s : State) (l : Nat) (f : Option BistFail) : State :=
  match f with
  | some b =>
    let s := setF s (LANE_INFO_bist_pass l) 0
    fenceLane (raiseEv s (pgLANE l) evBistFailed [l, physLane s l, b.array, b.mode, b.row, b.col]) l none
  | none =>
    let s := setF s (LANE_INFO_bist_pass l) 1
    if s.flash.fencedLanes.contains l then setLane s l { lane s l with fenced := true } else s

/-- Step 5 of start-up (R154, R217, R368): the attic zeroed, the Marshals loaded, every lane tested, and the ports queued
for training. -/
def loadProcessors (s : State) (facts : BootFacts) : State :=
  let s := { s with mem := { s.mem with cells := s.mem.cells.filter (fun c => regionOf c.1 != .attic) } }
  let s := (List.range 96).foldl (fun s l => bistLane s l (facts.bist.find? (fun b => b.lane == l))) s
  let q := trainingQueue s
  let s := { s with fab := { s.fab with queue := q } }
  q.foldl (fun s n => setPort s n { port s n with train := .queued }) s

/-- The registers that show the booted bank (R366, R367). -/
def showBoot (s : State) (b fell : Bool) : State :=
  let s := setF (setF s DEV_START_boot_bank (b2n b)) STW_STATE_boot_fallback (b2n fell)
  let s := setF (setF s STW_STATE_trial (b2n s.flash.boot.trial)) STW_STATE_pending (b2n s.flash.boot.pending.isSome)
  setF (setF s SEC_STATE_revoked s.fuses.revoked) SEC_STATE_counter s.fuses.counter

def evFwuConfirmed : Ev := ⟨0x2005, 1⟩

/-- Burn what the confirmed bank's manifest names (R372): the anti-rollback counter and the revoke fuses. -/
def confirmBurn (s : State) (bank : Bool) : State :=
  let m := bankBytes s.flash bank
  let sv := leAt m 7 1
  let s := { s with fuses := { s.fuses with
    counter := max s.fuses.counter sv, revoked := s.fuses.revoked ||| (leAt m 8 1 % 16), confirmDue := none } }
  let s := setF (setF s SEC_STATE_revoked s.fuses.revoked) SEC_STATE_counter s.fuses.counter
  raiseEv s pgFWU evFwuConfirmed [b2n bank, sv]

/-- A burn that waits or was interrupted is completed where both blades are above 41 V (R372, R400). -/
def completeBurns (s : State) : State :=
  if 41000 < s.pins.bladeA ∧ 41000 < s.pins.bladeB then
    let due := s.fuses.burnDue
    let s := due.foldl repairLane { s with fuses := { s.fuses with burnDue := [] } }
    match s.fuses.confirmDue with
    | some b => confirmBurn s b
    | none => s
  else s

/-- The pieces an update's manifest names, and whether staging holds them all (R369, R370). -/
def updPieces (s : State) : Nat := if s.flash.manifest = [] then 0 else leAt s.flash.manifest 80 2
def updComplete (s : State) : Bool :=
  updPieces s != 0 && decide ((s.flash.pieces.filter (fun p => decide (p.1 < updPieces s))).length = updPieces s)

/-- FWU_STATE as the staging area and the journal show it (R369-R371). -/
def showUpdate (s : State) : State :=
  let st := if s.flash.manifest = [] then 0 else if s.stw.applying then 2 else if s.flash.journal = 3 then 3
    else if s.flash.journal = 2 then 4 else 1
  setF (setF (setF s FWU_STATE_state st) FWU_STATE_held s.flash.pieces.length) FWU_STATE_pieces (updPieces s)

/-- Begin application (R371, steps 1 and 2): the inactive bank is marked failed and erased. -/
def beginApply (s : State) : State :=
  let b := !s.flash.boot.active
  let s := writeBoot s (markBank s.flash.boot b true)
  let fl := if b then { s.flash with bankB := [], journal := 1 } else { s.flash with bankA := [], journal := 1 }
  showUpdate { s with flash := fl, stw := { s.stw with applying := true } }

/-- Begin application where every piece is held, unless hold_apply is set or it has ended; one that was cut begins again
whatever hold_apply says (R371). -/
def maybeApply (s : State) : State :=
  let due := s.flash.journal == 1 || (s.flash.journal == 0 && !isSet s FWU_CTRL_hold_apply)
  if updComplete s && due && !s.stw.applying then beginApply s else showUpdate s

def evStwRestarted : Ev := ⟨0x1C02, 1⟩

/-- The Steward serves again after a watchdog's restart, that page ready, and says for how long it did not (R362, step 4). -/
def serveAgain (s : State) : State :=
  let s := setBlk { s with stw := { s.stw with restarting := false } } pgSTW 2
  raiseEv s pgSTW evStwRestarted [(elapsed s - s.stw.downAt) / 1000000]

/-- The processors' images of a bank, by type, as the digests that step 5 has found them to match (R368). -/
def loadedImages (bank : List Byte) : Table (List Byte) :=
  (List.range (leAt bank 9 1)).foldl (fun t i => tput (entryType bank i) (entryDigest bank i) t) []

/-- The Steward becomes ready (steps 4 and 5). -/
def stewardReady (s : State) (b fell : Bool) (facts : BootFacts) : State :=
  let s := if s.stw.restarting then serveAgain s else s
  let s := { s with flash := { s.flash with lapsed := false }, stw := { s.stw with loaded := loadedImages (bankBytes s.flash b) } }
  let s := showBoot (completeBurns s) b fell
  let s := if fell then raiseEv s pgSTW evBootFallback [b2n b, b2n (!b)] else s
  let s := loadProfile s facts.prof3Bad
  let s := setF s DEV_START_steward_ready 1
  let s := allPages.foldl comeUp s
  maybeApply (loadProcessors { s with stw := { s.stw with booted := b } } facts)

/-- STEWARD_IMAGE_VERIFIED (R62, R366-R368). An image that misses its digest at both readings, which reloadBad says of a flash
that reads wrong, marks the bank failed and restarts the module from the other bank, as a module reset does. A Steward held
in fault stays there (R363). -/
def stewardImageVerified (s : State) (facts : BootFacts) : State :=
  if s.life ≠ .running ∨ !isSet s DEV_START_fuses_done ∨ isSet s DEV_START_steward_ready ∨ isSet s DEV_START_boot_failed
      ∨ isSet s STW_STATE_held then s
  else
    let ok := fun b => bankOk s.fuses (getF s DEV_INFO_arith_rev) (bankBytes s.flash b)
    match chooseBank s.flash.boot s.flash.lapsed ok with
    | (r, none) => bootFails (writeBoot s r)
    | (r, some (b, fell)) =>
      let s := writeBoot s r
      if facts.reloadBad ∨ !imagesOk (bankBytes s.flash b) then
        let other := markBank s.flash.boot b true
        bootStart (writeBoot s { other with active := !b, trial := false }) .modRst (reg s 0x140)
      else stewardReady s b fell facts

def execStewardImageVerified (facts : BootFacts) (s : State) : Host.Outcome State Fault Refusal :=
  .next (stewardImageVerified s facts)

/-! ### PCIe in start-up (R62, R82) -/

/-- PCIE_LINK_UP (R62): the endpoint trains once PERST_N is high and the PLL is locked; the answer bound starts. -/
def pcieLinkUp (s : State) (gen width : Nat) (flitMode : Bool) : State :=
  if s.life = .running ∧ s.pins.perstN ∧ isSet s CLK_STATUS_root_lock ∧ 1 ≤ gen ∧ gen ≤ 7 ∧
      [1, 2, 4, 8, 16].contains width then
    let s := { s with host := { s.host with
      linkUp := true, linkUpAt := elapsed s, gen := gen, width := width, flitMode := flitMode } }
    setF (setF (setF s HIF_LINK_gen gen) HIF_LINK_width width) HIF_LINK_flit_mode (b2n flitMode)
  else s

def execPcieLinkUp (gen width : Nat) (flitMode : Bool) (s : State) : Host.Outcome State Fault Refusal :=
  .next (pcieLinkUp s gen width flitMode)

/-- The size code a BAR reads after all ones are written to it: the bytes of BAR0, BAR2 and BAR4 (R82). -/
def barSize (bar : Nat) : Nat := if bar = 0 then 0x4000000 else if bar = 2 then 0x1000000000 else if bar = 4 then 0x4000 else 0

/-- What the function's configuration space says of itself (R82): vendor and Device ID 0x0D07, Revision ID 0xC0 and class
code 0x12_0000, the BARs' sizes and the Device Serial Number. -/
def configSpace (s : State) : ConfigSpace where
  vendor := Config.vendorId % 2 ^ 16
  device := 0x0D07
  revision := 0xC0
  classCode := 0x120000
  bars := [(0, barSize 0), (2, barSize 2), (4, barSize 4)]
  serial := s.fuses.serial % 2 ^ 64

/-- PCIE_CONFIG_REQUEST (R62, R82): Request Retry Status until the Steward is ready and during a function-level reset,
for at most 1 s after the link is up. -/
def pcieConfigRequest (s : State) : State :=
  let answer := emit s (.pcie (.configOk (isSet s DEV_START_boot_failed) (configSpace s)))
  if s.life ≠ .running ∨ !s.host.linkUp then s
  else if isSet s DEV_START_boot_failed then answer
  else if isSet s DEV_START_steward_ready ∧ !s.host.flr then answer
  else if !isSet s DEV_START_steward_ready ∧ 1000000000 < elapsed s - s.host.linkUpAt then answer
  else emit s (.pcie .retryStatus)

def execPcieConfigRequest (s : State) : Host.Outcome State Fault Refusal := .next (pcieConfigRequest s)

end Sys2Proof.Machine
end

