-- ==== Sys2Proof/Machine/MilTable.lean ====
section
/-! DEFINITION. The Milant table (14_milant R344): its fields, its check, and its installation at a hurdle. -/

namespace Sys2Proof.Machine

def evMilTableBad : Ev := ⟨0x5C09, 3⟩

/-! ### The fields of the table in force -/

/-- A port's role (0 unused, 1 lower building, 2 higher building, 3 participant) and its peer participant (R329). -/
def milRole (s : State) (n : Nat) : Nat := leAt s.mil.table (12 + 2 * n) 1
def milPeer (s : State) (n : Nat) : Nat := leAt s.mil.table (13 + 2 * n) 1

/-- A staleness weight; the weights of a table not yet loaded are those of the worked example (R352). -/
def staleWeight (s : State) (k : Nat) : Word :=
  if s.mil.table = [] then ([0x3F800000, 0x3F000000, 0x3E800000, 0x3E000000, 0x3D800000] : List Word).getD k 0
  else BitVec.ofNat 32 (leAt s.mil.table (16 + 4 * k) 4)

/-- The device at this building's other boundary, if there is one. -/
def passDev (s : State) : Option Nat :=
  let v := leAt s.mil.table 36 2
  if s.mil.table = [] ∨ v = 0xFFFF then none else some (v % 2 ^ 13)

/-- A participant is a member of the marathon. -/
def isMember (s : State) (q : Nat) : Bool := bitOf (leAt s.mil.table 40 8) q

/-- The device of this stadium with a port toward a participant. -/
def gatewayOf (s : State) (q : Nat) : Option Nat :=
  let v := leAt s.mil.table (64 + 4 * q) 4
  if q < 64 ∧ bitOf v 31 then some (v % 2 ^ 13) else none

/-- The path entries: peer rank and via slot. -/
def milPaths (s : State) : List (Nat × Nat) :=
  (List.range (leAt s.mil.table 6 2)).map (fun i => (leAt s.mil.table (320 + 8 * i) 2 % 2 ^ 14, leAt s.mil.table (322 + 8 * i) 1))

/-- A rectangle of the baton map (R344, R351). -/
structure BatonMap where
  tensor : Nat
  rank : Nat
  row0 : Nat
  rows : Nat
  col0 : Nat
  cols : Nat
  deriving DecidableEq, Repr

def batonMaps (s : State) : List BatonMap :=
  let t := s.mil.table
  let base := 320 + 8 * leAt t 6 2
  (List.range (leAt t 8 2)).map (fun i =>
    let a := base + 24 * i
    ⟨leAt t a 2, leAt t (a + 2) 2, leAt t (a + 4) 4, leAt t (a + 8) 4, leAt t (a + 12) 4, leAt t (a + 16) 4⟩)

/-- This module's participant and building. -/
def myParticipant (s : State) : Nat := getF s (MIL_ID_participant 0)
def myBuilding (s : State) : Nat := getF s (MIL_ID_building 0)

/-! ### The check and the load -/

/-- The size of a table from its first 64 bytes. -/
def milTableSize (h : List Byte) : Nat := 320 + 8 * leAt h 6 2 + 24 * leAt h 8 2

/-- The fields of the first 64 bytes are in range. -/
def milHeadOk (b : List Byte) : Bool :=
  leAt b 0 1 == 1 && decide (leAt b 1 1 < 64 ∧ leAt b 2 1 < 4 ∧ 1 ≤ leAt b 3 1 ∧ leAt b 3 1 ≤ 4 ∧ leAt b 6 2 ≤ 64)
    && zeroAt b 10 2 && zeroAt b 38 2 && zeroAt b 48 12
    && decide (leAt b 12 1 < 4 ∧ leAt b 14 1 < 4 ∧ leAt b 13 1 < 64 ∧ leAt b 15 1 < 64)
    && (leAt b 36 2 == 0xFFFF || decide (leAt b 36 2 < 2 ^ 13))

/-- The entries' fields are in range. -/
def milBodyOk (b : List Byte) : Bool :=
  let maps := 320 + 8 * leAt b 6 2
  (List.range 64).all (fun q => bitsOf (leAt b (64 + 4 * q) 4) 13 18 == 0)
    && (List.range (leAt b 6 2)).all (fun i =>
      decide (leAt b (320 + 8 * i) 2 < 2 ^ 14 ∧ leAt b (322 + 8 * i) 1 ≤ 16) && zeroAt b (323 + 8 * i) 5)
    && (List.range (leAt b 8 2)).all (fun i => decide (leAt b (maps + 24 * i + 2) 2 < 2 ^ 14) && zeroAt b (maps + 24 * i + 20) 4)

/-- Why a table fails its check: 1 field, 2 epoch, 3 CRC. -/
def milTableFault (b : List Byte) (epoch : Nat) : Option Nat :=
  if !milHeadOk b ∨ !milBodyOk b then some 1
  else if leAt b 4 2 ≠ epoch then some 2
  else if leAt b 60 4 ≠ crc32c (b.take 60 ++ b.drop 64) then some 3
  else none

/-- The address in MIL_TAB. -/
def milTabAddr (s : State) : Nat := getF s (MIL_TAB_LO_tab 0) + 2 ^ 32 * getF s (MIL_TAB_HI_tab 0)

/-- Read and check the table a hurdle loads: none where the present table is kept, or the reason it fails. -/
def readMilTable (s : State) (hits : List Hit) (epoch : Nat) (own : Option (Nat × Nat)) : State × Except Nat (Option (List Byte)) :=
  let a := milTabAddr s
  if a = 0 then (s, .ok none)
  else if a % 64 ≠ 0 ∨ !inMemory a 64 then (s, .error 1)
  else match memRead s hits a 64 .network own with
    | (s, none) => (s, .error 1)
    | (s, some h) =>
      if !milHeadOk h ∨ !inMemory a (milTableSize h) then (s, .error 1)
      else match memRead s hits a (milTableSize h) .network own with
        | (s, none) => (s, .error 1)
        | (s, some b) => (s, match milTableFault b epoch with | some r => .error r | none => .ok (some b))

/-- Put a table in force; MIL_ID shows its identity. -/
def installMilTable (s : State) (b : Option (List Byte)) : State :=
  match b with
  | none => s
  | some b =>
    let s := { s with mil := { s.mil with table := b } }
    setF (setF (setF s (MIL_ID_participant 0) (leAt b 1 1)) (MIL_ID_building 0) (leAt b 2 1)) (MIL_ID_buildings 0) (leAt b 3 1)

end Sys2Proof.Machine
end

