-- ==== Sys2Proof/Machine/Frames.lean ====
section
/-! DEFINITION. Milant ports (14_milant R327-R334): frames and their MACsec protection, erasure groups, and the rows of
the links and groups. -/

namespace Sys2Proof.Machine

def evMilDown : Ev := ⟨0x5C01, 3⟩
def evMilUp : Ev := ⟨0x5C02, 1⟩
def evGroupAbandoned : Ev := ⟨0x5C03, 2⟩
def evKeyExhausted : Ev := ⟨0x6405, 4⟩

/-- A Milant port number. -/
def isMilPort (n : Nat) : Bool := decide (n < 2)

def milPort (s : State) (n : Nat) : MilPort := tget (fun _ => {}) s.mil.ports n
def setMilPort (s : State) (n : Nat) (p : MilPort) : State :=
  { s with mil := { s.mil with ports := tset (fun _ => {}) s.mil.ports n p } }

/-- The link of a port is up. -/
def milUp (s : State) (n : Nat) : Bool := getF s (MIL_PORT_STATE_link n) == 2

/-- The live transmit association. -/
def MilPort.liveTx (p : MilPort) : Option Assoc := p.live.bind (fun a => p.tx.find? (fun x => x.an == a))

/-! ### Parcels and frames (R330, R334) -/

/-- The 32 bytes of a parcel header. -/
def parcelHeader (p : Parcel) : List Byte :=
  natLe 1 p.kind ++ natLe 1 (b2n p.resend + 2 * b2n p.first + 4 * b2n p.last) ++ natLe 2 p.stream ++ natLe 4 p.seq
    ++ natLe 4 p.offset ++ natLe 2 p.body.length ++ natLe 1 p.srcBld ++ natLe 1 p.dstBld ++ natLe 2 p.srcRank
    ++ natLe 2 p.dstRank ++ natLe 4 p.msgLen ++ natLe 8 p.sent

/-- The secure data of a parcel frame: the inner EtherType, the header and the body. -/
def secureData (p : Parcel) : List Byte := [0xB7, 0xA1] ++ parcelHeader p ++ p.body

/-- The SecTAG (R334): the MACsec EtherType, E and C with the AN, the short length, and the low packet number. -/
def secTag (an len pn : Nat) : List Byte :=
  [0x88, 0xE5] ++ natLe 1 (0x0C + an) ++ natLe 1 (if len < 48 then len else 0) ++ (natLe 4 pn).reverse

/-- The peer's address and the port's own (R328). -/
def peerAddr (s : State) (n : Nat) : Nat := getF s (MIL_PEER_LO_peer n) + 2 ^ 32 * (getF s (MIL_PEER_HI_peer n) % 2 ^ 16)
def ownAddr (s : State) (n : Nat) : Nat := getF s (MIL_MAC_LO_mac n) + 2 ^ 32 * (getF s (MIL_MAC_HI_mac n) % 2 ^ 16)

/-- A frame to an address: from the port's own, with the VLAN tag where vlan_en is 1 (R327, R328). -/
def addressed (s : State) (n dst : Nat) : Addressing where
  dst := dst
  src := ownAddr s n
  vlan := if isSet s (MIL_PORT_STATE_vlan_en n) then some (getF s (MIL_PORT_STATE_vlan_id n)) else none

/-- A frame to the peer. -/
def toPeer (s : State) (n : Nat) : Addressing := addressed s n (peerAddr s n)

/-- The bytes of a frame from its SecTAG through its ICV; the ciphertext and the ICV are AES-GCM's. -/
def frameSpan (dest : Addressing) (a : Assoc) (p : Parcel) : List Byte :=
  let d := secureData p
  let tag := secTag a.an d.length a.pn
  tag ++ bytesAt (Config.sealed a.key a.pn ((natLe 6 dest.dst).reverse ++ (natLe 6 dest.src).reverse ++ tag) d) 0 (d.length + 16)

/-! ### Erasure groups at the sender (R332) -/

/-- GF(2^8) multiplication with polynomial 0x11D. -/
def gfMulGo : Nat → Nat → Nat → Nat → Nat
  | 0, _, _, acc => acc
  | k + 1, a, b, acc =>
    let acc := if b % 2 = 1 then xorNat acc a else acc
    gfMulGo k (if 128 ≤ a then xorNat (2 * a % 256) 0x1D else 2 * a) (b / 2) acc
def gfMul (a b : Nat) : Nat := gfMulGo 8 a b 0

/-- The inverse: the 254th power. -/
def gfInv (a : Nat) : Nat := (List.range 254).foldl (fun x _ => gfMul x a) 1

/-- The coefficient of data frame i in repair frame j. -/
def gfCoef (j i : Nat) : Nat := gfInv (xorNat j (i + 4))

/-- Add c times a byte string, the shorter one padded with zeros to n. -/
def gfAddTo (n c : Nat) (acc : List Nat) (bs : List Byte) : List Nat :=
  (List.range n).map (fun b => xorNat (acc.getD b 0) (gfMul c ((bs[b]?).getD 0).toNat))

/-- The bytes of repair frame j over spans padded to n. -/
def repairBytes (n j : Nat) (spans : List (List Byte)) : List Nat :=
  (spans.mapIdx (fun i x => (i, x))).foldl (fun acc ix => gfAddTo n (gfCoef j ix.1) acc ix.2) (List.replicate n 0)

/-- A repair frame of a group of packet numbers and spans. -/
def repairOf (an no j : Nat) (group : List (Nat × List Byte)) : Repair :=
  let first := (group.headD (0, [])).1
  let n := (group.map (fun g => g.2.length)).foldl max 0
  { j := j, n := group.length, an := an, pnFirst := first, len := n, group := no % 2 ^ 16,
    entries := group.map (fun g => (g.1 - first, g.2.length)), bytes := (repairBytes n j (group.map (·.2))).map (BitVec.ofNat 8) }

/-- Close a port's open group: its four repair frames follow at once. -/
def closeGroup (s : State) (n : Nat) : State :=
  let p := milPort s n
  if p.group = [] then s
  else
    let an := p.live.getD 0
    let dest := toPeer s n
    let s := (List.range 4).foldl (fun s j => emit s (.repair n dest (repairOf an p.groupNo j p.group))) s
    setMilPort s n { p with group := [], groupNo := p.groupNo + 1 }

/-- Take the next packet number of the live association (R334, R336). -/
def takePn (s : State) (n : Nat) (a : Assoc) : State :=
  let p := milPort s n
  let s := setMilPort s n { p with
    tx := p.tx.map (fun x => if x.an = a.an then { x with pn := x.pn + 1 } else x),
    exhausted := p.exhausted || decide (2 ^ 62 ≤ a.pn + 1) }
  if 2 ^ 62 ≤ a.pn + 1 ∧ !p.exhausted then raiseEv s pgKEY evKeyExhausted [n, a.an] else s

/-- Send a parcel on a port (R328, R332, R336, R339): under the live association, with the next packet number. A port that
is down, has no live association or has exhausted its packet numbers sends nothing. -/
def sendFrame (s : State) (n : Nat) (p : Parcel) : State :=
  match (milPort s n).liveTx with
  | none => s
  | some a =>
    if !milUp s n ∨ 2 ^ 62 ≤ a.pn then s
    else
      let span := frameSpan (toPeer s n) a p
      let s := takePn (emit s (.milFrame n (toPeer s n) a.an a.pn p span)) n a
      let q := milPort s n
      let s := setMilPort s n { q with group := q.group ++ [(a.pn, span)] }
      if 32 ≤ q.group.length + 1 then closeGroup s n else s

/-! ### The receiver (R328, R333, R334) -/

/-- A frame comes in on a port (R327, R328): its codewords are counted; one that is not the peer's, or not of 64 to 9,216
bytes from its addresses to its FCS, is dropped and counted. -/
def takeWire (s : State) (n : Nat) (w : Wire) (len : Nat) : State × Bool :=
  let s := satF (satF s (MIL_FEC_low n) w.corrected) (MIL_FEC_high n) w.uncorrectable
  let bytes := 16 + 4 * b2n w.vlan + len
  if w.peer = peerAddr s n ∧ 64 ≤ bytes ∧ bytes ≤ 9216 then (s, true) else (satF s (MIL_DROP_low n) 1, false)

/-- The replay window: 8,192. -/
def replayWindow : Nat := 8192

/-- Drop a frame for its key: an ICV failure or an AN that is not installed (R338). -/
def dropSealed (s : State) (n : Nat) : State := satF s (MIL_DROP_high n) 1

/-- MACsec verification of a frame, received or rebuilt: whether it passes. -/
def verifyFrame (s : State) (n : Nat) (f : DataFrame) : State × Bool :=
  let p := milPort s n
  match p.rx.find? (fun a => a.an == f.an) with
  | none => (dropSealed s n, false)
  | some a =>
    if !f.icv then (dropSealed s n, false)
    else if f.pn + replayWindow ≤ a.pn then (satF s (MIL_DROP_low n) 1, false)
    else (setMilPort s n { p with rx := p.rx.map (fun x => if x.an = a.an then { x with pn := max x.pn f.pn } else x) }, true)

/-- The span held of data frame i of a group. -/
def heldSpan (p : MilPort) (g : GroupRx) (i : Nat) : Option (List Byte) :=
  (p.recent.find? (fun r => r.1 == g.an && r.2.1 == g.pnFirst + (g.entries.getD i (0, 0)).1)).map (·.2.2)

/-- The data frames of a group that have not arrived. -/
def missingOf (p : MilPort) (g : GroupRx) : List Nat := (List.range g.n).filter (fun i => (heldSpan p g i).isNone)

/-- Solve for unknowns over GF(2^8), each equation its coefficients and its byte string. -/
def gfSolve : Nat → List (List Nat × List Nat) → List (List Nat)
  | 0, _ => []
  | _ + 1, [] => []
  | k + 1, (cs, r) :: rest =>
    let inv := gfInv (cs.headD 0)
    let cs' := cs.tail.map (gfMul inv)
    let r' := r.map (gfMul inv)
    let xs := gfSolve k (rest.map (fun q =>
      let h := q.1.headD 0
      (List.zipWith (fun a b => xorNat a (gfMul h b)) q.1.tail cs', List.zipWith (fun a b => xorNat a (gfMul h b)) q.2 r')))
    (List.zip cs' xs).foldl (fun acc cx => List.zipWith (fun a b => xorNat a (gfMul cx.1 b)) acc cx.2) r' :: xs

/-- Rebuild the missing spans of a group from as many repair frames (R333), trimmed to their lengths. -/
def rebuild (p : MilPort) (g : GroupRx) (miss : List Nat) : List (Nat × List Byte) :=
  let eqs := (g.repairs.take miss.length).map (fun jr =>
    let known := (List.range g.n).foldl (fun acc i =>
      match heldSpan p g i with | some x => gfAddTo g.len (gfCoef jr.1 i) acc x | none => acc)
      ((bytesAt jr.2 0 g.len).map BitVec.toNat)
    (miss.map (gfCoef jr.1), known))
  (List.zip miss (gfSolve miss.length eqs)).map (fun ix =>
    (ix.1, (ix.2.take (g.entries.getD ix.1 (0, 0)).2).map (BitVec.ofNat 8)))

/-- A rebuilt span as the frame it is: found among the frames given, else one whose verification fails. -/
def rebuiltFrame (g : GroupRx) (found : List DataFrame) (ix : Nat × List Byte) : DataFrame :=
  let pn := g.pnFirst + (g.entries.getD ix.1 (0, 0)).1
  match found.find? (fun f => f.an == g.an && f.pn == pn && f.span == ix.2) with
  | some f => f
  | none => { an := g.an, pn := pn, icv := false, span := ix.2, parcel := { kind := 0 } }

/-- The frames and groups of a receive association that is erased are forgotten: an association of its number begins
packet numbers anew (R334, R338). -/
def forgetAn (p : MilPort) (an : Nat) : MilPort :=
  { p with
    rx := p.rx.filter (fun a => a.an != an), recent := p.recent.filter (fun r => r.1 != an),
    groups := p.groups.filter (fun g => g.an != an) }

/-- A group of a port is resolved or abandoned. -/
def closeRx (s : State) (n : Nat) (g : GroupRx) : State :=
  let p := milPort s n
  setMilPort s n { p with groups := p.groups.map (fun x =>
    if x.pnFirst = g.pnFirst ∧ x.an = g.an then { x with closed := true, repairs := [] } else x) }

/-- Resolve the groups that can be resolved now (R333): the frames rebuilt that pass verification. -/
def resolveGroups (s : State) (n : Nat) (found : List DataFrame) : State × List DataFrame :=
  ((milPort s n).groups.filter (fun g => !g.closed)).foldl (fun st g =>
    let (s, out) := st
    let p := milPort s n
    let miss := missingOf p g
    if miss = [] then (closeRx s n g, out)
    else if miss.length ≤ g.repairs.length then
      let fs := (rebuild p g miss).map (rebuiltFrame g found)
      fs.foldl (fun st f =>
        match verifyFrame st.1 n f with
        | (s, true) => (s, st.2 ++ [f])
        | (s, false) => (s, st.2)) (satF (closeRx s n g) (MIL_GROUPS_low n) 1, out)
    else (s, out)) (s, [])

/-- A data frame arrives on a port: the frames whose parcels are delivered, itself first. -/
def receiveFrame (s : State) (n : Nat) (f : DataFrame) (found : List DataFrame) : State × List DataFrame :=
  if !milUp s n then (s, [])
  else match takeWire s n f.wire f.span.length with
    | (s, false) => (s, [])
    | (s, true) =>
      match verifyFrame s n f with
      | (s, false) => (s, [])
      | (s, true) =>
        let p := milPort s n
        let s := setMilPort s n { p with recent := ((f.an, f.pn, f.span) :: p.recent).take replayWindow }
        let (s, more) := resolveGroups s n found
        (s, f :: more)

/-- A repair frame arrives: it joins its group unless that is resolved or abandoned. -/
def receiveRepair (s : State) (n : Nat) (r : Repair) (found : List DataFrame) : State × List DataFrame :=
  if !milUp s n then (s, []) else
  match takeWire s n r.wire (146 + r.bytes.length) with
  | (s, false) => (s, [])
  | (s, true) =>
  if 4 ≤ r.j ∨ r.n = 0 ∨ 32 < r.n then (s, [])
  else
    let p := milPort s n
    let same := fun (g : GroupRx) => g.pnFirst == r.pnFirst && g.an == r.an
    let groups := if p.groups.any same then p.groups.map (fun g =>
          if same g ∧ !g.closed then { g with repairs := tput r.j r.bytes g.repairs } else g)
      else p.groups ++ [{ an := r.an, pnFirst := r.pnFirst, n := r.n, len := r.len, entries := r.entries, repairs := [(r.j, r.bytes)] }]
    resolveGroups (setMilPort s n { p with groups := groups }) n found

/-! ### Rows of the links and the groups -/

/-- MILANT_LINK_UP (R56, R329, R361): no port trains while REFCLK_NET is missing. The page of a port that trains is
starting, and ready once its link is up (R404). -/
def milLink (s : State) (n : Nat) (up : Bool) : State :=
  if !bitOf s.pac.milPorts n ∨ !isSet s DEV_START_steward_ready ∨ milUp s n = up ∨ (up ∧ !isSet s CLK_STATUS_net_ref_ok) then s
  else
    let s := setF s (MIL_PORT_STATE_link n) (if up then 2 else 0)
    let s := if up then freshTaps s (20 + n) else s
    raiseEv (if up then upBlock s (pgMIL n) else downBlock s (pgMIL n)) (pgMIL n) (if up then evMilUp else evMilDown) [n]

def execMilantLinkUp (port : Nat) (s : State) : Host.Outcome State Fault Refusal :=
  onInstance (isMilPort port) (whileRunning s (milLink s port true))

/-- MILANT_LINK_DOWN (R329). -/
def execMilantLinkDown (port : Nat) (s : State) : Host.Outcome State Fault Refusal :=
  onInstance (isMilPort port) (whileRunning s (milLink s port false))

/-- FOREIGN_FRAME (R328). -/
def execForeignFrame (port : Nat) (s : State) : Host.Outcome State Fault Refusal :=
  onInstance (isMilPort port) (whileRunning s (if milUp s port then satF s (MIL_DROP_low port) 1 else s))

/-- GROUP_HOLD_EXPIRY (R332). -/
def execGroupHoldExpiry (port : Nat) (s : State) : Host.Outcome State Fault Refusal :=
  onInstance (isMilPort port) (whileRunning s (closeGroup s port))

end Sys2Proof.Machine
end

