-- ==== Sys2Proof/Machine/Float.lean ====
section
/-! DEFINITION. Exact binary numbers and their one rounding (07_numerics R164, R176, R177): a value is NaN, an infinity,
or a signed magnitude m x 2^e held exactly; every result is formed exactly and rounded once. -/

namespace Sys2Proof.Machine

/-- An exact floating-point value: a finite value keeps its sign bit, zero's included (R164). -/
inductive Fp where
  | nan
  | inf (neg : Bool)
  | fin (neg : Bool) (m : Nat) (e : Int)
  deriving DecidableEq, Repr

/-- A binary interchange format: its exponent and fraction widths (IEEE 754-2019, R164). -/
structure Fmt where
  eb : Nat
  mb : Nat
  deriving DecidableEq, Repr

/-- binary32. -/
def f32 : Fmt := ⟨8, 23⟩
/-- bfloat16: the upper 16 bits of binary32 (R164). -/
def bf16 : Fmt := ⟨8, 7⟩
/-- binary16. -/
def f16 : Fmt := ⟨5, 10⟩

/-- The least exponent of a normal value: 1 - bias. -/
def Fmt.emin (f : Fmt) : Int := 2 - ((2 ^ (f.eb - 1) : Nat) : Int)

/-- The pattern of the positive infinity. -/
def Fmt.infBits (f : Fmt) : Nat := (2 ^ f.eb - 1) * 2 ^ f.mb

/-- The canonical quiet NaN (R164: 0x7FC0_0000, 0x7FC0, 0x7E00). -/
def Fmt.nanBits (f : Fmt) : Nat := f.infBits + 2 ^ (f.mb - 1)

/-- The sign bit's weight. -/
def Fmt.signBit (f : Fmt) : Nat := 2 ^ (f.eb + f.mb)

/-- The exact value of a pattern; subnormals are read with their values (R164). -/
def fpDecode (f : Fmt) (bits : Nat) : Fp :=
  let frac := bits % 2 ^ f.mb
  let x := (bits / 2 ^ f.mb) % 2 ^ f.eb
  let s := bitOf bits (f.eb + f.mb)
  if x = 2 ^ f.eb - 1 then (if frac = 0 then .inf s else .nan)
  else if x = 0 then .fin s frac (f.emin - (f.mb : Int))
  else .fin s (frac + 2 ^ f.mb) (f.emin - 1 + (x : Int) - (f.mb : Int))

/-- m x 2^k, the fraction cut off. -/
def shiftFloor (m : Nat) (k : Int) : Nat := if 0 ≤ k then m * 2 ^ k.toNat else m / 2 ^ (-k).toNat

/-- floor(log2 (n/d x 2^e)) of a positive value. -/
def floorLog2Q (n d : Nat) (e : Int) : Int :=
  let a : Int := (n.log2 : Int) - (d.log2 : Int)
  let below := if 0 ≤ a then decide (n < d * 2 ^ a.toNat) else decide (n * 2 ^ (-a).toNat < d)
  (if below then a - 1 else a) + e

/-- n/d x 2^k rounded to the nearest integer, ties to even. -/
def rneQ (n d : Nat) (k : Int) : Nat :=
  let num := if 0 ≤ k then n * 2 ^ k.toNat else n
  let den := if 0 ≤ k then d else d * 2 ^ (-k).toNat
  let fl := num / den
  let r := num % den
  if den < 2 * r ∨ (2 * r = den ∧ fl % 2 = 1) then fl + 1 else fl

/-- n/d x 2^k rounded to the nearest integer, ties away from zero (round_ta, R165). -/
def rtaQ (n d : Nat) (k : Int) : Nat :=
  let num := if 0 ≤ k then n * 2 ^ k.toNat else n
  let den := if 0 ≤ k then d else d * 2 ^ (-k).toNat
  (2 * num + den) / (2 * den)

/-- The pattern of a magnitude kept x 2^q, where q is a grid exponent of the format: past the largest finite value it
is an infinity (R164). -/
def packGrid (f : Fmt) (neg : Bool) (kept : Nat) (E : Int) : Nat :=
  let bits := (E - f.emin).toNat * 2 ^ f.mb + kept
  (if f.infBits ≤ bits then f.infBits else bits) + (if neg then f.signBit else 0)

/-- Round the magnitude n/d x 2^e to a pattern, nearest with ties to even, with gradual underflow and overflow to
infinity (R164). -/
def packRne (f : Fmt) (neg : Bool) (n d : Nat) (e : Int) : Nat :=
  if n = 0 then (if neg then f.signBit else 0)
  else
    let E := max (floorLog2Q n d e) f.emin
    packGrid f neg (rneQ n d (e - (E - (f.mb : Int)))) E

/-- Round an exact value to a pattern (R164). -/
def fpEncode (f : Fmt) : Fp → Nat
  | .nan => f.nanBits
  | .inf s => f.infBits + (if s then f.signBit else 0)
  | .fin s m e => packRne f s m 1 e

/-- A signed magnitude as an integer. -/
def sInt (neg : Bool) (m : Nat) : Int := if neg then -(m : Int) else (m : Int)

/-- The exact sum; a zero sum is negative only where both operands carry the sign bit and are zero (R177). -/
def fpAdd : Fp → Fp → Fp
  | .nan, _ => .nan
  | _, .nan => .nan
  | .inf s, .inf t => if s == t then .inf s else .nan
  | .inf s, .fin _ _ _ => .inf s
  | .fin _ _ _, .inf t => .inf t
  | .fin s m e, .fin t n g =>
    let k := min e g
    let v := sInt s (m * 2 ^ (e - k).toNat) + sInt t (n * 2 ^ (g - k).toNat)
    if v = 0 then .fin (s && t && m == 0 && n == 0) 0 k else .fin (decide (v < 0)) v.natAbs k

/-- The value with its sign flipped. -/
def fpNeg : Fp → Fp
  | .nan => .nan
  | .inf s => .inf !s
  | .fin s m e => .fin (!s) m e

/-- The exact product; an infinity times zero is NaN. -/
def fpMul : Fp → Fp → Fp
  | .nan, _ => .nan
  | _, .nan => .nan
  | .inf s, .inf t => .inf (s != t)
  | .inf s, .fin t n _ => if n = 0 then .nan else .inf (s != t)
  | .fin s m _, .inf t => if m = 0 then .nan else .inf (s != t)
  | .fin s m e, .fin t n g => .fin (s != t) (m * n) (e + g)

/-- The quotient rounded once to a format, ties to even. -/
def fpDivRne (f : Fmt) : Fp → Fp → Nat
  | .nan, _ => f.nanBits
  | _, .nan => f.nanBits
  | .inf _, .inf _ => f.nanBits
  | .inf s, .fin t _ _ => f.infBits + (if s != t then f.signBit else 0)
  | .fin s _ _, .inf t => if s != t then f.signBit else 0
  | .fin s m e, .fin t n g =>
    if n = 0 then (if m = 0 then f.nanBits else f.infBits + (if s != t then f.signBit else 0))
    else packRne f (s != t) m n (e - g)

/-- One bit of the integer square root, from bit i down: r is the root so far. -/
def isqrtGo : Nat → Nat → Nat → Nat
  | 0, _, r => r
  | i + 1, n, r => let c := r + 2 ^ i; isqrtGo i n (if c * c ≤ n then c else r)

/-- The integer square root. -/
def isqrt (n : Nat) : Nat := isqrtGo (n.log2 / 2 + 1) n 0

/-- The correctly rounded square root of a value (R197). -/
def fpSqrtRne (f : Fmt) : Fp → Nat
  | .nan => f.nanBits
  | .inf s => if s then f.nanBits else f.infBits
  | .fin s m e =>
    if m = 0 then (if s then f.signBit else 0)
    else if s then f.nanBits
    else
      -- an even exponent, 64 root bits below the leading one, and a sticky bit for what the root leaves
      let e' := if e % 2 = 0 then e else e - 1
      let m' := if e % 2 = 0 then m else 2 * m
      let n := m' * 2 ^ 128
      let r := isqrt n
      packRne f false (2 * r + (if r * r = n then 0 else 1)) 1 (e' / 2 - 65)

/-! Patterns as 32-bit words. -/

/-- The value of a binary32 pattern. -/
def v32 (x : Word) : Fp := fpDecode f32 x.toNat
/-- Round to binary32 (rne32). -/
def e32 (v : Fp) : Word := BitVec.ofNat 32 (fpEncode f32 v)
/-- The binary32 sum, ties to even. -/
def fadd (x y : Word) : Word := e32 (fpAdd (v32 x) (v32 y))
/-- The binary32 difference. -/
def fsub (x y : Word) : Word := e32 (fpAdd (v32 x) (fpNeg (v32 y)))
/-- The binary32 product. -/
def fmul (x y : Word) : Word := e32 (fpMul (v32 x) (v32 y))
/-- The fused multiply-add, rounded once (R195). -/
def ffma (x y z : Word) : Word := e32 (fpAdd (fpMul (v32 x) (v32 y)) (v32 z))
/-- The binary32 quotient. -/
def fdiv (x y : Word) : Word := BitVec.ofNat 32 (fpDivRne f32 (v32 x) (v32 y))
/-- The binary32 square root. -/
def fsqrt (x : Word) : Word := BitVec.ofNat 32 (fpSqrtRne f32 (v32 x))

/-- A value is NaN. -/
def Fp.isNan : Fp → Bool | .nan => true | _ => false
/-- A value is finite. -/
def Fp.isFin : Fp → Bool | .fin _ _ _ => true | _ => false
/-- A value is an infinity. -/
def Fp.isInf : Fp → Bool | .inf _ => true | _ => false
/-- A value is a zero of either sign. -/
def Fp.isZero : Fp → Bool | .fin _ m _ => m == 0 | _ => false
/-- A pattern is NaN. -/
def isNan32 (x : Word) : Bool := (v32 x).isNan
/-- A pattern is NaN or an infinity. -/
def nonFinite32 (x : Word) : Bool := !(v32 x).isFin

/-- Patterns in their order of value, -0 equal to +0 (NaN excluded by the callers). -/
def ord32 (x : Word) : Int := sInt (bitOf x.toNat 31) (x.toNat % 2 ^ 31)
/-- Patterns in their order, -0 below +0 (R195). -/
def ordSigned32 (x : Word) : Int := if bitOf x.toNat 31 then -((x.toNat % 2 ^ 31 : Nat) : Int) - 1 else ((x.toNat % 2 ^ 31 : Nat) : Int)

/-- The absolute value's pattern. -/
def abs32 (x : Word) : Word := x &&& 0x7FFFFFFF

/-- The larger of two non-negative finite maxima (R168: maxima are taken in binary32 and do not depend on order). -/
def maxMag (x y : Word) : Word := if x.toNat < y.toNat then y else x

/-- floor_log2 of a finite non-zero pattern, exact (R166); 0 for others. -/
def floorLog2 (x : Word) : Int :=
  match v32 x with
  | .fin _ m e => if m = 0 then 0 else (m.log2 : Int) + e
  | _ => 0

/-- The binary32 infinity. -/
def inf32 : Word := 0x7F800000
/-- The binary32 negative infinity. -/
def ninf32 : Word := 0xFF800000
/-- The canonical quiet NaN of binary32. -/
def nan32 : Word := 0x7FC00000

/-! Random bits (R178) and stochastic rounding (R177). -/

/-- The mixing function of R178. -/
def mix64 (z : Dword) : Dword :=
  let z := (z ^^^ (z >>> 30)) * 0xA3C59AC23D1E6F27#64
  let z := (z ^^^ (z >>> 27)) * 0x8EB41F65C7D32A59#64
  z ^^^ (z >>> 31)

/-- The random-bit function of R178. -/
def rbits (seed : Dword) (domain step id row col pos : Nat) : Nat :=
  let k := mix64 (seed ^^^ (BitVec.ofNat 64 (domain % 256) <<< 56) ^^^ (BitVec.ofNat 64 (id % 2 ^ 16) <<< 32) ^^^ BitVec.ofNat 64 (step % 2 ^ 32))
  let h := mix64 (k ^^^ ((BitVec.ofNat 64 (row % 2 ^ 32) <<< 32) ||| BitVec.ofNat 64 (col % 2 ^ 32)))
  let h := mix64 (h ^^^ BitVec.ofNat 64 (pos % 2 ^ 32) ^^^ 0x5851F42D4C957F2D#64)
  (h >>> 48).toNat

/-- sr of R177: a non-zero exact value rounded stochastically onto the grid of a format with p = mb + 1 significant
bits, by the 16 random bits u. -/
def srRound (f : Fmt) (neg : Bool) (m : Nat) (e : Int) (u : Nat) : Nat :=
  if m = 0 then (if neg then f.signBit else 0) else
  let E0 : Int := (m.log2 : Int) + e
  let tq := E0 - 47
  let t := shiftFloor m (e - tq)                  -- truncated to 48 significant bits, in units of 2^tq
  let E := max E0 f.emin
  let q := E - (f.mb : Int)
  let kept := shiftFloor t (tq - q)
  let d := shiftFloor t (tq - q + 16) - kept * 65536
  packGrid f neg (if 65536 ≤ d + u then kept + 1 else kept) E

/-- How an add rounds: to nearest even, or stochastically by 16 keyed random bits. -/
inductive Rounding where
  | nearest
  | stochastic (u : Nat)
  deriving DecidableEq, Repr

/-- add32 of R177. -/
def add32 (x y : Word) (r : Rounding) : Word :=
  match fpAdd (v32 x) (v32 y), r with
  | .fin s m e, .stochastic u => BitVec.ofNat 32 (srRound f32 s m e u)
  | v, _ => e32 v

/-- scale32 of R176: isum x 2^sh rounded to binary32 with ties to even. -/
def scale32 (isum sh : Int) : Word := e32 (.fin (decide (isum < 0)) isum.natAbs sh)

end Sys2Proof.Machine
end

