-- ==== Sys2Proof/Machine/Formats.lean ====
section
/-! DEFINITION. The number formats of memory (07_numerics R157-R167, R174, R175): how a row of elements is laid out, the
exact value of each element, and the conversion of exact values to each format. -/

namespace Sys2Proof.Machine

/-- A block-shift format: BS8, BS6, BS4. -/
def isBS (f : Nat) : Bool := decide (f ≤ 2)
/-- An MX format. -/
def isMX (f : Nat) : Bool := decide (9 ≤ f ∧ f ≤ 11)
/-- A format with a tensor header: TS8 and K5 8-bit (R160). -/
def hasHeader (f : Nat) : Bool := f == 3 || f == 5
/-- A format whose rows are whole blocks of 32 elements. -/
def isBlocked (f : Nat) : Bool := isBS f || isMX f

/-- Bits of a code. -/
def codeBits (f : Nat) : Nat := if f = 1 then 6 else if f = 2 then 4 else 8
/-- The largest magnitude of a code, q of R158. -/
def codeMax (f : Nat) : Int := if f = 1 then 31 else if f = 2 then 7 else 127

/-- Bytes of a block-shift row's code area (R159). -/
def codeArea (f cols : Nat) : Nat := cols * codeBits f / 8

/-- Bytes of one row before padding (R159, R160). -/
def rowBytes (f cols : Nat) : Nat :=
  if isBS f then codeArea f cols + cols / 32
  else if isMX f then cols / 32 * 33
  else if f = 4 ∨ f = 7 then 2 * cols
  else if f = 6 then 4 * cols
  else cols

/-- A row's size, rounded up to 64 bytes (R159, R160). -/
def rowSize (f cols : Nat) : Nat := roundUp (rowBytes f cols) 64

/-- The code at a place of a row, as it is stored. -/
def rawCode (f : Nat) (bs : List Byte) (i : Nat) : Int :=
  if f = 1 then signed 6 (bitsOf (leAt bs (3 * (i / 4)) 3) (6 * (i % 4)) 6)
  else if f = 2 then signed 4 (bitsOf (leAt bs (i / 2) 1) (4 * (i % 2)) 4)
  else signed 8 (leAt bs i 1)

/-- The code as the KM7 reads it: -(q + 1) decodes as -q, but for K5 (R158, R161). -/
def readCode (f : Nat) (bs : List Byte) (i : Nat) : Int :=
  let c := rawCode f bs i
  if f = 5 then c else max c (-codeMax f)

/-- The shift byte of block b of a block-shift row. -/
def blockShiftAt (f cols : Nat) (bs : List Byte) (b : Nat) : Int := signed 8 (leAt bs (codeArea f cols + b) 1)

/-- An integer times a power of two. -/
def fpOfInt (c e : Int) : Fp := .fin (decide (c < 0)) c.natAbs e

/-- The positive zero. -/
def fpZero : Fp := .fin false 0 0

/-- ul8_decode (R162). -/
def ul8Decode (c : Nat) : Fp :=
  if c = 0 then fpZero
  else
    let q : Int := (c : Int) - 192
    let e := q.fdiv 4
    let j := (q - 4 * e).toNat
    match fpDecode f32 (([0x3F800000, 0x3F9837F0, 0x3FB504F3, 0x3FD744FD] : List Nat).getD j 0) with
    | .fin s m x => .fin s m (x + e)
    | v => v

/-- An E4M3 or E5M2 element's own value (R175; OCP MX 1.0): E4M3 has no infinity. -/
def mxElem (f c : Nat) : Fp :=
  if f = 10 then
    let x := c / 8 % 16
    if c % 128 = 127 then .nan
    else if x = 0 then .fin (bitOf c 7) (c % 8) (-9)
    else .fin (bitOf c 7) (8 + c % 8) ((x : Int) - 10)
  else fpDecode ⟨5, 2⟩ c

/-- Multiply by 2^k. -/
def fpScale (k : Int) : Fp → Fp
  | .fin s m e => .fin s m (e + k)
  | v => v

/-- The exact value of element i of a row; sh is the tensor's shift (R158-R164, R174, R175). -/
def elemAt (f cols : Nat) (sh : Int) (bs : List Byte) (i : Nat) : Fp :=
  if isBS f then
    let s := blockShiftAt f cols bs (i / 32)
    if s = -128 then fpZero else fpOfInt (readCode f bs i) s
  else if hasHeader f then fpOfInt (readCode f bs i) sh
  else if f = 4 then fpDecode bf16 (leAt bs (2 * i) 2)
  else if f = 6 then fpDecode f32 (leAt bs (4 * i) 4)
  else if f = 7 then fpDecode f16 (leAt bs (2 * i) 2)
  else if f = 8 then ul8Decode (leAt bs i 1)
  else
    let b := 33 * (i / 32)
    let x := leAt bs (b + 32) 1
    if x = 255 then .nan
    else if f = 9 then fpOfInt (readCode 0 bs (b + i % 32)) ((x : Int) - 133)
    else fpScale ((x : Int) - 127) (mxElem f (leAt bs (b + i % 32) 1))

/-- The elements of a row. -/
def rowElems (f cols : Nat) (sh : Int) (bs : List Byte) : List Fp := (List.range cols).map (elemAt f cols sh bs)

/-! ### Magnitudes -/

/-- x is smaller than y, of two finite magnitudes. -/
def magLt : Fp → Fp → Bool
  | .fin _ m e, .fin _ n g =>
    let k := min e g
    decide (m * 2 ^ (e - k).toNat < n * 2 ^ (g - k).toNat)
  | _, _ => false

/-- The absolute maximum of the finite values, 0 of none. -/
def amaxOf (vs : List Fp) : Fp :=
  vs.foldl (fun a v => match v with
    | .fin _ m e => if magLt a (.fin false m e) then .fin false m e else a
    | _ => a) fpZero

/-- floor_log2 of an exact value, 0 of zero. -/
def fpLog2 : Fp → Int
  | .fin _ m e => (m.log2 : Int) + e
  | _ => 0

/-- round_ta(v x 2^-sh) (R165). -/
def roundTa (v : Fp) (sh : Int) : Int :=
  match v with
  | .fin s m e => sInt s (rtaQ m 1 (e - sh))
  | _ => 0

/-- Round to nearest, ties to even, of v x 2^-sh (R182). -/
def roundEven (v : Fp) (sh : Int) : Int :=
  match v with
  | .fin s m e => sInt s (rneQ m 1 (e - sh))
  | _ => 0

/-- block_shift of R166. A magnitude beyond what binary32 holds, which exact values of wide shifts can reach, would need
a shift above 127: the spec states none, and the shift is then free. -/
def blockShiftOf (f : Nat) (amax : Fp) : Int :=
  if amax.isZero then -128
  else
    let sh := max (fpLog2 amax - ((codeBits f : Int) - 2)) (-127)
    let sh := if codeMax f < roundTa amax sh then sh + 1 else sh
    if 127 < sh then clampInt (-127) 127 (Config.openShift sh) else sh

/-! ### Conversion to a row -/

/-- What a conversion yields: the row's bytes, its saturations, its non-finite sources, and whether it must set the
overflow flag. -/
structure RowOut where
  bytes : List Byte
  sat : Nat
  nonfinite : Nat
  ovf : Bool
  deriving DecidableEq, Repr

/-- Non-finite values of a list. -/
def countNonfinite (vs : List Fp) : Nat := (vs.filter (fun v => !v.isFin)).length

/-- Cut a list into pieces of n. -/
def chunksOf {α : Type} (n : Nat) : Nat → List α → List (List α)
  | 0, _ => []
  | k + 1, l => if l.isEmpty then [] else l.take n :: chunksOf n k (l.drop n)

/-- The blocks of 32 elements of a row. -/
def blocksOf (vs : List Fp) : List (List Fp) := chunksOf 32 vs.length vs

/-- One block's shift, codes and saturations (R166, R167, R405): a given shift stands unless the block is all zero or
holds a non-finite value. -/
def encBlock (f : Nat) (given : Option Int) (vs : List Fp) : Int × List Int × Nat :=
  let a := amaxOf vs
  if a.isZero || vs.any (fun v => !v.isFin) then (-128, vs.map (fun _ => 0), 0)
  else
    let sh := given.getD (blockShiftOf f a)
    if sh = -128 then (-128, vs.map (fun _ => 0), 0)
    else
      let cs := vs.map (roundTa · sh)
      (sh, cs.map (clampInt (-codeMax f) (codeMax f)), (cs.filter (fun c => decide (codeMax f < c ∨ c < -codeMax f))).length)

/-- Pack the codes of a row (R159). -/
def packCodes (f : Nat) (cs : List Int) : List Byte :=
  if f = 1 then
    (chunksOf 4 cs.length cs).flatMap (fun g => natLe 3 ((g.mapIdx (fun j c => unsigned 6 c * 2 ^ (6 * j))).foldl (· + ·) 0))
  else if f = 2 then
    (chunksOf 2 cs.length cs).flatMap (fun g => natLe 1 ((g.mapIdx (fun j c => unsigned 4 c * 2 ^ (4 * j))).foldl (· + ·) 0))
  else cs.map (fun c => BitVec.ofNat 8 (unsigned 8 c))

/-- Pad a row's bytes to its size with zeros. -/
def padRow (f cols : Nat) (bs : List Byte) : List Byte := bs ++ List.replicate (rowSize f cols - bs.length) 0

/-- The UL8 code of a binary32 value, whether it saturates and whether it counts as non-finite (R163). -/
def ul8Encode (x : Word) : Nat × Bool × Bool :=
  let n := x.toNat
  if nonFinite32 x then (0, false, true)
  else if n % 2 ^ 31 = 0 then (0, false, false)
  else if bitOf n 31 then (0, false, true)
  else if n < 2 ^ 23 then (0, false, false)
  else
    let f := n % 2 ^ 23
    let e : Int := ((n / 2 ^ 23 : Nat) : Int) - 127
    let k : Int := if f < 0x0B95C2 then 0 else if f < 0x25FED7 then 1 else if f < 0x45672A then 2
      else if f < 0x6AC0C7 then 3 else 4
    let c := 4 * e + 192 + k
    if c < 1 then (1, false, false) else if 255 < c then (255, true, false) else (c.toNat, false, false)

/-- The MXINT8 block of a BS8 block (R174). -/
def mxint8Block (sh : Int) (cs : List Int) : List Byte :=
  if sh = -128 then List.replicate 33 0
  else
    let k := if 121 < sh then sh - 121 else 0
    (cs.map (fun c => BitVec.ofNat 8 (unsigned 8 (clampInt (-127) 127 (roundTa (fpOfInt c 0) k)))))
      ++ natLe 1 (if 121 < sh then 254 else (sh + 133).toNat)

/-- The BS8 block an MXINT8 block becomes (R174). -/
def bs8OfMxint8 (bs : List Byte) (b : Nat) : Int × List Int :=
  let x := leAt bs (33 * b + 32) 1
  let cs := (List.range 32).map (fun i => readCode 0 bs (33 * b + i))
  if x = 255 then (-128, cs.map (fun _ => 0))
  else if 6 ≤ x then ((x : Int) - 133, cs)
  else (-127, cs.map (fun c => roundTa (fpOfInt c 0) (6 - (x : Int))))

/-- A value on the grid of an MXFP8 element after division by X, and whether it saturates (R175). -/
def mxfpEncode (f : Nat) (v : Fp) (x : Int) : Nat × Bool :=
  let fm : Fmt := if f = 10 then ⟨4, 3⟩ else ⟨5, 2⟩
  let cap := if f = 10 then 0x7E else 0x7B
  match v with
  | .fin s m e =>
    if m = 0 then (if s then 128 else 0, false)
    else
      let e' := e - x
      let E := max ((m.log2 : Int) + e') fm.emin
      let bits := (E - fm.emin).toNat * 2 ^ fm.mb + rneQ m 1 (e' - (E - (fm.mb : Int)))
      (min bits cap + (if s then 128 else 0), decide (cap < bits))
  | _ => (0, false)

/-- One MXFP8 block: its bytes and saturations. The elements of a block that a non-finite source makes NaN are free. -/
def mxfpBlock (f : Nat) (vs : List Fp) : List Byte × Nat :=
  if vs.any (fun v => !v.isFin) then
    ((List.range vs.length).map (Config.nanBlockByte f (vs.map (fun v => (e32 v).toNat))) ++ [255], 0)
  else
    let a := amaxOf vs
    let emax : Int := if f = 10 then 8 else 15
    let x := if a.isZero then 0 else clampInt 0 254 (fpLog2 a - emax + 127)
    let es := vs.map (fun v => mxfpEncode f v (x - 127))
    (es.map (fun p => BitVec.ofNat 8 p.1) ++ natLe 1 x.toNat, (es.filter (·.2)).length)

/-- A row of a float format. -/
def floatRow (fm : Fmt) (nb : Nat) (vs : List Fp) : List Byte × Bool :=
  let ps := vs.map (fpEncode fm)
  (ps.flatMap (natLe nb), ps.any (fun p => decide (fm.infBits ≤ p % fm.signBit)))

/-- A row converted to a format (R165-R167, R171, R174, R175, R182, R405). sh is the tensor's shift for TS8 and K5, and
the given shift, if any, for block-shift formats. -/
def encodeRow (f : Nat) (sh : Option Int) (vs : List Fp) : RowOut :=
  let nf := countNonfinite vs
  let cols := vs.length
  if isBS f then
    let bl := (blocksOf vs).map (encBlock f sh)
    ⟨padRow f cols (packCodes f (bl.flatMap (·.2.1)) ++ bl.map (fun b => BitVec.ofNat 8 (unsigned 8 b.1))),
      (bl.map (·.2.2)).foldl (· + ·) 0, nf, decide (0 < nf)⟩
  else if f = 3 then
    let cs := vs.map (roundTa · (sh.getD 0))
    ⟨padRow f cols (packCodes 3 (cs.map (clampInt (-127) 127))), (cs.filter (fun c => decide (127 < c ∨ c < -127))).length,
      nf, decide (0 < nf)⟩
  else if f = 5 then
    let cs := vs.map (roundEven · (sh.getD 0))
    ⟨padRow f cols (packCodes 5 (cs.map (clampInt (-128) 127))), (cs.filter (fun c => decide (127 < c ∨ c < -128))).length,
      nf, decide (0 < nf)⟩
  else if f = 4 ∨ f = 6 ∨ f = 7 then
    let r := floatRow (if f = 4 then bf16 else if f = 6 then f32 else f16) (if f = 6 then 4 else 2) vs
    ⟨padRow f cols r.1, 0, nf, decide (0 < nf) || r.2⟩
  else if f = 8 then
    let us := vs.map (fun v => ul8Encode (e32 v))
    ⟨padRow f cols (us.map (fun u => BitVec.ofNat 8 u.1)), (us.filter (·.2.1)).length, (us.filter (·.2.2)).length,
      us.any (·.2.2)⟩
  else if f = 9 then
    let bl := (blocksOf vs).map (encBlock 0 none)
    ⟨padRow f cols (bl.flatMap (fun b => mxint8Block b.1 b.2.1)), 0, nf, decide (0 < nf)⟩
  else
    let bl := (blocksOf vs).map (mxfpBlock f)
    ⟨padRow f cols (bl.flatMap (·.1)), (bl.map (·.2)).foldl (· + ·) 0, nf, decide (0 < nf)⟩

/-- A BS8 row made of an MXINT8 row without passing through binary32 (R174). -/
def bs8Row (cols : Nat) (bs : List Byte) : RowOut :=
  let bl := (List.range (cols / 32)).map (bs8OfMxint8 bs)
  let nf := 32 * ((List.range (cols / 32)).filter (fun b => leAt bs (33 * b + 32) 1 == 255)).length
  ⟨padRow 0 cols (packCodes 0 (bl.flatMap (·.2)) ++ bl.map (fun b => BitVec.ofNat 8 (unsigned 8 b.1))), 0, nf, decide (0 < nf)⟩

/-- An MXINT8 row made of a BS8 row without passing through binary32 (R174): the codes are kept. -/
def mxint8Row (cols : Nat) (bs : List Byte) : RowOut :=
  ⟨padRow 9 cols ((List.range (cols / 32)).flatMap (fun b =>
    mxint8Block (blockShiftAt 0 cols bs b) ((List.range 32).map (fun i => readCode 0 bs (32 * b + i))))), 0, 0, false⟩

/-- A row of one format rewritten in another (R174, R185). -/
def convertRow (sf df cols : Nat) (srcShift : Int) (sh : Option Int) (bs : List Byte) : RowOut :=
  if sf = 9 ∧ df = 0 ∧ sh.isNone then bs8Row cols bs
  else if sf = 0 ∧ df = 9 then mxint8Row cols bs
  else encodeRow df sh (rowElems sf cols srcShift bs)

end Sys2Proof.Machine
end

