-- ==== Sys2Proof/Machine/Num.lean ====
section
/-! DEFINITION. The scale and format unit (07_numerics R168-R173, R180): slots and their running estimates, the slot
window, and the job declaration. -/

namespace Sys2Proof.Machine

/-! ### The job (R180, R183) -/

/-- The job's seed. -/
def jobSeed (s : State) : Dword := BitVec.ofNat 64 (getF s NUM_SEED_LO_seed + 2 ^ 32 * getF s NUM_SEED_HI_seed)

/-- The job runs in K5 emulation (R183). -/
def k5Job (s : State) : Bool := isSet s NUM_JOB_k5_mode

/-- The status R183 ends a command with that names these formats, if any: a native block format, UL8 or MX in K5
emulation; format 5 outside it. -/
def k5Check (s : State) (fs : List Nat) : Option (Nat × Nat) :=
  if k5Job s then (if fs.any (fun f => decide (f ≤ 3 ∨ 8 ≤ f)) then some (stArithMismatch, 2) else none)
  else if fs.contains 5 then some (stArithMismatch, 3) else none

/-- Adds of a sum of a declared length round stochastically (R141, R182). -/
def roundsStochastic (s : State) (redLen : Nat) : Bool :=
  !k5Job s && decide (2 ^ getF s NUM_JOB_sr_log2 ≤ redLen)

/-- A command of a class a NUM_JOB write must not meet is issued (R180). -/
def jobCommandIssued (s : State) : Bool := s.cmds.table.any (fun e => decide (1 ≤ e.cls ∧ e.cls ≤ 5))

/-- Count an ignored NUM_JOB or seed write. -/
def denyJob (s : State) : State := satF s NUM_STAT_job_denied 1

/-- A write to NUM_JOB (R180). -/
def declareJob (s : State) (v : Word) : State :=
  let rev := bitsOf v.toNat 0 8
  let k5 := bitsOf v.toNat 8 1
  let sr := bitsOf v.toNat 16 5
  if jobCommandIssued s ∨ sr < 8 ∨ 24 < sr then denyJob s
  else
    let s := setF (setF (setF s NUM_JOB_declared_rev rev) NUM_JOB_k5_mode k5) NUM_JOB_sr_log2 sr
    if rev = getF s DEV_INFO_arith_rev then
      raiseEv (setF s NUM_JOB_job_valid 1) pgNUM evJobDeclared [rev, k5, sr, getF s NUM_SEED_LO_seed]
    else
      let s := setF s NUM_JOB_job_valid 0
      if rev = 0 then s
      else raiseEv s pgDEV evArithMismatch [rev, getF s DEV_INFO_arith_rev, getF s NUM_SEED_LO_seed]

/-- JOB_DECLARE (R180). -/
def execJobDeclare (v : Word) (s : State) : Host.Outcome State Fault Refusal := .next (onPage s pgNUM (declareJob s v))

/-! ### Slots (R168-R172) -/

/-- A slot's record. -/
def slotRec (s : State) (n : Nat) : SlotRec := tget (fun _ => {}) s.num.slots n

/-- Store a slot's record. -/
def setSlot (s : State) (n : Nat) (r : SlotRec) : State :=
  { s with num := { s.num with slots := tset (fun _ => {}) s.num.slots n r } }

/-- Change a slot's record. -/
def onSlot (s : State) (n : Nat) (f : SlotRec → SlotRec) : State := if n < 4096 then setSlot s n (f (slotRec s n)) else s

/-- advance of R169. -/
def slotAdvance (r : SlotRec) (step : Nat) : SlotRec :=
  let r := if r.used then { r with hist := (r.curMax :: r.hist).take 16, count := min (r.count + 1) 16 } else r
  let r := { r with
    satPending := r.satStep, satStep := false, satCount := 0, curMax := 0,
    ovf0 := if step % 2 = 0 then false else r.ovf0, ovf1 := if step % 2 = 1 then false else r.ovf1,
    step := step, used := true, shiftSet := false }
  if r.count = 16 then
    let h := r.hist.foldl maxMag 0
    let sh := if h = 0 then -127 else floorLog2 h - 5
    let sh := if r.satPending then max sh (r.shift + 1) else sh
    { r with shift := clampInt (-127) 127 sh, shiftSet := true }
  else r

/-- A use of a slot for a step: none where the step is older than the slot's (R169). -/
def useSlot (s : State) (n step : Nat) : Option State :=
  let r := slotRec s n
  if r.used && decide (step < r.step) then none
  else if !r.used || decide (r.step < step) then some (setSlot s n (slotAdvance r step))
  else some s

/-- A slot number names a slot. -/
def isSlot (n : Nat) : Bool := decide (n < 4096)

/-- Fold a maximum into a slot's cur_max (R168). -/
def foldSlot (s : State) (n : Nat) (a : Word) : State := onSlot s n (fun r => { r with curMax := maxMag r.curMax a })

/-- Set the overflow flag of a slot for a step (R172). -/
def slotOvf (s : State) (n step : Nat) : State :=
  onSlot s n (fun r => if step % 2 = 0 then { r with ovf0 := true } else { r with ovf1 := true })

/-- Count a running-estimate conversion's saturations in its slot (R171). -/
def slotSaturate (s : State) (n step cmdId sats : Nat) : State :=
  let r := slotRec s n
  if sats = 0 ∨ !isSlot n then s
  else
    let s := setSlot s n { r with satCount := satAdd 16 r.satCount sats, satStep := true }
    if r.satStep then s
    else raiseEv (satF s NUM_STAT_sat_slots 1) pgNUM evSlotSaturated [n, step, r.tensor, cmdId]

/-- The shift of a slot's step for a tensor conversion (R169, R170, R405): the slot's own where it stands, else chosen
from cur_max, which a source measured first has been folded into. -/
def chooseShift (s : State) (n method fmt : Nat) : Int × State :=
  let r := slotRec s n
  if r.shiftSet ∨ (method = 1 ∧ 16 ≤ r.count) then (r.shift, s)
  else
    let sh : Int :=
      if r.curMax = 0 then -127
      else if method = 1 then floorLog2 r.curMax - 5
      else if fmt = 5 then floorLog2 r.curMax - 6
      else blockShiftOf 0 (v32 r.curMax)
    let sh := clampInt (-127) 127 sh
    (sh, setSlot s n { r with shift := sh, shiftSet := true })

/-- A conversion must measure its own source first (R170, R405). -/
def mustMeasure (s : State) (n method : Nat) : Bool :=
  let r := slotRec s n
  !(r.shiftSet || (method == 1 && decide (16 ≤ r.count))) && r.curMax == 0

/-! ### The slot record as bytes (R173) -/

/-- The 80 bytes of a slot record. -/
def slotBytes (r : SlotRec) : List Byte :=
  ((List.range 16).flatMap (fun i => natLe 4 ((r.hist[i]?).getD 0).toNat)) ++ natLe 4 r.curMax.toNat ++ natLe 4 r.step
    ++ natLe 1 (unsigned 8 r.shift) ++ natLe 1 r.count
    ++ natLe 1 (b2n r.used + 2 * b2n r.shiftSet + 4 * b2n r.satStep + 8 * b2n r.satPending + 16 * b2n r.ovf0 + 32 * b2n r.ovf1)
    ++ [0] ++ natLe 2 r.satCount ++ natLe 2 r.tensor

/-- The record 80 bytes spell: a count above 16 is stored as 16. -/
def slotOfBytes (bs : List Byte) : SlotRec :=
  let fl := leAt bs 74 1
  { hist := (List.range 16).map (fun i => BitVec.ofNat 32 (leAt bs (4 * i) 4)),
    curMax := BitVec.ofNat 32 (leAt bs 64 4), step := leAt bs 68 4, shift := signed 8 (leAt bs 72 1),
    count := min 16 (leAt bs 73 1), used := bitOf fl 0, shiftSet := bitOf fl 1, satStep := bitOf fl 2,
    satPending := bitOf fl 3, ovf0 := bitOf fl 4, ovf1 := bitOf fl 5, satCount := leAt bs 76 2, tensor := leAt bs 78 2 }

/-- A record with staged words written over it. -/
def withWords (r : SlotRec) (ws : Table Word) : SlotRec :=
  let old := slotBytes r
  slotOfBytes ((List.range 20).flatMap (fun w => natLe 4 (tget (fun _ => BitVec.ofNat 32 (leAt old (4 * w) 4)) ws w).toNat))

/-- A command's operand block names a slot (R173), counting an EXPORT that lists it and every IMPORT. -/
def namesSlot (s : State) (n : Nat) (e : CmdEntry) : Bool :=
  if e.opcode = 0x0101 then blockField s e 46 2 == n
  else if e.opcode = 0x0102 then blockField s e 66 2 == n || blockField s e 68 2 == n
  else if e.opcode = 0x0210 ∨ e.opcode = 0x0211 then blockField s e 32 2 == n
  else if e.cls = 3 then blockField s e 28 2 == n
  else if e.opcode = 0x0410 then decide (blockField s e 30 2 ≤ n ∧ n < blockField s e 30 2 + blockField s e 32 2)
  else e.opcode == 0x0411

/-- A command of a class that may use a slot, its block not read yet (R173). -/
def mayUseSlot (e : CmdEntry) : Bool :=
  e.stage == .issued && decide (1 ≤ e.cls ∧ e.cls ≤ 4) && e.opcode != 0x0110 && e.opcode != 0x0201

/-- A command holds a waiting slot record. -/
def holdsSlot (s : State) (w : SlotWait) (e : CmdEntry) : Bool :=
  w.own != some (e.q, e.idx)
    && ((w.before.contains (e.q, e.idx) && mayUseSlot e) || (e.stage != .issued && namesSlot s w.slot e))

/-- A waiting slot record may be written now. -/
def slotFree (s : State) (w : SlotWait) : Bool := !s.cmds.table.any (holdsSlot s w)

/-- NUM_SLOT_SEL.busy follows the window's waiting commit. -/
def showBusy (s : State) : State := setF s NUM_SLOT_SEL_busy (b2n (s.num.waiting.any (·.window)))

/-- Write a slot record now, or let it wait until no command uses or may use the slot (R173). -/
def commitSlot (s : State) (w : SlotWait) : State :=
  if slotFree s w then setSlot s w.slot (withWords (slotRec s w.slot) w.words)
  else showBusy { s with num := { s.num with waiting := s.num.waiting ++ [w] } }

/-- Write the waiting records that nothing holds any longer. -/
def commitWaiting (s : State) : State :=
  let due := s.num.waiting.filter (slotFree s)
  let s := { s with num := { s.num with waiting := s.num.waiting.filter (fun w => !slotFree s w) } }
  showBusy (due.foldl (fun s w => setSlot s w.slot (withWords (slotRec s w.slot) w.words)) s)

/-- A write to NUM_SLOT_SEL: staged words are discarded. -/
def selectSlot (s : State) (v : Word) : State :=
  setF { s with num := { s.num with staged := [] } } NUM_SLOT_SEL_slot (bitsOf v.toNat 0 12)

/-- Stage word w of the window. -/
def stageWord (s : State) (w : Nat) (v : Word) : State := { s with num := { s.num with staged := tput w v s.num.staged } }

/-- A write to NUM_SLOT_DATA19: every staged word commits. -/
def commitWindow (s : State) (v : Word) : State :=
  let s := stageWord s 19 v
  let ws := s.num.staged
  commitSlot { s with num := { s.num with staged := [] } }
    { slot := getF s NUM_SLOT_SEL_slot, words := ws, before := s.cmds.table.map (fun e => (e.q, e.idx)), window := true, own := none }

/-- SLOT_SELECT (R173). -/
def execSlotSelect (v : Word) (s : State) : Host.Outcome State Fault Refusal := .next (onPage s pgNUM (selectSlot s v))

/-- SLOT_WINDOW_COMMIT (R173). -/
def execSlotWindowCommit (v : Word) (s : State) : Host.Outcome State Fault Refusal :=
  .next (onPage s pgNUM (commitWindow s v))

/-- SLOT_WINDOW_COMMIT_DONE (R173): the commands that held a window commit have retired. -/
def execSlotWindowCommitDone (s : State) : Host.Outcome State Fault Refusal := .next (commitWaiting s)

end Sys2Proof.Machine
end

