-- ==== Sys2Proof/Machine/Convert.lean ====
section
/-! DEFINITION. SCALE.FIND and CONVERT (07_numerics R184-R186, R405): data-class commands that measure a tensor or rewrite
it in another format, row by row over the lanes they name. -/

namespace Sys2Proof.Machine

/-- A part of a command is still to run. -/
def partOpen (s : State) (q idx l : Nat) : Bool :=
  match findCmd s q idx with
  | some e => e.parts.any (fun p => p.lane == l && !p.done)
  | none => false

/-- Some part of a command has ended with a status other than OK. -/
def partFailed (s : State) (q idx : Nat) : Bool :=
  match findCmd s q idx with
  | some e => e.parts.any (fun p => p.done && p.status != 0)
  | none => true

/-- Read an operand block of n bytes at an address aligned to al; none where it is misaligned or unreadable. -/
def readBlock (s : State) (hits : List Hit) (e : CmdEntry) (n al : Nat) : State × Option (List Byte) :=
  if e.block % al = 0 ∧ inMemory e.block n then memRead s hits e.block n .network (some (e.q, e.idx)) else (s, none)

/-- The status of a command whose operand block cannot be read: its own where the block is misaligned or out of range, else
PARITY, as any source (R218, R233). -/
def blockFault (e : CmdEntry) (n al status detail : Nat) : Nat × Nat :=
  if e.block % al = 0 ∧ inMemory e.block n then (stParity, if regionOf e.block = .cellar then 7 else 8) else (status, detail)

/-- The operand block of R184. -/
structure ConvOp where
  find : Bool
  src : Nat
  dst : Nat
  rows : Nat
  cols : Nat
  srcPitch : Nat
  dstPitch : Nat
  sf : Nat
  df : Nat
  method : Nat
  given : Int
  slot : Nat
  step : Nat
  deriving DecidableEq, Repr

def convOpOf (find : Bool) (b : List Byte) : ConvOp :=
  { find := find, src := leAt b 0 8, dst := leAt b 8 8, rows := leAt b 16 4, cols := leAt b 20 4,
    srcPitch := leAt b 24 2, dstPitch := leAt b 26 2, sf := leAt b 28 1 % 16, df := leAt b 28 1 / 16,
    method := leAt b 29 1 % 4, given := signed 8 (leAt b 30 1), slot := leAt b 32 2, step := leAt b 36 4 }

/-- Bytes of a tensor's header (R160). -/
def headerSize (f : Nat) : Nat := if hasHeader f then 64 else 0

/-- Rows of a tensor lie in one memory and its pitch holds a row (R185, R156). -/
def spanOk (addr rows pitch size head : Nat) : Bool :=
  decide (size ≤ 64 * pitch) && inMemory addr (head + (rows - 1) * (64 * pitch) + size)

/-- A method is allowed for a destination format (R184). -/
def methodOk (c : ConvOp) : Bool :=
  if c.method = 0 then !hasHeader c.df
  else if c.method = 1 then c.df == 3
  else if c.method = 2 then hasHeader c.df
  else isBS c.df || hasHeader c.df

/-- The tensor shift a header gives, where its format is the command's (R160). -/
def headerShift (b : List Byte) (f : Nat) : Option Int := if leAt b 0 1 = f then some (signed 8 (leAt b 1 1)) else none

/-- The checks of R185 on the block alone, in order of the table but with the reserved fields first: a status and a
detail. -/
def convCheck (s : State) (b : List Byte) (c : ConvOp) : Option (Nat × Nat) :=
  let fs := if c.find then [c.sf] else [c.sf, c.df]
  if leAt b 29 1 / 4 ≠ 0 ∨ !zeroAt b 31 1 ∨ !zeroAt b 34 2 ∨ !zeroAt b 40 24 then some (stMalformed, 0)
  else if fs.any (fun f => decide (11 < f)) then some (stMalformed, 2)
  else match k5Check s fs with
    | some r => some r
    | none =>
      if !c.find ∧ (!methodOk c ∨ (hasHeader c.df ∧ c.method = 3 ∧ c.given = -128)) then some (stMalformed, 2)
      else if c.rows = 0 ∨ 16777215 < c.rows ∨ c.cols = 0 ∨ 16777215 < c.cols
          ∨ (fs.any isBlocked ∧ c.cols % 32 ≠ 0) then some (stMalformed, 3)
      else if !spanOk c.src c.rows c.srcPitch (rowSize c.sf c.cols) (headerSize c.sf)
          ∨ (!c.find ∧ !spanOk c.dst c.rows c.dstPitch (rowSize c.df c.cols) (headerSize c.df)) then some (stMalformed, 4)
      else if (c.slot ≠ 0xFFFF ∧ !isSlot c.slot)
          ∨ (!c.find ∧ (c.method = 1 ∨ c.method = 2) ∧ c.slot = 0xFFFF) then some (stMalformed, 5)
      else none

/-- The detail of a parity failure at an address: 7 in the cellar, 8 in the attic (R185, R233). -/
def parityDetail (a : Nat) : Nat := if regionOf a = .cellar then 7 else 8

/-- What a run over rows has found so far. -/
structure ConvAcc where
  amax : Fp
  sat : Nat
  nonfinite : Nat
  ovf : Bool
  written : List Nat := []

/-- Row r of the source, read for its lane; none where its part has ended or the read fails (R185). -/
def convRead (c : ConvOp) (e : CmdEntry) (hits : List Hit) (s : State) (r : Nat) : State × Option (List Byte) :=
  let l := e.firstLane + r % e.laneCount
  if !partOpen s e.q e.idx l then (s, none)
  else
    let a := c.src + headerSize c.sf + r * (64 * c.srcPitch)
    match memRead s hits a (rowSize c.sf c.cols) (.lane l) (some (e.q, e.idx)) with
    | (s, some bs) => (s, some bs)
    | (s, none) => (endPart s e.q e.idx l stParity (parityDetail a), none)

/-- One row: read, converted and written, or measured alone. -/
def convRow (c : ConvOp) (e : CmdEntry) (hits : List Hit) (srcSh : Int) (sh : Option Int) (st : State × ConvAcc) (r : Nat) :
    State × ConvAcc :=
  match convRead c e hits st.1 r with
  | (s, none) => (s, st.2)
  | (s, some bs) =>
    let vs := rowElems c.sf c.cols srcSh bs
    let acc := st.2
    let acc := { acc with amax := (let m := amaxOf vs; if magLt acc.amax m then m else acc.amax) }
    if c.find then
      let nf := countNonfinite vs
      (s, { acc with nonfinite := acc.nonfinite + nf, ovf := acc.ovf || decide (0 < nf) })
    else
      let o := convertRow c.sf c.df c.cols srcSh sh bs
      let a := c.dst + headerSize c.df + r * (64 * c.dstPitch)
      let (s, wrote) := match memWrite s hits a o.bytes (.lane (e.firstLane + r % e.laneCount)) (some (e.q, e.idx)) with
        | (s, true) => (s, [r])
        | (s, false) => (endPart s e.q e.idx (e.firstLane + r % e.laneCount) stParity (parityDetail a), [])
      (s, { acc with written := acc.written ++ wrote, sat := acc.sat + o.sat, nonfinite := acc.nonfinite + o.nonfinite, ovf := acc.ovf || o.ovf })

/-- A conversion that ends with PARITY leaves the destination rows it has not written unspecified (R185). -/
def convUnwritten (c : ConvOp) (s : State) (written : List Nat) : State :=
  if c.find then s
  else scrambleAll s (((List.range c.rows).filter (fun r => !written.contains r)).map
    (fun r => (c.dst + headerSize c.df + r * (64 * c.dstPitch), rowSize c.df c.cols)))

/-- Some part of a command has ended with PARITY. -/
def partLost (s : State) (q idx : Nat) : Bool :=
  match findCmd s q idx with
  | some e => e.parts.any (fun p => p.done && p.status == stParity)
  | none => false

/-- The source's maximum alone (R170): the rows are read once for it. -/
def measureRow (c : ConvOp) (e : CmdEntry) (hits : List Hit) (srcSh : Int) (st : State × Fp) (r : Nat) : State × Fp :=
  match convRead c e hits st.1 r with
  | (s, none) => (s, st.2)
  | (s, some bs) => let m := amaxOf (rowElems c.sf c.cols srcSh bs); (s, if magLt st.2 m then m else st.2)

/-- The header of a converted tensor (R160). -/
def tensorHeader (c : ConvOp) (sh : Int) (acc : ConvAcc) : List Byte :=
  natLe 1 c.df ++ natLe 1 (unsigned 8 sh) ++ natLe 2 (if c.method = 3 then 0xFFFF else c.slot) ++ natLe 4 c.step
    ++ natLe 4 c.rows ++ natLe 4 c.cols ++ natLe 4 (min acc.sat (2 ^ 32 - 1)) ++ natLe 4 (e32 acc.amax).toNat
    ++ List.replicate 40 0

/-- The result bytes of R186. -/
def convResult (acc : ConvAcc) (sh : Int) (warm selfm : Bool) : List Byte :=
  natLe 4 (e32 acc.amax).toNat ++ natLe 1 (unsigned 8 sh) ++ natLe 3 (min acc.sat 0xFFFFFF)
    ++ natLe 3 (min acc.nonfinite 0xFFFFFF) ++ natLe 1 (b2n acc.ovf + 2 * b2n warm + 4 * b2n selfm)

/-- Words lost on data-path stages end the parts of their lanes (R392). -/
def loseParts (s : State) (e : CmdEntry) (hits : List LaneHit) : State :=
  hits.foldl (fun s h =>
    if h.place = .pathReplayed then pathReplayed s
    else if h.place = .pathLost ∧ partOpen s e.q e.idx h.lane then
      endPart (pathFailed s (pgLANE h.lane) e.cmdId h.right) e.q e.idx h.lane stParity 10
    else s) s

/-- The tensor's shift for this conversion: the slot's for methods 1 and 2, the given one for method 3, none for method
0; with whether the source had to be measured first (R170, R405). -/
def convShift (c : ConvOp) (e : CmdEntry) (hits : List Hit) (srcSh : Int) (s : State) : Option Int × Bool × State :=
  if c.find ∨ c.method = 0 then (none, false, s)
  else if c.method = 3 then (some c.given, false, s)
  else
    let selfm := mustMeasure s c.slot c.method
    let s := if selfm then
        let (s, m) := (List.range c.rows).foldl (measureRow c e hits srcSh) (s, fpZero)
        raiseEv (foldSlot s c.slot (e32 m)) pgNUM evSelfMeasured [c.slot, c.step, e.cmdId]
      else s
    let (sh, s) := chooseShift s c.slot c.method c.df
    (some sh, selfm, s)

/-- Run the rows and end the command (R185, R186). -/
def convRun (c : ConvOp) (e : CmdEntry) (sur : Surround) (srcSh : Int) (s : State) : State :=
  let warm := isSlot c.slot && decide ((slotRec s c.slot).count < 16)
  let s := loseParts s e sur.laneHits
  let (sh, selfm, s) := convShift c e sur.hits srcSh s
  let hits := if selfm then [] else sur.hits
  let (s, acc) := (List.range c.rows).foldl (convRow c e hits srcSh sh) (s, ⟨fpZero, 0, 0, false, []⟩)
  let tsh := if hasHeader c.df ∧ !c.find then sh.getD 0 else 0
  let s := if isSlot c.slot then
      let s := foldSlot s c.slot (e32 acc.amax)
      let s := if acc.ovf then slotOvf s c.slot c.step else s
      if !c.find ∧ c.method = 1 then slotSaturate s c.slot c.step e.cmdId acc.sat else s
    else s
  let s := if 0 < acc.nonfinite then raiseEv s pgNUM evInputNonfinite [c.slot, c.step, e.cmdId, acc.nonfinite] else s
  let s := if hasHeader c.df ∧ !c.find ∧ !partFailed s e.q e.idx then
      match memWrite s sur.hits c.dst (tensorHeader c tsh acc) (.lane e.firstLane) (some (e.q, e.idx)) with
      | (s, true) => s
      | (s, false) => endPart s e.q e.idx e.firstLane stParity (parityDetail c.dst)
    else s
  let s := if partLost s e.q e.idx then convUnwritten c s acc.written else s
  endAllParts s e.q e.idx stOK 0 (convResult acc tsh warm selfm)

/-- Run a SCALE.FIND or CONVERT that is first on its lanes. -/
def convBody (find : Bool) (sur : Surround) (s : State) (e : CmdEntry) : State :=
  let fail := fun (s : State) (r : Nat × Nat) => endAllParts s e.q e.idx r.1 r.2 []
  match readBlock s sur.hits e 64 64 with
  | (s, none) => fail s (stMalformed, 7)
  | (s, some b) =>
    let c := convOpOf find b
    match convCheck s b c with
    | some r => fail s r
    | none =>
      let srcHead := if hasHeader c.sf then memRead s sur.hits c.src 64 (.lane e.firstLane) (some (e.q, e.idx)) else (s, some [0])
      match srcHead with
      | (s, none) => fail (convUnwritten c s []) (stParity, parityDetail c.src)
      | (s, some h) =>
        match (if hasHeader c.sf then headerShift h c.sf else some 0) with
        | none => fail s (stMalformed, 2)
        | some srcSh =>
          match (if c.slot = 0xFFFF then some s else useSlot s c.slot c.step) with
          | none => fail s (stMalformed, 5)
          | some s => convRun c e sur srcSh s

/-- SCALE_FIND (R185). -/
def execScaleFind (q idx : Nat) (sur : Surround) (s : State) : Host.Outcome State Fault Refusal :=
  onInstance (isQueue q) (onLanes s q idx (fun e => e.opcode == 0x0210) sur (convBody true sur))

/-- CONVERT (R185). -/
def execConvert (q idx : Nat) (sur : Surround) (s : State) : Host.Outcome State Fault Refusal :=
  onInstance (isQueue q) (onLanes s q idx (fun e => e.opcode == 0x0211) sur (convBody false sur))

end Sys2Proof.Machine
end

