-- ==== Sys2Proof/Machine/Remote.lean ====
section
/-! DEFINITION. A command's own remote requests (11_stadium_fabric R265-R268; 17_recovery R393): the request is issued on
its channel, and the answer the partner gave arrives with the command's row. -/

namespace Sys2Proof.Machine

/-- Where an address lies: on another device, or here (its own global address is served locally, R200, R265). -/
def deviceOf (s : State) (a : Nat) : Option Nat × Nat :=
  if isGlobal a then (if globalDev a = myId s then (none, localPart a) else (some (globalDev a), localPart a)) else (none, a)

/-- The stadium-global form of a local address of a device (R265). -/
def globalAddr (dev a : Nat) : Nat := 2 ^ 63 + dev * 2 ^ 50 + a % 2 ^ 50

/-- Take the transaction of a tag out of the table (R268). -/
def dropTxn (s : State) (tag : Nat) : State :=
  { s with fab := { s.fab with txns := s.fab.txns.filter (fun t => t.pkt.tag != tag) } }

/-- The transaction timeout in microseconds. -/
def txnUs (s : State) : Nat := let n := getF s FAB_TIMEOUT_txn_timeout; if n = 0 then 1000 else n

/-- Free a lost transaction: its tag is set aside for twice txn_timeout, and the loss is counted and reported (R268). -/
def loseTxn (s : State) (t : Txn) : State :=
  let s := dropTxn s t.pkt.tag
  let s := { s with fab := { s.fab with deadTags :=
    (s.fab.deadTags.filter (fun d => decide (elapsed s < d.2))) ++ [(t.pkt.tag, elapsed s + 2000 * txnUs s)] } }
  reportLost s t.pkt

/-- One remote request of a running command: the state after its answer, the status (0 OK, 1 refused, 2 not-ready, 3
lost, 9 a response that failed parity twice), and the data. A request no answer is given for is lost (R268); a damaged
response is reissued once (R393). -/
def remoteCall (s : State) (answers : List Answer) (q idx vc dev op a len operand : Nat) (data : List Byte) :
    State × Nat × List Byte :=
  let tag := freeTag s
  match sendReq s vc dev op a len operand data (.command q idx) with
  | (s, false) => (s, 3, [])
  | (s, true) =>
    match answers.find? (fun x => x.addr == globalAddr dev a), s.fab.txns.find? (fun t => t.pkt.tag == tag) with
    | some x, _ => (if x.status = 9 then satF (dropTxn s tag) DEV_REPLAY_response_reissues 1 else dropTxn s tag, x.status, x.data)
    | none, some t => (loseTxn s t, 3, [])
    | none, none => (s, 3, [])

/-- How a failed remote request ends a command (R200, R233, R393). -/
def remoteEnd (st : Nat) : Nat × Nat := if st = 9 then (stParity, 9) else (stRemoteError, if st = 1 ∨ st = 2 then st else 3)

/-- The pieces of at most 4,096 bytes a range is requested in (R266). -/
def pieces (n : Nat) : List (Nat × Nat) := (List.range (ceilDiv n 4096)).map (fun i => (4096 * i, min 4096 (n - 4096 * i)))

/-- Read n bytes of a partner's memory. -/
def remoteRead (s : State) (answers : List Answer) (q idx vc dev a n : Nat) : State × Except (Nat × Nat) (List Byte) :=
  (pieces n).foldl (fun st p =>
    match st.2 with
    | .error r => (st.1, .error r)
    | .ok got =>
      match remoteCall st.1 answers q idx vc dev 0x01 (a + p.1) p.2 0 [] with
      | (s, 0, bs) => (s, .ok (got ++ bytesAt bs 0 p.2))
      | (s, f, _) => (s, .error (remoteEnd f))) (s, .ok [])

/-- Write bytes to a partner's memory; none where every piece was answered OK. -/
def remoteWrite (s : State) (answers : List Answer) (q idx vc dev a : Nat) (bs : List Byte) : State × Option (Nat × Nat) :=
  (pieces bs.length).foldl (fun st p =>
    match st.2 with
    | some r => (st.1, some r)
    | none =>
      match remoteCall st.1 answers q idx vc dev 0x02 (a + p.1) p.2 0 (bytesAt bs p.1 p.2) with
      | (s, 0, _) => (s, none)
      | (s, f, _) => (s, some (remoteEnd f))) (s, none)

/-- Read for a command from either place, for a requester; a local parity failure is PARITY with its memory's detail
(R233). -/
def anyRead (s : State) (sur : Surround) (q idx vc : Nat) (by' : Requester) (dev : Option Nat) (a n : Nat) :
    State × Except (Nat × Nat) (List Byte) :=
  match dev with
  | some d => remoteRead s sur.answers q idx vc d a n
  | none =>
    match memRead s sur.hits a n by' (some (q, idx)) with
    | (s, some bs) => (s, .ok bs)
    | (s, none) => (s, .error (stParity, parityDetail a))

/-- Write for a command to either place. -/
def anyWrite (s : State) (sur : Surround) (q idx vc : Nat) (by' : Requester) (dev : Option Nat) (a : Nat) (bs : List Byte) :
    State × Option (Nat × Nat) :=
  match dev with
  | some d => remoteWrite s sur.answers q idx vc d a bs
  | none =>
    match memWrite s sur.hits a bs by' (some (q, idx)) with
    | (s, true) => (s, none)
    | (s, false) => (s, some (stParity, parityDetail a))

end Sys2Proof.Machine
end

