-- ==== Sys2Proof/Machine/Cabouz.lean ====
section
/-! DEFINITION. The Cabouz codec (10_cabouz R237-R246, R251-R253): canonical prefix codes, level-one blocks, level-two
stripes, the checks in their order, and what a decoder does with a block that fails one. -/

namespace Sys2Proof.Machine

/-! ### Elements and prefix codes (R237, R242) -/

/-- Symbol and residue of a 16-bit element (R237). -/
def symbolOf (x : Nat) : Nat := bitsOf x 7 8
def residueOf (x : Nat) : Nat := bitsOf x 15 1 * 128 + bitsOf x 0 7

/-- Join a symbol and a residue (R237). -/
def joinElem (sym res : Nat) : Nat := bitsOf res 7 1 * 2 ^ 15 + sym % 256 * 128 + bitsOf res 0 7

/-- The canonical codeword of a symbol (R242): the words of shorter lengths, shifted up, and those of its length before
it. -/
def codeWord (t : Table Nat) (sym : Nat) : Nat :=
  let l := codeLen t sym
  ((List.range 256).map (fun k =>
    let m := codeLen t k
    if m = 0 then 0 else if m < l then 2 ^ (l - m) else if m = l ∧ k < sym then 1 else 0)).foldl (· + ·) 0

/-- The bits of a codeword, most significant first. -/
def wordBits (l w : Nat) : List Bool := (List.range l).map (fun i => bitOf w (l - 1 - i))

/-- Bits as bytes, bit 7 of each byte first, the last byte filled with zeros (R242). -/
def bitsToBytes : Nat → List Bool → List Byte
  | 0, _ => []
  | n + 1, bs => BitVec.ofNat 8 (((List.range 8).map (fun i => b2n ((bs[i]?).getD false) * 2 ^ (7 - i))).foldl (· + ·) 0)
      :: bitsToBytes n (bs.drop 8)

/-- The bits of bytes in reading order. -/
def bytesToBits (bs : List Byte) : List Bool := bs.flatMap (fun b => (List.range 8).map (fun i => bitOf b.toNat (7 - i)))

/-- The symbols that have a codeword, with their lengths and codewords. -/
def codeBook (t : Table Nat) : List (Nat × Nat × Nat) :=
  ((List.range 256).filter (fun s => codeLen t s != 0)).map (fun s => (s, codeLen t s, codeWord t s))

/-- The number of the first twelve bits, zeros past the end. -/
def windowOf (bs : List Bool) : Nat := ((List.range 12).map (fun i => b2n ((bs[i]?).getD false) * 2 ^ (11 - i))).foldl (· + ·) 0

/-- Parse n codewords of a plane (R245, checks 4 to 6): the symbols and the bits left over, or the detail of the check
that fails. A forbidden symbol fails as check 4 (R253). -/
def parsePlane (book : List (Nat × Nat × Nat)) (bad : Nat → Bool) : Nat → List Bool → Except Nat (List Nat × List Bool)
  | 0, bs => if 8 ≤ bs.length then .error 3 else .ok ([], bs)
  | n + 1, bs =>
    if bs.isEmpty then .error 2
    else
      let w := windowOf bs
      match book.find? (fun c => w / 2 ^ (12 - c.2.1) == c.2.2) with
      | none => .error 1
      | some (sym, l, _) =>
        if bs.length < l ∨ bad sym then .error 1
        else match parsePlane book bad n (bs.drop l) with
          | .error d => .error d
          | .ok (rest, left) => .ok (sym :: rest, left)

/-- Code a plane of symbols (R243): the coded bytes, or none where it must be carried raw. -/
def codePlane (t : Table Nat) (syms : List Nat) : Option (List Byte) :=
  if syms.any (fun s => codeLen t s == 0) then none
  else
    let len := ceilDiv ((syms.map (codeLen t)).foldl (· + ·) 0) 8
    if syms.length ≤ len then none
    else some (bitsToBytes len (syms.flatMap (fun s => wordBits (codeLen t s) (codeWord t s))))

/-! ### Headers (R239, R240) -/

/-- A block header. -/
structure CbzHead where
  fmt : Nat
  slot : Nat
  gen : Nat
  count : Nat
  expLen : Nat
  raw : Bool
  /-- The blocks of a stripe and those of them that are not all zero. -/
  nb : Nat
  nz : Nat
  deriving DecidableEq, Repr

/-- The header's bytes. -/
def headBytes (fmt slot gen count expLen : Nat) (raw : Bool) : List Byte :=
  natLe 1 fmt ++ natLe 1 (if raw then 0 else gen * 16 + slot) ++ natLe 2 count ++ natLe 2 expLen ++ natLe 1 (b2n raw)
    ++ List.replicate 9 0

/-- Read a header and the run flags after it. -/
def headOf (bs : List Byte) : CbzHead :=
  let nb := leAt bs 2 2 / 32
  { fmt := leAt bs 0 1, slot := leAt bs 1 1 % 16, gen := leAt bs 1 1 / 16, count := leAt bs 2 2, expLen := leAt bs 4 2,
    raw := bitOf (leAt bs 6 1) 0, nb := nb,
    nz := ((List.range nb).filter (fun b => !bitOf (leAt bs 16 8) b)).length }

/-- Checks 1 and 2 of R245: the header is valid, and its format and count are the expected ones. -/
def checkHead (bs : List Byte) (fmt count : Nat) : Except Nat CbzHead :=
  let h := headOf bs
  let two := h.fmt == 0x22
  let most := if two then h.nz else h.count
  let ok := (h.fmt == 0x14 || h.fmt == 0x17 || two)
    && (if two then decide (32 ≤ h.count ∧ h.count ≤ 2048 ∧ h.count % 32 = 0) else decide (1 ≤ h.count ∧ h.count ≤ 2048))
    && zeroAt bs 7 9 && leAt bs 6 1 / 2 == 0 && (!h.raw || leAt bs 1 1 == 0)
    && (if most = 0 then h.expLen == 0 && !h.raw && leAt bs 1 1 == 0
        else if h.raw then h.expLen == most else decide ((two ∨ 1 ≤ h.expLen) ∧ h.expLen ≤ most))
  if !ok then .error 6 else if h.fmt ≠ fmt ∨ h.count ≠ count then .error 7 else .ok h

/-- The bytes a level-one block occupies (R238). -/
def blockSize (h : CbzHead) : Nat := roundUp (16 + h.count + h.expLen) 64

/-- The bytes a stripe occupies (R251). -/
def stripeSize (h : CbzHead) : Nat := roundUp (24 + 16 * h.nz + h.expLen) 16

/-- The symbols of a plane of n symbols at an offset, under checks 3 to 7 (R245). size is the whole block's. -/
def planeOf (s : State) (h : CbzHead) (bs : List Byte) (off n size : Nat) (bad : Nat → Bool) : Except Nat (List Nat) :=
  let plane := bytesAt bs off h.expLen
  let pads := zeroAt bs (off + h.expLen) (size - (off + h.expLen))
  if n = 0 then (if pads then .ok [] else .error 4)
  else if h.raw then
    let syms := plane.map (·.toNat)
    if syms.any bad then .error 1 else if pads then .ok syms else .error 4
  else match (cbzSlot s h.slot).lengths h.gen with
    | none => .error 5
    | some t =>
      match parsePlane (codeBook t) bad n (bytesToBits plane) with
      | .error d => .error d
      | .ok (syms, left) => if left.any id || !pads then .error 4 else .ok syms

/-! ### Level one (R238-R243) -/

/-- Encode a block of 16-bit elements with a slot's table (R243): the bytes and whether it is raw. -/
def encodeL1 (t : Table Nat) (fmt slot gen : Nat) (xs : List Nat) : List Byte × Bool :=
  let res := xs.map (fun x => BitVec.ofNat 8 (residueOf x))
  let syms := xs.map symbolOf
  let n := xs.length
  let (plane, raw) := match codePlane t syms with
    | some p => (p, false)
    | none => (syms.map (BitVec.ofNat 8), true)
  let body := headBytes fmt slot gen n plane.length raw ++ res ++ plane
  (body ++ List.replicate (roundUp body.length 64 - body.length) 0, raw)

/-- Decode a level-one block whose header has passed checks 1 and 2 (R245): its elements, or the detail. -/
def decodeL1 (s : State) (h : CbzHead) (bs : List Byte) : Except Nat (List Nat) :=
  match planeOf s h bs (16 + h.count) h.count (blockSize h) (fun _ => false) with
  | .error d => .error d
  | .ok syms => .ok (syms.mapIdx (fun i y => joinElem y (leAt bs (16 + i) 1)))

/-- The 16-bit elements of a byte string. -/
def elems16 (bs : List Byte) : List Nat := (List.range (bs.length / 2)).map (fun i => leAt bs (2 * i) 2)

/-- The format_id of an element format (R240). -/
def fmtL1 (f : Nat) : Nat := 0x10 + f

/-! ### Level two (R251-R253) -/

/-- The coded value of an element (R252) from the weight widened, the anchor and the residual: the exact sum, rounded
once to binary32. -/
def diffValue (w a e : Word) : Fp := v32 (e32 (fpAdd (fpAdd (v32 w) (fpNeg (v32 a))) (v32 e)))

/-- One block of 32 coded differences (R252): the shift, the codes, the new residuals and whether a non-finite value was
met. -/
structure DiffBlock where
  shift : Int
  codes : List Int
  resid : List Word
  ovf : Bool
  deriving DecidableEq, Repr

/-- Code one block of differences (R252). -/
def diffBlock (vs : List Fp) : DiffBlock :=
  let (sh, cs, _) := encBlock 2 none vs
  { shift := sh, codes := cs, ovf := vs.any (fun v => !v.isFin),
    resid := if sh = -128 then vs.map (fun _ => 0)
      else (List.zip vs cs).map (fun p => e32 (fpAdd p.1 (fpNeg (fpOfInt p.2 sh)))) }

/-- A coded stripe (R251, R252): its bytes, the residuals written back, whether its shift plane is raw, and the overflow
flag. -/
structure Stripe where
  bytes : List Byte
  resid : List Word
  raw : Bool
  ovf : Bool
  deriving DecidableEq, Repr

/-- Lay out a stripe of coded blocks (R251). -/
def stripeOf (t : Table Nat) (slot gen : Nat) (bls : List DiffBlock) : Stripe :=
  let live := bls.filter (fun b => b.shift != -128)
  let syms := live.map (fun b => unsigned 8 b.shift)
  let (plane, raw) := if live.isEmpty then ([], false) else match codePlane t syms with
    | some p => (p, false)
    | none => (syms.map (BitVec.ofNat 8), true)
  let flags := ((bls.mapIdx (fun i b => if b.shift = -128 then 2 ^ i else 0))).foldl (· + ·) 0
  let head := if live.isEmpty then headBytes 0x22 0 0 (32 * bls.length) 0 false
    else headBytes 0x22 slot gen (32 * bls.length) plane.length raw
  let body := head ++ natLe 8 flags ++ live.flatMap (fun b => packCodes 2 b.codes) ++ plane
  ⟨body ++ List.replicate (roundUp body.length 16 - body.length) 0, bls.flatMap (·.resid), raw, bls.any (·.ovf)⟩

/-- Code a stripe of elements (R252). -/
def encodeL2 (t : Table Nat) (slot gen : Nat) (ws anchors es : List Word) : Stripe :=
  let vs := (List.zip ws (List.zip anchors es)).map (fun p => diffValue p.1 p.2.1 p.2.2)
  stripeOf t slot gen ((blocksOf vs).map diffBlock)

/-- Give each block of a stripe its values: zeros where its flag is set, else the next 16 code bytes and shift. -/
def stripeValues (flags : Nat) (codes : List Byte) : Nat → Nat → Nat → List Nat → List Fp
  | 0, _, _, _ => []
  | n + 1, b, k, shs =>
    if bitOf flags b then List.replicate 32 fpZero ++ stripeValues flags codes n (b + 1) k shs
    else (List.range 32).map (fun i => fpOfInt (readCode 2 (bytesAt codes (16 * k) 16) i) (signed 8 (shs.headD 0)))
      ++ stripeValues flags codes n (b + 1) (k + 1) (shs.drop 1)

/-- Decode a stripe whose header has passed checks 1 and 2 (R245, R253). -/
def decodeL2 (s : State) (h : CbzHead) (bs : List Byte) : Except Nat (List Fp) :=
  match planeOf s h bs (24 + 16 * h.nz) h.nz (stripeSize h) (· == 0x80) with
  | .error d => .error d
  | .ok shs =>
    if leAt bs 16 8 / 2 ^ h.nb ≠ 0 then .error 4
    else .ok (stripeValues (leAt bs 16 8) (bytesAt bs 24 (16 * h.nz)) h.nb 0 0 shs)

/-! ### A block that fails a check (R246) -/

/-- What the decoder makes of a block: it is read once more where a check fails, and reported damaged where the second
reading fails too. firstFails is the detail of a first reading that fails though the block is good. -/
def judgeBlock (s : State) (addr cmdId : Nat) (head : List Byte) (firstFails : Option Nat) (failed : Option Nat) : State :=
  match (match firstFails with | some d => some d | none => failed) with
  | none => satF s CBZ_BLOCKS_DEC_count 1
  | some d =>
    let s := raiseEv (satF s CBZ_CHECKS_rereads 1) pgCBZ evBlockReread [addr, d, cmdId]
    match failed with
    | none => satF s CBZ_BLOCKS_DEC_count 1
    | some d =>
      let h := headOf head
      let s := satF s CBZ_CHECKS_damaged 1
      let s := setF (setF s CBZ_DMG_LO_addr (addr % 2 ^ 32)) CBZ_DMG_HI_addr (addr / 2 ^ 32)
      let s := setF (setF (setF s CBZ_DMG_INFO_detail d) CBZ_DMG_INFO_slot h.slot) CBZ_DMG_INFO_generation h.gen
      let s := setF (setF s CBZ_DMG_INFO_level_two (b2n (h.fmt == 0x22))) CBZ_DMG_INFO_valid 1
      raiseEv s pgCBZ evBlockDamaged [addr, d, h.slot, h.gen, cmdId]

/-- The detail a first reading fails with, where the row says so. -/
def flakyAt (sur : Surround) (addr : Nat) : Option Nat := (sur.flaky.find? (fun f => f.1 == addr)).map (·.2)

/-- Count an encoded block or stripe. -/
def countEncoded (s : State) (raw : Bool) : State :=
  let s := satF s CBZ_BLOCKS_ENC_count 1
  if raw then satF s CBZ_RAW_raw 1 else s

/-! ### The rows of the table slots (R248) -/

/-- TABLE_COMMIT: writing commit with new_gen. -/
def execTableCommit (slot gen : Nat) (s : State) : Host.Outcome State Fault Refusal :=
  onInstance (isSlotC slot)
    (onPage s (pgCbzTbl (slot / 4)) (tableCtrlWrite s slot (BitVec.ofNat 32 (gen % 16 + 0x100))))

/-- TABLE_RETIRE: writing retire. -/
def execTableRetire (slot : Nat) (s : State) : Host.Outcome State Fault Refusal :=
  onInstance (isSlotC slot)
    (onPage s (pgCbzTbl (slot / 4)) (tableCtrlWrite s slot (BitVec.ofNat 32 (getF s (CBZ_TBL_CTRL_new_gen slot) + 0x200))))

end Sys2Proof.Machine
end

