-- ==== Sys2Proof/Machine/Arrays.lean ====
section
/-! DEFINITION. The twin arrays' arithmetic (06_lanes R129-R137, R141; 07_numerics R176, R177): the modes, the sum of one
output element over its stationary tiles, the drain's conversion, and the parity events of a lane. -/

namespace Sys2Proof.Machine

/-- The modes of R129. -/
inductive Mode where
  | int8 | bs4 | bf16 | k5
  deriving DecidableEq, Repr

/-- The mode two operand formats form, if any (R129, R139). -/
def modeOf (a b : Nat) : Option Mode :=
  let eight := fun f => f == 0 || f == 1 || f == 3
  if eight a && eight b then some .int8
  else if a = 2 ∧ b = 2 then some .bs4
  else if a = 4 ∧ b = 4 then some .bf16
  else if a = 5 ∧ b = 5 then some .k5
  else none

/-- The reduction length of a stationary tile (R129). -/
def Mode.tile : Mode → Nat
  | .int8 => 128
  | .bs4 => 256
  | .bf16 => 64
  | .k5 => 128

/-- One row of a streamed operand or one column of a stationary one: its format, its reduction length, its tensor shift
and its bytes. -/
structure Vec where
  fmt : Nat
  len : Nat
  shift : Int
  bytes : List Byte

/-- The code at a reduction index; past the operand's end it is 0 (R140). -/
def Vec.code (v : Vec) (i : Nat) : Int := if i < v.len then readCode v.fmt v.bytes i else 0

/-- The shift in force at a reduction index, or none in an all-zero block (R134, R158). -/
def Vec.shiftAt (v : Vec) (i : Nat) : Option Int :=
  if isBS v.fmt then (let sh := blockShiftAt v.fmt v.len v.bytes (i / 32); if sh = -128 then none else some sh)
  else some v.shift

/-- The exact integer sum of n products from a reduction index. -/
def dotInt (a b : Vec) (k n : Nat) : Int := (List.range n).foldl (fun t r => t + a.code (k + r) * b.code (k + r)) 0

/-- An integer segment scaled into binary32 (R134, R176). -/
def segInt (a b : Vec) (k n : Nat) : Word :=
  match a.shiftAt k, b.shiftAt k with
  | some x, some y => scale32 (dotInt a b k n) (x + y)
  | _, _ => 0

/-- The exact sum of 16 bfloat16 products, rounded once (R176). -/
def segBf16 (a b : Vec) (k : Nat) : Word :=
  e32 ((List.range 16).foldl (fun t r =>
    fpAdd t (fpMul (fpDecode bf16 (leAt a.bytes (2 * (k + r)) 2)) (fpDecode bf16 (leAt b.bytes (2 * (k + r)) 2)))) fpZero)

/-- The segments of a tile that begins at k0 and covers kv reduction indices: each contribution with the reduction
position of its add (R134). -/
def segments (m : Mode) (a b : Vec) (k0 kv : Nat) : List (Word × Nat) :=
  match m with
  | .int8 => ((List.range 4).filter (fun s => decide (32 * s < kv))).map (fun s => (segInt a b (k0 + 32 * s) 32, k0 + 32 * s + 31))
  | .bs4 => (List.range 4).flatMap (fun s =>
      (if 32 * s < kv then [(segInt a b (k0 + 32 * s) 32, k0 + 32 * s + 31)] else [])
        ++ (if 128 + 32 * s < kv then [(segInt a b (k0 + 128 + 32 * s) 32, k0 + 128 + 32 * s + 31)] else []))
  | .bf16 => ((List.range 4).filter (fun s => decide (16 * s < kv))).map (fun s => (segBf16 a b (k0 + 16 * s), k0 + 16 * s + 15))
  | .k5 => ((List.range 2).filter (fun s => decide (64 * s < kv))).map (fun s => (segInt a b (k0 + 64 * s) 64, k0 + 64 * s + 63))

/-- The running sum of one element over one tile (R134). rnd gives the rounding of an add by its position. -/
def tileSum (m : Mode) (a b : Vec) (k0 kv : Nat) (rnd : Nat → Rounding) : Word :=
  (segments m a b k0 kv).foldl (fun run p => add32 run p.1 (rnd p.2)) 0

/-- One output element over all its stationary tiles, in ascending reduction order (R134, R140): it begins fresh, or from
the value an earlier command left. -/
def elementSum (m : Mode) (a b : Vec) (k : Nat) (start : Option Word) (rnd : Nat → Rounding) : Word :=
  ((List.range (ceilDiv k m.tile)).foldl (fun (acc : Option Word) t =>
    let k0 := t * m.tile
    let kv := min m.tile (k - k0)
    let run := tileSum m a b k0 kv rnd
    some (match acc with
      | none => run
      | some x => add32 x run (rnd (k0 + kv - 1)))) start).getD 0

/-- How the adds of an output element round (R141, R179). -/
def elementRounding (stoch : Bool) (seed : Dword) (step id row col pos : Nat) : Rounding :=
  if stoch then .stochastic (rbits seed 0 step id row col pos) else .nearest

/-- Bytes of an output element (R137). -/
def outSize (f : Nat) : Nat := if f = 0 then 4 else 2

/-- A drained binary32 value in the output format (R137). -/
def drainBits (f : Nat) (x : Word) : Nat :=
  if f = 0 then x.toNat else fpEncode (if f = 1 then bf16 else f16) (v32 x)

/-- The value a drained pattern has. -/
def drainValue (f p : Nat) : Fp := fpDecode (if f = 0 then f32 else if f = 1 then bf16 else f16) p

/-! ### Memory and accumulator storage -/

/-- The rows of an operand at given places, read by lane l's fill engine; none where a read fails. -/
def readRows (s : State) (l base pitch size : Nat) (own : Nat × Nat) : List Nat → State × Option (List (List Byte))
  | [] => (s, some [])
  | i :: is =>
    match memRead s [] (base + i * (64 * pitch)) size (.lane l) (some own) with
    | (s, none) => (s, none)
    | (s, some bs) =>
      match readRows s l base pitch size own is with
      | (s, none) => (s, none)
      | (s, some rest) => (s, some (bs :: rest))

/-- The key of an accumulator element: its array, row and column (R136). -/
def accKey (right : Bool) (row col : Nat) : Nat := ((b2n right) * 1024 + row) * 128 + col

/-- The accumulator value of a lane. -/
def accAt (s : State) (l : Nat) (right : Bool) (row col : Nat) : Word := tget (fun _ => 0) (lane s l).acc (accKey right row col)

/-- Leave a value in accumulator storage. -/
def setAcc (s : State) (l : Nat) (right : Bool) (row col : Nat) (v : Word) : State :=
  let ln := lane s l
  setLane s l { ln with acc := tset (fun _ => 0) ln.acc (accKey right row col) v }

/-- The tag of an array's accumulator storage. -/
def accTag (s : State) (l : Nat) (right : Bool) : Option (List Nat) := if right then (lane s l).tagR else (lane s l).tagL

/-- An array's clock turns on with the first row its feeder has ready (R152). -/
def wakeArray (s : State) (l : Nat) (right : Bool) : State :=
  setLane s l (if right then { lane s l with rightOn := true } else { lane s l with leftOn := true })

/-! ### The shelf (R127, R131) -/

/-- The code of a reduction index as bits. -/
def codeAt (f : Nat) (bs : List Byte) (i : Nat) : Nat := unsigned (codeBits f) (rawCode f bs i)

/-- The shelf byte of array row k, for the streamed row of a tile whose reduction runs from k0 over kv indices (R129, R130):
a code; in BS4 mode the pair of indices k and 128 + k, the first in the low bits; in bfloat16 mode one half of the element of
index k / 2, the low one on the even row (log entry 99). -/
def shelfByte (m : Mode) (f : Nat) (bs : List Byte) (k0 kv k : Nat) : Byte :=
  match m with
  | .bf16 => (bs[2 * k0 + k]?).getD 0
  | .bs4 => BitVec.ofNat 8 (codeAt f bs (k0 + k) + (if 128 + k < kv then 16 * codeAt f bs (k0 + 128 + k) else 0))
  | _ => BitVec.ofNat 8 (codeAt f bs (k0 + k))

/-- The array rows a tile of kv reduction indices streams into. -/
def arrayRows (m : Mode) (kv : Nat) : Nat :=
  match m with
  | .bf16 => 2 * kv
  | _ => min 128 kv

/-- The fill engine writes streamed row m of a tile into the shelf already skewed (R131): array row k's byte in byte column k
of line base + m + k. -/
def fillShelf (s : State) (l base m : Nat) (bytes : List Byte) : State :=
  let ln := lane s l
  setLane s l { ln with
    shelf := (bytes.mapIdx (fun k b => (k, b))).foldl
      (fun t x => tset (fun _ => 0) t (128 * ((base + m + x.1) % 16384) + x.1) x.2) ln.shelf }

/-- Fill the shelf with a streamed row for every stationary tile it runs under. base gives the line each of them begins at. -/
def fillRow (s : State) (l : Nat) (mode : Mode) (base : Nat → Nat) (m : Nat) (v : Vec) : State :=
  (List.range (ceilDiv v.len mode.tile)).foldl (fun s t =>
    let k0 := t * mode.tile
    let kv := min mode.tile (v.len - k0)
    fillShelf s l (base t) m ((List.range (arrayRows mode kv)).map (shelfByte mode v.fmt v.bytes k0 kv))) s

/-! ### Parity in the lane (R148, R149) -/

/-- A word of a lane fails for good (R148, R149): lane.parity.failed is raised and the part ends with PARITY. -/
def laneFault (s : State) (e : CmdEntry) (l detail : Nat) (right : Bool) : State :=
  endPart (raiseEv s (pgLANE l) evParityFailed [l, b2n right, detail, e.cmdId]) e.q e.idx l stParity detail

/-- A failing word of a lane met by a product (R148, R149, R392). -/
def productHit (e : CmdEntry) (s : State) (h : LaneHit) : State :=
  if !partOpen s e.q e.idx h.lane then s
  else match h.place with
    | .shelfReread => raiseEv s (pgLANE h.lane) evParityReplayed [h.lane, b2n h.right, h.line, 1]
    | .shelfRefetch => raiseEv s (pgLANE h.lane) evParityReplayed [h.lane, b2n h.right, h.line, 2]
    | .shelfLost => laneFault s e h.lane 1 h.right
    | .accumulator => laneFault s e h.lane 2 h.right
    | .array => laneFault s e h.lane 3 h.right
    | .pathReplayed => pathReplayed s
    | .pathLost => endPart (pathFailed s (pgLANE h.lane) e.cmdId h.right) e.q e.idx h.lane stParity 10
    | _ => s

end Sys2Proof.Machine
end

