-- ==== Sys2Proof/Machine/Matmul.lean ====
section
/-! DEFINITION. MATMUL (06_lanes R136-R144): its operand block and checks, the tiles over lanes and arrays, the fused
product over a landing, the result bytes; the array clocks (R151, R152) and the lane reset (R60). -/

namespace Sys2Proof.Machine

/-! ### Operand block and checks (R138, R139, R156) -/

/-- The operand block of R138. -/
structure MmOp where
  a : Nat
  b : Nat
  c : Nat
  aPitch : Nat
  bPitch : Nat
  cPitch : Nat
  mblk : Nat
  m : Nat
  k : Nat
  n : Nat
  af : Nat
  bf : Nat
  out : Nat
  acc : Nat
  drain : Nat
  row : Nat
  slot : Nat
  redLen : Nat
  step : Nat
  row0 : Nat
  col0 : Nat
  landing : Nat
  fused : Bool
  deriving DecidableEq, Repr

def mmOpOf (b : List Byte) : MmOp :=
  { a := leAt b 0 8, b := leAt b 8 8, c := leAt b 16 8, aPitch := leAt b 24 2, bPitch := leAt b 26 2, cPitch := leAt b 28 2,
    mblk := leAt b 30 2, m := leAt b 32 4, k := leAt b 36 4, n := leAt b 40 2, af := leAt b 42 1 % 16, bf := leAt b 42 1 / 16,
    out := bitsOf (leAt b 43 1) 0 3, acc := bitsOf (leAt b 43 1) 3 2, drain := bitsOf (leAt b 43 1) 5 2, row := leAt b 44 2,
    slot := leAt b 46 2, redLen := leAt b 48 4, step := leAt b 52 4, row0 := leAt b 56 2, col0 := leAt b 58 2,
    landing := leAt b 60 1 % 64, fused := bitOf (leAt b 60 1) 6 }

/-- A landing. -/
def landing (s : State) (n : Nat) : Landing := tget (fun _ => {}) s.coll.landings n

/-- Store a landing. -/
def setLanding (s : State) (n : Nat) (l : Landing) : State :=
  { s with coll := { s.coll with landings := tset (fun _ => {}) s.coll.landings n l } }

/-- Output tiles (R140). -/
def mmTiles (o : MmOp) : Nat := ceilDiv o.m o.mblk * ceilDiv o.n 128

/-- The sums stay in accumulator storage (R136). -/
def keeps (acc drain : Nat) : Bool := acc == 1 || drain == 0

/-- The lane and array of tile t (R140). -/
def tileLane (e : CmdEntry) (t : Nat) : Nat := e.firstLane + t % e.laneCount
def tileRight (e : CmdEntry) (t : Nat) : Bool := t / e.laneCount % 2 == 1

/-- The turn of tile t on its array (R136). -/
def tileTurn (e : CmdEntry) (o : MmOp) (t : Nat) : Nat := if keeps o.acc o.drain then t / (2 * e.laneCount) else 0

/-- The arrays a product uses, each by its first tile. -/
def mmArrays (e : CmdEntry) (o : MmOp) : List (Nat × Bool) :=
  (List.range (min (mmTiles o) (2 * e.laneCount))).map (fun t => (tileLane e t, tileRight e t))

/-- The tag of R136. -/
def mmTag (e : CmdEntry) (o : MmOp) : List Nat :=
  [0, o.row, o.mblk, o.m, o.n, o.row0, o.col0, e.firstLane, e.laneCount]

/-- A range lies in the attic. -/
def inAttic (a n : Nat) : Bool := regionOf a == .attic && regionOf (a + (n - 1)) == .attic

/-- An operand lies in the attic and its pitch holds a row (R156, detail 4). -/
def atticSpan (addr rows pitch size head : Nat) : Bool :=
  decide (size ≤ 64 * pitch) && inAttic addr (head + (rows - 1) * (64 * pitch) + size)

/-- The region of R136 ends by row 1,023. -/
def accFits (row tiles rows : Nat) : Bool := decide (row + tiles * rows ≤ 1024)

/-- The checks of R138 to R143 and R156 on the block, before any header is read. -/
def mmCheck (s : State) (e : CmdEntry) (b : List Byte) (o : MmOp) : Option (Nat × Nat) :=
  if bitOf (leAt b 43 1) 7 || bitOf (leAt b 60 1) 7 || !zeroAt b 61 3 then some (stMalformed, 0)
  else if 5 < o.af ∨ 5 < o.bf then some (stMalformed, 2)
  else match k5Check s [o.af, o.bf] with
    | some r => some r
    | none =>
      if (modeOf o.af o.bf).isNone then some (stMalformed, 2)
      else if o.mblk = 0 ∨ 1024 < o.mblk ∨ o.m = 0 ∨ 16777215 < o.m ∨ o.n = 0 ∨ o.k < 32 ∨ 16777184 < o.k ∨ o.k % 32 ≠ 0 then
        some (stMalformed, 3)
      else if 2 < o.out ∨ 1 < o.acc ∨ 2 < o.drain ∨ (o.drain = 2 ∧ o.out ≠ 0)
          ∨ (o.fused ∧ ((landing s o.landing).state = 0 ∨ (landing s o.landing).pitch ≠ o.bPitch)) then some (stMalformed, 6)
      else if !atticSpan o.a o.m o.aPitch (rowSize o.af o.k) (headerSize o.af)
          ∨ (!o.fused ∧ !atticSpan o.b o.n o.bPitch (rowSize o.bf o.k) (headerSize o.bf))
          ∨ (o.fused ∧ 64 * o.bPitch < rowSize o.bf o.k)
          ∨ (o.drain ≠ 0 ∧ !atticSpan o.c o.m o.cPitch (o.n * outSize o.out) 0) then some (stMalformed, 4)
      else if !accFits o.row (if keeps o.acc o.drain then (mmTiles o - 1) / (2 * e.laneCount) + 1 else 1) o.mblk then
        some (stMalformed, 5)
      else if o.acc = 1 ∧ (mmArrays e o).any (fun x => accTag s x.1 x.2 != some (mmTag e o)) then some (stMalformed, 5)
      else if o.slot ≠ 0xFFFF ∧ !isSlot o.slot then some (stMalformed, 36)
      else none

/-- Where B lies and where its header does: its address, or the landing and the 64 bytes before it (R143). -/
def mmBase (s : State) (o : MmOp) : Nat := if o.fused then (landing s o.landing).addr else o.b + headerSize o.bf
def mmHeadB (s : State) (o : MmOp) : Nat := if o.fused then (landing s o.landing).addr - 64 else o.b

/-- A tensor header read for a product: 0 for a format without one, none where the read fails, some none where its format
is not the command's. -/
def readHeader (s : State) (hits : List Hit) (l f a : Nat) (own : Nat × Nat) : State × Option (Option Int) :=
  if !hasHeader f then (s, some (some 0))
  else match memRead s hits a 64 (.lane l) (some own) with
    | (s, none) => (s, none)
    | (s, some h) => (s, some (headerShift h f))

/-! ### Running (R134-R137, R140-R144) -/

/-- What a product finds as it runs: overflow, the largest magnitude it drained, and its stationary-load slots. -/
structure MmAcc where
  ovf : Bool := false
  amax : Fp := fpZero
  loads : Nat := 0

/-- A product under way: its operands' shifts, B's place, and its rounding. -/
structure MmRun where
  o : MmOp
  mode : Mode
  shA : Int
  shB : Int
  baseB : Nat
  stoch : Bool
  seed : Dword

/-- The rounding of an element's adds. -/
def mmRnd (p : MmRun) (e : CmdEntry) (r c pos : Nat) : Rounding :=
  elementRounding p.stoch p.seed p.o.step e.cmdId (p.o.row0 * 128 + r) (p.o.col0 * 128 + c) pos

/-- Drain the values of one row from a column on for lane l (R137, R142): the detail where the destination's read or write
fails parity. -/
def drainRow (l out drain addr : Nat) (own : Nat × Nat) (rnd : Nat → Rounding) (vals : List Word) (st : State × MmAcc) :
    State × MmAcc × Option Nat :=
  let (s, acc) := st
  let old := if drain = 2 then memRead s [] addr (4 * vals.length) (.lane l) (some own) else (s, some [])
  match old with
  | (s, none) => (s, acc, some 8)
  | (s, some bs) =>
    let vs := if drain = 2 then vals.mapIdx (fun i v => add32 (BitVec.ofNat 32 (leAt bs (4 * i) 4)) v (rnd i)) else vals
    let ps := vs.map (drainBits out)
    let xs := ps.map (drainValue out)
    let m := amaxOf xs
    let acc := { acc with ovf := acc.ovf || xs.any (fun x => !x.isFin), amax := if magLt acc.amax m then m else acc.amax }
    match memWrite s [] addr (ps.flatMap (natLe (outSize out))) (.lane l) (some own) with
    | (s, true) => (s, acc, none)
    | (s, false) => (s, acc, some 8)

/-- One streamed row of output tile t, row m of the tile: it goes into the shelf (R131), its sums stay in storage where they
are kept, and it drains. -/
def mmRow (p : MmRun) (e : CmdEntry) (t m accRow j : Nat) (bs : List Vec) (st : State × MmAcc) (r : Nat) : State × MmAcc :=
  let (s, acc) := st
  let own := (e.q, e.idx)
  let l := tileLane e t
  let right := tileRight e t
  if !partOpen s e.q e.idx l then (s, acc)
  else match memRead s [] (p.o.a + headerSize p.o.af + r * (64 * p.o.aPitch)) (rowSize p.o.af p.o.k) (.lane l) (some own) with
    | (s, none) => (endPart s e.q e.idx l stParity 1, acc)
    | (s, some ab) =>
      let a : Vec := ⟨p.o.af, p.o.k, p.shA, ab⟩
      let s := fillRow s l p.mode (Config.shelfBase t) m a
      let vals := bs.mapIdx (fun c b => elementSum p.mode a b p.o.k
        (if p.o.acc = 1 then some (accAt s l right accRow c) else none) (mmRnd p e r (128 * j + c)))
      let acc := { acc with ovf := acc.ovf || vals.any nonFinite32 }
      let s := if keeps p.o.acc p.o.drain then
          (vals.mapIdx (fun c v => (c, v))).foldl (fun s x => setAcc s l right accRow x.1 x.2) s
        else s
      if p.o.drain = 0 then (s, acc)
      else match drainRow l p.o.out p.o.drain (p.o.c + r * (64 * p.o.cPitch) + 128 * j * outSize p.o.out) own
          (fun i => mmRnd p e r (128 * j + i) 0xFFFFFFFF) vals (s, acc) with
        | (s, acc, none) => (s, acc)
        | (s, acc, some d) => (endPart s e.q e.idx l stParity d, acc)

/-- Count a tile's stationary-load slots and streamed rows on its lane. -/
def countTile (s : State) (l loads rows : Nat) : State := satF (satF s (LANE_CNT_LOAD_count l) loads) (LANE_CNT_LINE_count l) rows

/-- One output tile on its array (R140). -/
def mmTile (p : MmRun) (e : CmdEntry) (st : State × MmAcc) (t : Nat) : State × MmAcc :=
  let (s, acc) := st
  let l := tileLane e t
  let right := tileRight e t
  let mb := ceilDiv p.o.m p.o.mblk
  let i := t % mb
  let j := t / mb
  let cols := min 128 (p.o.n - 128 * j)
  let rows := min p.o.mblk (p.o.m - i * p.o.mblk)
  let steps := ceilDiv p.o.k p.mode.tile
  if !partOpen s e.q e.idx l then (s, acc)
  else
    let s := wakeArray s l right
    match readRows s l p.baseB p.o.bPitch (rowSize p.o.bf p.o.k) (e.q, e.idx) ((List.range cols).map (128 * j + ·)) with
    | (s, none) => (endPart s e.q e.idx l stParity 1, acc)
    | (s, some bb) =>
      let bs := bb.map (fun x => (⟨p.o.bf, p.o.k, p.shB, x⟩ : Vec))
      let s := countTile s l (128 * steps) (rows * steps)
      let base := p.o.row + tileTurn e p.o t * p.o.mblk
      (List.range rows).foldl (fun st r => mmRow p e t r (base + r) j bs st (i * p.o.mblk + r))
        (s, { acc with loads := acc.loads + 128 * steps })

/-- The destination's row ranges. -/
def mmDest (o : MmOp) : List (Nat × Nat) :=
  if o.drain = 0 then [] else (List.range o.m).map (fun r => (o.c + r * (64 * o.cPitch), o.n * outSize o.out))

/-- The lines a product's operands and destination touch. -/
def mmTouches (p : MmRun) (line : Nat) : Bool :=
  let o := p.o
  let inside := fun a n => decide (lineOf a ≤ line ∧ line < a + n)
  inside o.a (headerSize o.af + (o.m - 1) * (64 * o.aPitch) + rowSize o.af o.k)
    || inside p.baseB ((o.n - 1) * (64 * o.bPitch) + rowSize o.bf o.k)
    || (o.drain == 2 && inside o.c ((o.m - 1) * (64 * o.cPitch) + 4 * o.n))

/-- A part of a command ended with PARITY of accumulator storage or of the array: the destination is unspecified (R149). -/
def voidedDest (s : State) (q idx : Nat) : Bool :=
  match findCmd s q idx with
  | some e => e.parts.any (fun p => p.done && p.status == stParity && (p.detail == 2 || p.detail == 3))
  | none => false

/-- The failing words replayed while the command ran set its flag (R144). -/
def replayedHit (h : LaneHit) : Bool := h.place == .shelfReread || h.place == .shelfRefetch

/-- Bubbles the lanes of a command start while its parts run there, each counted on its lane (R133): the state, and how
many. -/
def countBubbles (e : CmdEntry) (s : State) (bs : List LaneBubbles) : State × Nat :=
  bs.foldl (fun st b =>
    if partOpen st.1 e.q e.idx b.lane then
      (satF (satF st.1 (LANE_CNT_DRY_count b.lane) b.dry) (LANE_CNT_DRAIN_count b.lane) b.drain, st.2 + b.dry + b.drain)
    else st) (s, 0)

/-- What meets a product on its lanes: the bubbles it starts and the words that fail there. The state, how many bubbles, and
whether a shelf word was replayed. -/
def productMeets (e : CmdEntry) (s : State) (sur : Surround) : State × Nat × Bool :=
  let (s, n) := countBubbles e s sur.bubbles
  let (s, rep) := sur.laneHits.foldl (fun st h =>
    (productHit e st.1 h, st.2 || (partOpen st.1 e.q e.idx h.lane && replayedHit h))) (s, false)
  (s, n, rep)

/-- Add to what a product has done so far. -/
def noteProduct (s : State) (e : CmdEntry) (tiles : List Nat) (acc : MmAcc) (bubbles : Nat) (replayed : Bool) : State :=
  match findCmd s e.q e.idx with
  | none => s
  | some e => putCmd s { e with prod := { e.prod with
      tiles := e.prod.tiles ++ tiles, loads := e.prod.loads + acc.loads, bubbles := e.prod.bubbles + bubbles,
      replayed := e.prod.replayed || replayed, ovf := e.prod.ovf || acc.ovf } }

/-- What a product has drained goes to its slot (R142, R168, R172). -/
def productSlot (s : State) (slot step : Nat) (acc : MmAcc) : State :=
  if isSlot slot then
    (let s := foldSlot s slot (e32 acc.amax); if acc.ovf then slotOvf s slot step else s)
  else s

/-- The result bytes of a product as its entry stands. -/
def resultOf (s : State) (q idx : Nat) : List Byte := ((findCmd s q idx).map productResult).getD []

/-- Run tiles of a product (R134-R142). -/
def mmTilesRun (p : MmRun) (e : CmdEntry) (sur : Surround) (ts : List Nat) (s : State) : State :=
  let s := meetHits s sur.hits (mmTouches p)
  let (s, n, rep) := productMeets e s sur
  let (s, acc) := ts.foldl (mmTile p e) (s, {})
  productSlot (noteProduct s e ts acc n rep) p.o.slot p.o.step acc

/-- Every tile has run: the command ends (R136, R144). -/
def mmFinish (e : CmdEntry) (o : MmOp) (s : State) : State :=
  let s := if voidedDest s e.q e.idx then scrambleAll s (mmDest o) else s
  let ok := !partFailed s e.q e.idx
  let s := (mmArrays e o).foldl (fun s x => setTag s x.1 x.2 (if ok && keeps o.acc o.drain then some (mmTag e o) else none)) s
  let s := if o.fused then
      (let ld := landing s o.landing
       setLanding s o.landing { ld with used := ld.used ++ e.chunks.map (fun x => (x.1, e.cmdId, x.2)) })
    else s
  endAllParts s e.q e.idx stOK 0 (resultOf s e.q e.idx)

/-! ### Fused products (R143, R291) -/

/-- The chunk that holds a column of a landing (R291). -/
def chunkOfColumn (ld : Landing) (c : Nat) : Nat :=
  c / max 1 ld.colsPerShare * ld.cps + c % max 1 ld.colsPerShare / max 1 ld.colsPerChunk

/-- The chunks that cover tile t. -/
def tileChunks (ld : Landing) (o : MmOp) (t : Nat) : List Nat :=
  let j := t / ceilDiv o.m o.mblk
  ((List.range (min 128 (o.n - 128 * j))).map (fun c => chunkOfColumn ld (128 * j + c))).eraseDups

/-- The tiles each array can have run by now, in ascending order: up to its first tile with an unusable chunk (R143). A lane
whose part has ended needs no further chunk. -/
def reachedTiles (s : State) (e : CmdEntry) (o : MmOp) : List Nat :=
  let ld := landing s o.landing
  let free := fun t => !o.fused || !partOpen s e.q e.idx (tileLane e t) || (tileChunks ld o t).all ld.usable.contains
  ((List.range (mmTiles o)).foldl (fun (st : List Nat × List (Nat × Bool)) t =>
    let x := (tileLane e t, tileRight e t)
    if st.2.contains x then st else if free t then (st.1 ++ [t], st.2) else (st.1, st.2 ++ [x])) ([], [])).1

/-- A product still needs a chunk that is unusable. -/
def lacksChunk (s : State) (e : CmdEntry) (o : MmOp) : Bool := (reachedTiles s e o).length != mmTiles o

/-- The chunks that tiles consume, with their lanes. -/
def consumedChunks (s : State) (e : CmdEntry) (o : MmOp) (ts : List Nat) : List (Nat × Nat) :=
  if o.fused then
    (ts.filter (fun t => partOpen s e.q e.idx (tileLane e t))).flatMap
      (fun t => (tileChunks (landing s o.landing) o t).map (fun c => (tileLane e t, c)))
  else []

/-- End a product before its end: its destination is unspecified where the spec says so (R143, R149). -/
def stopProduct (s : State) (e : CmdEntry) (status : Nat) (scr : Bool) : State :=
  let o := mmOpOf e.opnd
  let s := if scr || voidedDest s e.q e.idx then scrambleAll s (mmDest o) else s
  endAllParts s e.q e.idx status o.landing (resultOf s e.q e.idx)

/-- A product goes as far as its usable chunks reach, running the tiles it has not run; it ends once all have run, and with
COLL_FAILED where the gather has ended otherwise while it lacks a chunk (R143). -/
def mmAdvance (p : MmRun) (e : CmdEntry) (sur : Surround) (s : State) : State :=
  let ts := (reachedTiles s e p.o).filter (fun t => !e.prod.tiles.contains t)
  let e := { e with chunks := (e.chunks ++ consumedChunks s e p.o ts).eraseDups }
  let s := mmTilesRun p e sur ts (putCmd s e)
  match findCmd s e.q e.idx with
  | none => s
  | some e =>
    if e.prod.tiles.length = mmTiles p.o then mmFinish e p.o s
    else if (landing s p.o.landing).state = 3 ∧ lacksChunk s e p.o then stopProduct s e stCollFailed false
    else s

/-- The product a block describes with the shifts its operands' headers gave. -/
def mmRunOf (s : State) (o : MmOp) (shA shB : Int) : MmRun :=
  ⟨o, (modeOf o.af o.bf).getD .int8, shA, shB, mmBase s o, roundsStochastic s o.redLen, jobSeed s⟩

/-- The product a command's operand block describes, with the block's bytes, or the status it ends with. -/
def mmSetup (s : State) (e : CmdEntry) (sur : Surround) : State × Except (Nat × Nat) (List Byte × MmRun) :=
  match readBlock s sur.hits e 64 64 with
  | (s, none) => (s, .error (stMalformed, 7))
  | (s, some b) =>
    let o := mmOpOf b
    match mmCheck s e b o with
    | some r => (s, .error r)
    | none =>
      match readHeader s sur.hits e.firstLane o.af o.a (e.q, e.idx) with
      | (s, none) => (s, .error (stParity, 1))
      | (s, some none) => (s, .error (stMalformed, 2))
      | (s, some (some shA)) =>
        match readHeader s sur.hits e.firstLane o.bf (mmHeadB s o) (e.q, e.idx) with
        | (s, none) => (s, .error (stParity, 1))
        | (s, some none) => (s, .error (stMalformed, 2))
        | (s, some (some shB)) => (s, .ok (b, mmRunOf s o shA shB))

/-- The arrays a command's tags stand on before its block is known: both of every lane it names (R136; log entry 100). -/
def namedArrays (e : CmdEntry) : List (Nat × Bool) := (laneList e).flatMap (fun l => [(l, false), (l, true)])

/-- Run a MATMUL that is first on its lanes. -/
def mmBody (sur : Surround) (s : State) (e : CmdEntry) : State :=
  let e := { e with arrays := namedArrays e }
  match mmSetup (putCmd s e) e sur with
  | (s, .error r) => endAllParts s e.q e.idx r.1 r.2 []
  | (s, .ok (b, p)) =>
    match (if p.o.slot = 0xFFFF then some s else useSlot s p.o.slot p.o.step) with
    | none => endAllParts s e.q e.idx stMalformed 36 []
    | some s =>
      match findCmd s e.q e.idx with
      | none => s
      | some e => mmAdvance p { e with
          opnd := b, arrays := mmArrays e p.o, dest := mmDest p.o, prod := { shA := p.shA, shB := p.shB } } sur s

/-- MATMUL (R140). -/
def execMatmul (q idx : Nat) (sur : Surround) (s : State) : Host.Outcome State Fault Refusal :=
  onInstance (isQueue q) (onLanes s q idx (fun e => e.opcode == 0x0101) sur (mmBody sur))

/-- A fused product that waits for chunks looks again (R143). -/
def fusedChunkReady (s : State) (q idx : Nat) (sur : Surround) : State :=
  match findCmd s q idx with
  | none => s
  | some e =>
    if e.opcode = 0x0101 ∧ e.stage = .running then
      mmAdvance (mmRunOf s (mmOpOf e.opnd) e.prod.shA e.prod.shB) e sur s
    else s

/-- FUSED_CHUNK_READY (R143). -/
def execFusedChunkReady (q idx : Nat) (sur : Surround) (s : State) : Host.Outcome State Fault Refusal :=
  onInstance (isQueue q) (fusedChunkReady s q idx sur)

/-- The running products on a landing. -/
def productsOn (s : State) (n : Nat) : List CmdEntry :=
  s.cmds.table.filter (fun e => e.opcode == 0x0101 && e.stage == .running
    && (mmOpOf e.opnd).fused && (mmOpOf e.opnd).landing == n)

/-- A gather ended with a status other than OK: its landing is failed, and the products that still need a chunk end with
COLL_FAILED (R143, R292). -/
def failLanding (s : State) (n : Nat) : State :=
  let s := setLanding s n { landing s n with state := 3 }
  ((productsOn s n).filter (fun e => lacksChunk s e (mmOpOf e.opnd))).foldl (fun s e => stopProduct s e stCollFailed false) s

/-- A chunk of a landing is void (R143, R290): it stays unusable, a running product that consumed it ends with COLL_VOID,
and each lane of a retired one raises lane.fused.void. -/
def voidLandingChunk (s : State) (n c : Nat) : State :=
  let ld := landing s n
  let hit := ld.used.filter (fun u => u.2.2 == c)
  let s := setLanding s n { ld with usable := ld.usable.filter (· != c), used := ld.used.filter (fun u => u.2.2 != c) }
  let s := ((productsOn s n).filter (fun e => (chunksUsed e).contains c)).foldl
    (fun s e => stopProduct s e stCollVoid true) s
  hit.foldl (fun s u => raiseEv s (pgLANE u.1) evFusedVoid [u.1, n, c, u.2.1]) s

/-! ### Clocks and resets of a lane -/

/-- A logical lane the module has. -/
def isLane (l : Nat) : Bool := decide (l < 96)

/-- ARRAY_WAKE (R152): the array's first row group is enabled. -/
def execArrayWake (l : Nat) (right : Bool) (s : State) : Host.Outcome State Fault Refusal :=
  onInstance (isLane l) (if s.life = .running then wakeArray s l right else s)

/-- ARRAY_CLOCK_OFF (R151): an idle array's clock stops, unless hold_on keeps it. -/
def execArrayClockOff (l : Nat) (right : Bool) (s : State) : Host.Outcome State Fault Refusal :=
  onInstance (isLane l)
    (if isSet s (LANE_POWER_hold_on l) then s
     else setLane s l (if right then { lane s l with rightOn := false } else { lane s l with leftOn := false }))

/-- End the part of every command running on a lane (R60, R112). -/
def endRunningOn (s : State) (l status : Nat) : State :=
  (lane s l).queue.foldl (fun s x =>
    match findCmd s x.1 x.2 with
    | some e => if e.stage = .running then
        (let s := endPart s x.1 x.2 l status 0
         finishParts s x.1 x.2 (resultOf s x.1 x.2)) else s
    | none => s) s

/-- A lane reset begins (R58, R60): its running command ends with LANE_RESET; Marshal, shelf, accumulators, vector
registers, array state and counts are reset; the places of waiting commands and the fence stay. The reset covers the lane
and not its page, whose expert area stays as it is (log entry 91). -/
def laneReset (s : State) (l : Nat) : State :=
  if s.life ≠ .running ∨ widerReset s ∨ (lane s l).resetting then s
  else
    let s := endRunningOn s l stLaneReset
    let old := lane s l
    let s := setLane s l { queue := old.queue, fenced := old.fenced, resetting := true }
    let s := [LANE_CNT_LOAD_count, LANE_CNT_LINE_count, LANE_CNT_DRY_count, LANE_CNT_DRAIN_count].foldl
      (fun s f => setF s (f l) 0) s
    setF s RST_LANE_busy 1

/-- A write of start to RST_LANE (R60): discarded while busy is 1. -/
def startLaneReset (s : State) (l : Nat) : State :=
  if isSet s RST_LANE_busy then s else laneReset (setF s RST_LANE_lane l) l

/-- LANE_RESET (R60). -/
def execLaneReset (l : Nat) (s : State) : Host.Outcome State Fault Refusal :=
  onInstance (isLane l) (onPage s pgRST (startLaneReset s l))

/-- The lane reset ends (R60). -/
def laneResetDone (s : State) (l : Nat) : State :=
  if (lane s l).resetting then
    let s := setF (setLane s l { lane s l with resetting := false }) (BLK_CTRL_soft_reset (pgLANE l)) 0
    let s := setF s RST_LANE_busy (b2n ((List.range 96).any (fun n => (lane s n).resetting)))
    raiseEv s (pgLANE l) evLaneResetDone [l]
  else s

/-- LANE_RESET_DONE (R60). -/
def execLaneResetDone (l : Nat) (s : State) : Host.Outcome State Fault Refusal :=
  onInstance (isLane l) (laneResetDone s l)

end Sys2Proof.Machine
end

