-- ==== Sys2Proof/Machine/Trans.lean ====
section
/-! DEFINITION. The transcendental instructions (R197). Each is a fixed function the spec bounds but does not give: the
model forms an enclosure of the exact result in fixed point and takes, among the binary32 values that meet the bound,
the one a constant without a body picks. The Gumbel entries of R202 are correctly rounded and so are computed. -/

namespace Sys2Proof.Machine

/-- Fraction bits of the fixed-point enclosures. -/
def fxP : Nat := 400

/-- ln 2 x 2^440, cut off. -/
def ln2Fx : Nat := 1967993017450341159941259058247707673170273436274736432620672316440916855485724492362804444458040432929760893851004249265809758697505
/-- pi x 2^440, cut off. -/
def piFx : Nat := 8919653111686155361594895283741457667927754617975811017404146498622904977937858519328448476565678712740932499400936380777796272225360

/-- A finite value as a fixed-point integer, cut off toward zero. -/
def toFx (neg : Bool) (m : Nat) (e : Int) : Int := sInt neg (shiftFloor m (e + 400))

/-- Horner form of the exponential series: e^r for 0 <= r < 1 in fixed point. -/
def expGo : Nat → Nat → Nat → Nat
  | 0, _, acc => acc
  | k + 1, r, acc => expGo k r (2 ^ 400 + r * acc / 2 ^ 400 / (k + 1))

/-- e^r for 0 <= r < 1 in fixed point. -/
def expUnit (r : Nat) : Nat := expGo 110 r (2 ^ 400)

/-- e^x in fixed point for a fixed-point x of magnitude below 2^9; error below 2^-360 relative to 2^(x / ln 2). -/
def expFx (x : Int) : Nat :=
  let k := (x * 2 ^ 40).fdiv (ln2Fx : Int)
  let r := (x * 2 ^ 40 - k * (ln2Fx : Int)).toNat / 2 ^ 40
  shiftFloor (expUnit r) k

/-- The odd series of the inverse hyperbolic tangent, from term i up: z^(2i+1)/(2i+1) and on, n terms. -/
def atanhGo : Nat → Nat → Nat → Nat → Nat → Nat
  | 0, _, _, _, acc => acc
  | n + 1, z2, t, i, acc => atanhGo n z2 (t * z2 / 2 ^ 400) (i + 2) (acc + t / i)

/-- ln(n/d) for 1 <= n/d < 2 in fixed point. -/
def lnUnit (n d : Nat) : Nat :=
  let z := (n - d) * 2 ^ 400 / (n + d)
  2 * atanhGo 135 (z * z / 2 ^ 400) z 1 0

/-- ln of a positive rational in fixed point. -/
def lnFx (n d : Nat) : Int :=
  let k := floorLog2Q n d 0
  let n' := if 0 ≤ k then n else n * 2 ^ (-k).toNat
  let d' := if 0 ≤ k then d * 2 ^ k.toNat else d
  (lnUnit n' d' : Int) + (k * (ln2Fx : Int)).fdiv (2 ^ 40)

/-- The alternating series of sine and cosine: term t of index i onwards. -/
def trigGo : Nat → Int → Int → Int → Int → Int
  | 0, _, _, _, acc => acc
  | n + 1, x2, t, i, acc => trigGo n x2 (-(t * x2).fdiv (2 ^ 400 * ((i + 1) * (i + 2)))) (i + 2) (acc + t)

/-- x modulo 2 pi in fixed point. -/
def reduceFx (x : Int) : Int := ((x * 2 ^ 40).fmod (2 * (piFx : Int))).fdiv (2 ^ 40)

/-- sin x in fixed point. -/
def sinFx (x : Int) : Int := let r := reduceFx x; trigGo 90 (r * r / 2 ^ 400) r 1 0
/-- cos x in fixed point. -/
def cosFx (x : Int) : Int := let r := reduceFx x; trigGo 90 (r * r / 2 ^ 400) (2 ^ 400) 0 0

/-- The largest binary32 magnitude at or below a fixed-point magnitude, as a pattern. -/
def floorMag (n : Nat) : Nat :=
  if n = 0 then 0 else
  let E := max ((n.log2 : Int) - 400) f32.emin
  let bits := (E - f32.emin).toNat * 2 ^ 23 + shiftFloor n (-400 - (E - 23))
  min bits f32.infBits

/-- The smallest binary32 magnitude at or above a fixed-point magnitude. -/
def ceilMag (n : Nat) : Nat :=
  let p := floorMag n
  match fpDecode f32 p with
  | .fin _ m e => if toFx false m e < (n : Int) then p + 1 else p
  | _ => p

/-- The place of a pattern in the order of values, -0 just below +0. -/
def placeOf (neg : Bool) (mag : Nat) : Int := if neg then -(mag : Int) - 1 else (mag : Int)

/-- The pattern at a place. -/
def patternAt (o : Int) : Word :=
  if o < 0 then BitVec.ofNat 32 ((-(o + 1)).toNat + 2 ^ 31) else BitVec.ofNat 32 o.toNat

/-- Among the binary32 values y with lo <= y <= hi (fixed point), the one the free pattern picks. -/
def pickBetween (lo hi : Int) (raw : Word) : Word :=
  let a := if lo ≤ 0 then placeOf true (floorMag lo.natAbs) else placeOf false (ceilMag lo.toNat)
  let b := if hi < 0 then placeOf true (ceilMag hi.natAbs) else placeOf false (floorMag hi.toNat)
  patternAt (a + ((raw.toNat : Int) % (max (b - a + 1) 1)))

/-- One ulp of the binary32 grid at a fixed-point value (R197). -/
def ulpFx (v : Int) : Int := if v = 0 then 2 ^ 251 else 2 ^ (max ((v.natAbs.log2 : Int) - 400) (-126) - 23 + 400).toNat

/-- A result within c ulp of a value enclosed in [v - s, v + s]. -/
def withinUlp (c : Nat) (v s : Int) (raw : Word) : Word :=
  pickBetween (v + s - c * ulpFx v) (v - s + c * ulpFx v) raw

/-- A result within an absolute bound 2^-k of an enclosed value. -/
def withinAbs (k : Nat) (v s : Int) (raw : Word) : Word := pickBetween (v + s - 2 ^ (400 - k)) (v - s + 2 ^ (400 - k)) raw

/-- The result of a transcendental instruction and the sticky flags it sets (R195). -/
structure TRes where
  val : Word
  invalid : Bool
  overflow : Bool
  dz : Bool
  deriving DecidableEq, Repr

/-- A result without a flag. -/
def tok (v : Word) : TRes := ⟨v, false, false, false⟩
/-- A finite input's result: an infinity is an overflow (R195). -/
def tov (v : Word) : TRes := ⟨v, false, (v32 v).isInf, false⟩
/-- NaN from a number: invalid. -/
def tinv : TRes := ⟨nan32, true, false, false⟩
/-- The enclosures' half width. -/
def fxEps : Int := 2 ^ 100

/-- 2^x, 1 ulp, exact for integer x. -/
def tExp2 (s : Bool) (m : Nat) (e : Int) (raw : Word) : TRes :=
  if m = 0 then tok 0x3F800000
  else if 200 * 2 ^ 400 < (toFx false m e) then (if s then tov (withinUlp 1 0 fxEps raw) else ⟨inf32, false, true, false⟩)
  else
    let x := toFx s m e
    if x % 2 ^ 400 = 0 ∧ -150 < x / 2 ^ 400 then tov (e32 (.fin false 1 (x / 2 ^ 400)))
    else tov (withinUlp 1 (expFx (x * (ln2Fx : Int) / 2 ^ 440) : Int) (2 ^ 300) raw)

/-- e^x, 2 ulp. -/
def tExp (s : Bool) (m : Nat) (e : Int) (raw : Word) : TRes :=
  if 200 * 2 ^ 400 < (toFx false m e) then (if s then tov (withinUlp 2 0 fxEps raw) else ⟨inf32, false, true, false⟩)
  else tov (withinUlp 2 (expFx (toFx s m e) : Int) (2 ^ 300) raw)

/-- log2 x of a positive finite value. -/
def tLog2 (m : Nat) (e : Int) (raw : Word) : TRes :=
  if m = 2 ^ m.log2 then tok (e32 (.fin (decide ((m.log2 : Int) + e < 0)) ((m.log2 : Int) + e).natAbs 0))
  else
    let n := if 0 ≤ e then m * 2 ^ e.toNat else m
    let d := if 0 ≤ e then 1 else 2 ^ (-e).toNat
    let v := lnFx n d * 2 ^ 440 / (ln2Fx : Int)
    if 3 * d ≤ 4 * n ∧ 2 * n ≤ 3 * d then tok (withinAbs 22 v fxEps raw) else tok (withinUlp 1 v fxEps raw)

/-- tanh of a finite value, 2 ulp. -/
def tTanh (s : Bool) (m : Nat) (e : Int) (raw : Word) : TRes :=
  let a := min (toFx false m e) (200 * 2 ^ 400)
  let t := (expFx (-2 * a) : Int)
  let v := (2 ^ 400 - t) * 2 ^ 400 / (2 ^ 400 + t)
  tok (withinUlp 2 (if s then -v else v) (2 ^ 130) raw)

/-- The logistic sigmoid of a finite value, 2 ulp. -/
def tSig (s : Bool) (m : Nat) (e : Int) (raw : Word) : TRes :=
  let a := min (toFx false m e) (200 * 2 ^ 400)
  let t := (expFx (-a) : Int)
  let v := if s then t * 2 ^ 400 / (2 ^ 400 + t) else 2 ^ 800 / (2 ^ 400 + t)
  tok (withinUlp 2 v (2 ^ 130) raw)

/-- A transcendental instruction's result (R197), by its opcode; raw is the free pattern. Where the table gives no
special case, NaN gives the canonical NaN (R164). -/
def transRes (op : Nat) (x : Word) (raw : Word) : TRes :=
  match v32 x with
  | .nan => tok nan32
  | .inf s =>
    if op = 0x2D then (if s then tinv else tok inf32)
    else if op = 0x30 then tok (if s then 0x80000000 else 0)
    else if op = 0x31 then (if s then tinv else tok 0)
    else if op = 0x32 ∨ op = 0x34 then tok (if s then 0 else inf32)
    else if op = 0x33 then (if s then tinv else tok inf32)
    else if op = 0x35 then tok (if s then 0xBF800000 else 0x3F800000)
    else if op = 0x36 then tok (if s then 0 else 0x3F800000)
    else tinv
  | .fin s m e =>
    if op = 0x2D then (if s ∧ m ≠ 0 then tinv else tok (fsqrt x))
    else if op = 0x30 then
      if m = 0 then ⟨if s then ninf32 else inf32, false, false, true⟩
      else let v := (2 ^ 400 * 2 ^ 400) / (max (shiftFloor m (e + 400)) 1 : Int)
           tov (withinUlp 1 (if s then -v else v) 1 raw)
    else if op = 0x31 then
      if m = 0 then ⟨if s then ninf32 else inf32, false, false, true⟩
      else if s then tinv
      else tov (withinUlp 1 (isqrt (2 ^ 1200 / max (shiftFloor m (e + 400)) 1) : Int) 2 raw)
    else if op = 0x32 then tExp2 s m e raw
    else if op = 0x33 then
      if m = 0 then ⟨ninf32, false, false, true⟩ else if s then tinv else tLog2 m e raw
    else if op = 0x34 then tExp s m e raw
    else if op = 0x35 then tTanh s m e raw
    else if op = 0x36 then tSig s m e raw
    else if 2 ^ 15 * 2 ^ 400 < toFx false m e then tinv
    else if op = 0x37 then tok (withinAbs 21 (sinFx (toFx s m e)) fxEps raw)
    else tok (withinAbs 21 (cosFx (toFx s m e)) fxEps raw)

/-- Round a fixed-point value to binary32, nearest with ties to even. -/
def fxRne (v : Int) : Word := e32 (.fin (decide (v < 0)) v.natAbs (-400))

/-- The Gumbel table entry of R202: -ln(-ln((2r + 1) x 2^-17)), correctly rounded. -/
def gumbelEntry (r : Nat) : Word :=
  let l := -lnFx (2 * r + 1) (2 ^ 17)
  fxRne (-lnFx l.toNat (2 ^ 400))

end Sys2Proof.Machine
end

