-- ==== Sys2Proof/Machine/Target.lean ====
section
/-! DEFINITION. What an access to a local address does, whoever asks (11_stadium_fabric R266, R267; 05_commands R114;
09_memory R214): reads, writes, masked writes and atomics over the attic, the cellar and the lap counters. Register pages
are not reached here. -/

namespace Sys2Proof.Machine

/-- A range holds memory that answers: the attic, or the cellar once it is ready (R64, R214). -/
def memoryUp (s : State) (a n : Nat) : Bool :=
  decide (0 < n) && inMemory a n && (regionOf a == .attic || isSet s DEV_START_cellar_ready)

/-- Read n bytes for a requester outside a lane: none where it is refused. -/
def targetRead (s : State) (hits : List Hit) (a n : Nat) : State × Option (List Byte) :=
  if memoryUp s a n then memRead s hits a n .network none else (s, none)

/-- A write to lap counters or to memory: false where it is refused (R114, R228, R267). store says that the requester
may store counters. -/
def targetWrite (s : State) (hits : List Hit) (a : Nat) (bs : List Byte) (store : Bool) : State × Bool :=
  if regionOf a = .laps then
    if a % 8 = 0 ∧ bs.length = 8 ∧ store then (lapStore s ((a - 0x120000000000) / 8) (leNat bs), true) else (s, false)
  else if memoryUp s a bs.length then memWrite s hits a bs .network none
  else (s, false)


/-- Words of a line all four of whose bytes are enabled never read the old data (R228): they are written first. -/
def maskedLine (s : State) (hits : List Hit) (a mask : Nat) (bs : List Byte) : State × Bool :=
  if !memoryUp s a 64 || a % 64 != 0 then (s, false)
  else
    let partWords := (List.range 16).filter (fun w => decide (bitsOf mask (4 * w) 4 ≠ 0 ∧ bitsOf mask (4 * w) 4 ≠ 15))
    let s := if partWords.isEmpty then s else meetHits s hits (· == a)
    let whole := (List.range 16).filter (fun w => bitsOf mask (4 * w) 4 == 15)
    let s := whole.foldl (fun s w => poke s (a + 4 * w) (bytesAt bs (4 * w) 4)) s
    let s := touchRegions s a 64
    let s := if whole.length = 16 then { s with mem := { s.mem with damaged := s.mem.damaged.filter (· != a) } } else s
    if partWords.isEmpty then (s, true)
    else if s.mem.damaged.contains a then (failLine s a .network none, false)
    else (poke s a ((List.range 64).map (fun b =>
      if bitOf mask b && partWords.contains (b / 4) then (bs[b]?).getD 0 else memByte s (a + b))), true)

/-- An atomic on 8 bytes (R266, R267): the old value, or none where it is refused. kind 4 add, 5 swap, 6
compare-and-swap; src names who adds to a lap counter (0 a command, 2 a partner); by' and own name who asks the memory. -/
def targetAtomic (s : State) (hits : List Hit) (kind a operand cmp src : Nat) (counterFails : Bool) (by' : Requester)
    (own : Option (Nat × Nat)) : State × Option Nat :=
  if a % 8 ≠ 0 then (s, none)
  else if regionOf a = .laps then
    let n := (a - 0x120000000000) / 8
    if kind ≠ 4 then (s, none)
    else
      let s := if counterFails then failLap s n else s
      let old := lapVal s n
      match lapAdd s n operand src with
      | (s, true) => (s, some old)
      | (s, false) => (s, none)
  else if !memoryUp s a 8 then (s, none)
  else match memRead s hits a 8 by' own with
    | (s, none) => (s, none)
    | (s, some bs) =>
      let old := leNat bs
      if kind = 6 ∧ old ≠ cmp then (s, some old)
      else match memWrite s [] a (natLe 8 (if kind = 4 then (old + operand) % 2 ^ 64 else operand)) by' own with
        | (s, true) => (s, some old)
        | (s, false) => (s, none)

end Sys2Proof.Machine
end

