-- ==== Sys2Proof/Machine/VecCore.lean ====
section
/-! DEFINITION. The vector unit (08_vector R188-R194, R206-R211): instruction words and their check, the state of a program,
how an instruction issues, and how a program starts and ends. -/

namespace Sys2Proof.Machine

/-! ### Fields of an instruction word (R190) -/

def vwOp (w : Nat) : Nat := bitsOf w 56 8
def vwPg (w : Nat) : Nat := bitsOf w 53 3
def vwPn (w : Nat) : Bool := bitOf w 52
def vwVd (w : Nat) : Nat := bitsOf w 47 5
def vwVa (w : Nat) : Nat := bitsOf w 42 5
def vwVb (w : Nat) : Nat := bitsOf w 37 5
def vwVc (w : Nat) : Nat := bitsOf w 32 5
def vwSa (w : Nat) : Nat := bitsOf w 28 4
def vwMod (w : Nat) : Nat := bitsOf w 16 12
def vwImm (w : Nat) : Nat := bitsOf w 0 16
def swSd (w : Nat) : Nat := bitsOf w 48 4
def swSa (w : Nat) : Nat := bitsOf w 44 4
def swSb (w : Nat) : Nat := bitsOf w 40 4
def swMod (w : Nat) : Nat := bitsOf w 32 8
/-- imm of S, sign-extended to 64 bits. -/
def swImm (w : Nat) : Dword := BitVec.ofInt 64 (signed 32 w)
def mwV (w : Nat) : Nat := bitsOf w 47 5
def mwSbase (w : Nat) : Nat := bitsOf w 43 4
def mwVx (w : Nat) : Nat := bitsOf w 38 5
def mwSaux (w : Nat) : Nat := bitsOf w 34 4
def mwFmt (w : Nat) : Nat := bitsOf w 30 4
/-- offset of M, a signed byte offset. -/
def mwOffset (w : Nat) : Dword := BitVec.ofInt 64 (signed 28 w)
def bwSa (w : Nat) : Nat := bitsOf w 48 4
def bwSb (w : Nat) : Nat := bitsOf w 44 4
def bwTarget (w : Nat) : Nat := bitsOf w 0 32

/-! ### The check of R192 -/

/-- Bits of the fields of a format. -/
def fPG : Nat := 0xF * 2 ^ 52
def fVD : Nat := 0x1F * 2 ^ 47
def fPD : Nat := 0x7 * 2 ^ 47
def fVA : Nat := 0x1F * 2 ^ 42
def fPA : Nat := 0x7 * 2 ^ 42
def fVB : Nat := 0x1F * 2 ^ 37
def fPB : Nat := 0x7 * 2 ^ 37
def fVC : Nat := 0x1F * 2 ^ 32
def fSA : Nat := 0xF * 2 ^ 28
def fIMM : Nat := 0xFFFF
def gSD : Nat := 0xF * 2 ^ 48
def gSA : Nat := 0xF * 2 ^ 44
def gSB : Nat := 0xF * 2 ^ 40
def gIMM : Nat := 0xFFFFFFFF
def hV : Nat := 0x1F * 2 ^ 47
def hBASE : Nat := 0xF * 2 ^ 43
def hVX : Nat := 0x1F * 2 ^ 38
def hAUX : Nat := 0xF * 2 ^ 34
def hFMT : Nat := 0xF * 2 ^ 30
def hOFF : Nat := 0xFFFFFFF
def bSA : Nat := 0xF * 2 ^ 48
def bSB : Nat := 0xF * 2 ^ 44

/-- The fields an instruction uses, as a mask of bits 55 to 0; none for an unassigned opcode (R190, R193). -/
def usedFields (w : Nat) : Option Nat :=
  let op := vwOp w
  if op = 0x00 ∨ op = 0x07 then some 0
  else if op = 0x01 ∨ op = 0x02 then some gIMM
  else if op = 0x03 ∨ op = 0x04 ∨ op = 0x06 then some (bSA + gIMM)
  else if op = 0x05 then some (bSA + bSB + gIMM)
  else if op = 0x10 ∨ op = 0x16 ∨ op = 0x17 ∨ op = 0x18 then some (gSD + gSA + gSB + gIMM)
  else if 0x11 ≤ op ∧ op ≤ 0x15 then some (gSD + gSA + gSB)
  else if op = 0x19 then some (gSD + 2 ^ 32 + gIMM)
  else if op = 0x1A ∨ op = 0x1B then some (gSD + gSA + gSB)
  else if op = 0x1C then some (gSD + gIMM)
  else if op = 0x1D then some (gSD + gSB + 0x1F * 2 ^ 32 + gIMM)
  else if op = 0x20 ∨ op = 0x21 ∨ op = 0x22 ∨ op = 0x24 ∨ op = 0x25 ∨ op = 0x40 then some (fPG + fVD + fVA + fVB)
  else if op = 0x23 then some (fPG + fVD + fVA + fVB + fVC)
  else if op = 0x26 ∨ op = 0x27 ∨ op = 0x2D ∨ (0x30 ≤ op ∧ op ≤ 0x38) ∨ op = 0x42 ∨ op = 0x43
      ∨ (0x48 ≤ op ∧ op ≤ 0x4A) then some (fPG + fVD + fVA)
  else if op = 0x28 ∨ op = 0x29 ∨ op = 0x4B then some (fPG + fVD + fVA + fSA)
  else if op = 0x2A then some (fPG + fVD + 2 ^ 16 + (if vwMod w % 2 = 1 then fIMM else fSA))
  else if op = 0x2B then some (fPG + fVD + fVA + fVB + 7 * 2 ^ 16)
  else if op = 0x2C then some (fPG + fPD + fVA + fVB + 7 * 2 ^ 16)
  else if op = 0x41 ∨ op = 0x70 ∨ op = 0x71 then some (fPG + fVD + fSA + fIMM)
  else if 0x50 ≤ op ∧ op ≤ 0x52 then some (fPD + fPA + fPB)
  else if op = 0x53 then some (fPD + fPA)
  else if op = 0x54 then some (fPD + fSA)
  else if op = 0x55 then some (fPA + fSA)
  else if op = 0x60 ∨ op = 0x61 then
    some (hV + hBASE + hFMT + hOFF + (if mwFmt w ≤ 3 ∨ mwFmt w = 5 then hAUX else 0)
      + (if op = 0x61 ∧ mwFmt w ≤ 2 then 0 else fPG))
  else if op = 0x62 ∨ op = 0x63 then some (fPG + hV + hBASE + hVX + hFMT + hOFF)
  else if op = 0x64 ∨ op = 0x65 then some (0xF * 2 ^ 47 + hBASE + hOFF)
  else if op = 0x68 ∨ op = 0x69 then some (fPG + hV + hBASE + hFMT + hOFF)
  else if op = 0x6A then some (gSD + gSA + gSB + 3 * 2 ^ 32)
  else if op = 0x6B then some (gSD + gSA)
  else if op = 0x72 then
    (if bitOf (vwMod w) 7 then some (fVD + fVA + 0xFF * 2 ^ 16) else some (fPG + fVD + fVA + fSA + 0xFF * 2 ^ 16 + fIMM))
  else if op = 0x73 then some (fPG + fPD + fVA + fSA)
  else none

/-- The ranges of an instruction's fields (R192-R204). -/
def fieldsOk (w : Nat) : Bool :=
  let op := vwOp w
  if op = 0x2C then vwMod w % 8 != 7
  else if op = 0x1C then decide (bwTarget w ≤ 8)
  else if op = 0x60 ∨ op = 0x61 then decide (mwFmt w ≤ 8)
  else if op = 0x62 ∨ op = 0x63 ∨ op = 0x68 ∨ op = 0x69 then mwFmt w == 6
  else if op = 0x6A then decide (swMod w % 4 ≤ 2)
  else if op = 0x72 then
    vwVd w % 2 == 0 && decide (1 ≤ vwMod w % 128 ∧ vwMod w % 128 ≤ 64) && (!bitOf (vwMod w) 7 || vwVa w % 2 == 0)
  else true

/-- The instruction branches to its target. -/
def isBranch (w : Nat) : Bool := decide (2 ≤ vwOp w ∧ vwOp w ≤ 6)

/-- What is wrong with a word of a program of len words: a status and a detail (R192). -/
def wordCheck (k5 : Bool) (len w : Nat) : Option (Nat × Nat) :=
  match usedFields w with
  | none => some (stMalformed, 8)
  | some m =>
    if (w % 2 ^ 56) &&& (2 ^ 56 - 1 - m) ≠ 0 ∨ !fieldsOk w then some (stMalformed, 8)
    else if isBranch w ∧ len ≤ bwTarget w then some (stMalformed, 9)
    else if vwOp w = 0x60 ∨ vwOp w = 0x61 then
      (if k5 then (if mwFmt w ≤ 3 ∨ mwFmt w = 8 then some (stArithMismatch, 2) else none)
       else if mwFmt w = 5 then some (stArithMismatch, 3) else none)
    else none

/-- The first failing word of a program: its index and what is wrong. -/
def progCheck (k5 : Bool) (ws : List Dword) : Option (Nat × Nat × Nat) :=
  (ws.mapIdx (fun i w => (i, w.toNat))).findSome? (fun p => (wordCheck k5 ws.length p.2).map (fun r => (p.1, r)))

/-! ### Registers (R188) -/

/-- The five sticky flags. -/
def stkInvalid : Nat := 1
def stkOverflow : Nat := 2
def stkDivZero : Nat := 4
def stkNonfinite : Nat := 8
def stkSaturated : Nat := 16

/-- All 64 bits. -/
def allOnes : Nat := 2 ^ 64 - 1

/-- Element i of a vector register. -/
def vreg (ln : LaneSt) (r i : Nat) : Word := tget (fun _ => 0) ln.v (64 * r + i)
/-- A scalar register. -/
def sreg (ln : LaneSt) (r : Nat) : Dword := tget (fun _ => 0) ln.s r
/-- A predicate: p0 reads all ones. -/
def preg (ln : LaneSt) (r : Nat) : Nat := if r = 0 then allOnes else (tget (fun _ => 0) ln.p r).toNat

/-- Write an element. -/
def setVreg (ln : LaneSt) (r i : Nat) (x : Word) : LaneSt := { ln with v := tset (fun _ => 0) ln.v (64 * r + i) x }
/-- Write a scalar. -/
def setSreg (ln : LaneSt) (r : Nat) (x : Dword) : LaneSt := { ln with s := tset (fun _ => 0) ln.s r x }
/-- Write a predicate: writes to p0 are discarded. -/
def setPreg (ln : LaneSt) (r m : Nat) : LaneSt :=
  if r = 0 then ln else { ln with p := tset (fun _ => 0) ln.p r (BitVec.ofNat 64 m) }

/-- Or sticky flags in. -/
def stick (ln : LaneSt) (f : Nat) : LaneSt := { ln with sticky := ln.sticky ||| f }

/-- The write mask of a V or M instruction (R191). -/
def maskOf (ln : LaneSt) (w : Nat) : Nat := if vwPn w then xorNat (preg ln (vwPg w)) allOnes else preg ln (vwPg w)

/-- The elements a mask selects. -/
def maskList (m : Nat) : List Nat := (List.range 64).filter (bitOf m)

/-- Write the elements a mask selects. -/
def writeMasked (ln : LaneSt) (r m : Nat) (f : Nat → Word) : LaneSt :=
  (maskList m).foldl (fun ln i => setVreg ln r i (f i)) ln

/-- Write every element. -/
def writeAll (ln : LaneSt) (r : Nat) (f : Nat → Word) : LaneSt := writeMasked ln r allOnes f

/-- A mask as a number, from the elements that hold. -/
def maskFrom (f : Nat → Bool) : Nat := ((List.range 64).map (fun i => if f i then 2 ^ i else 0)).foldl (· + ·) 0

/-! ### Registers an instruction names, for those a remote instruction still owes (R205) -/

/-- A V-format opcode. -/
def isVFormat (op : Nat) : Bool := decide ((0x20 ≤ op ∧ op ≤ 0x55) ∨ 0x70 ≤ op)

/-- The vector registers an instruction names. -/
def namedV (w : Nat) : List Nat :=
  let op := vwOp w
  let used := (usedFields w).getD 0
  if isVFormat op then
    (if used &&& fVD = fVD then (if op = 0x72 then [vwVd w, vwVd w + 1] else [vwVd w]) else [])
      ++ (if used &&& fVA = fVA then (if op = 0x72 then [vwVa w, vwVa w + 1] else [vwVa w]) else [])
      ++ (if used &&& fVB = fVB then [vwVb w] else []) ++ (if used &&& fVC = fVC then [vwVc w] else [])
  else if op = 0x1D then [swMod w % 32]
  else if op = 0x60 ∨ op = 0x61 ∨ op = 0x68 ∨ op = 0x69 then [mwV w]
  else if op = 0x62 ∨ op = 0x63 then [mwV w, mwVx w]
  else []

/-- The scalar registers an instruction names. -/
def namedS (w : Nat) : List Nat :=
  let op := vwOp w
  let used := (usedFields w).getD 0
  if isVFormat op then (if used &&& fSA = fSA then [vwSa w] else [])
  else if 0x60 ≤ op ∧ op ≤ 0x69 then
    [mwSbase w] ++ (if used &&& hAUX = hAUX then [mwSaux w] else []) ++ (if op = 0x64 ∨ op = 0x65 then [mwV w % 16] else [])
  else if op < 0x10 then (if used &&& bSA = bSA then [bwSa w] else []) ++ (if used &&& bSB = bSB then [bwSb w] else [])
  else (if used &&& gSD = gSD then [swSd w] else []) ++ (if used &&& gSA = gSA then [swSa w] else [])
    ++ (if used &&& gSB = gSB then [swSb w] else [])

/-- A register the instruction names is still owed by a remote instruction. -/
def owed (ln : LaneSt) (w : Nat) : Bool :=
  ln.pend.any (fun p => (p.kind == 0 && (namedV w).contains p.reg) || (p.kind == 1 && (namedS w).contains p.reg))

/-! ### Issue and end -/

/-- What an instruction does: it waits, it meets a fault with a status and a detail, it goes on to the next word or to
another, or it ends the program with an exit code. -/
inductive VOut where
  | wait
  | fault (s : State) (status detail : Nat)
  | next (s : State)
  | jump (s : State) (pc : Nat)
  | done (s : State) (code : Nat)

/-- The cmd_id of a queue's command. -/
def cmdIdOf (s : State) (q idx : Nat) : Nat := match findCmd s q idx with | some e => e.cmdId | none => 0

/-- A program that met a fault ends once its remote operations have completed (R208). -/
def settleVec (s : State) (l : Nat) : State :=
  let ln := lane s l
  match ln.vecRun, ln.vecFault with
  | some (q, idx), some (st, d, pc) =>
    if ln.pend.isEmpty then
      let s := setLane s l { ln with pc := pc }
      let s := raiseEv s (pgLANE l) evVectorFault [l, pc, st, d, cmdIdOf s q idx]
      finishParts (endPart s q idx l st d) q idx []
    else s
  | _, _ => s

/-- A program meets a fault at a word. -/
def vecFaultAt (s : State) (l st d pc : Nat) : State :=
  let ln := lane s l
  settleVec (setLane s l (if ln.vecFault.isSome then ln else { ln with vecFault := some (st, d, pc) })) l

/-- Count an instruction as retired, with the slots that passed. -/
def vecRetire (s : State) (l slots : Nat) : State :=
  let ln := lane s l
  setLane s l { ln with count := ln.count + 1, retired := satAdd 32 ln.retired 1, slots := ln.slots + 1 + slots }

/-- Go on at a word; a program that runs past its last word ends with MALFORMED, detail 9 (R208). -/
def vecGoto (s : State) (l old pc : Nat) : State :=
  if pc < (lane s l).prog.length then setLane s l { lane s l with pc := pc } else vecFaultAt s l stMalformed 9 old

/-- A program's word or read was replayed (R209, R210): kind 1 a program word, 2 a memory read. -/
def vecReplay (kind : Nat) (s : State) (l : Nat) : State :=
  let ln := lane s l
  let own := ln.vecRun.getD (0, 0)
  raiseEv (setLane s l { ln with replayed := true }) (pgLANE l) evVectorReplayed [l, kind, ln.pc, cmdIdOf s own.1 own.2]

/-- The same, where memory was read again between two states. -/
def vecReplays (kind : Nat) (s0 s : State) (l : Nat) : State := if rereadSince s0 s then vecReplay kind s l else s

/-- The Marshal reads the word at the pc again from the image (R210): none where that read fails. -/
def vecReload (hits : List Hit) (s : State) (l : Nat) : State × Bool :=
  let ln := lane s l
  let s := vecReplay 1 s l
  match ln.resident with
  | none => (s, false)
  | some r =>
    match memRead s hits (r.1 + 8 * ln.pc) 8 (.lane l) ln.vecRun with
    | (s, some bs) => (setLane s l { lane s l with prog := (lane s l).prog.set ln.pc (BitVec.ofNat 64 (leNat bs)) }, true)
    | (s, none) => (s, false)

/-- A failing word of the vector unit (R210, R392): what it does first, and the status it ends the program with. -/
def vecHit (l cmdId : Nat) (hits : List Hit) (st : State × Option (Nat × Nat)) (h : LaneHit) : State × Option (Nat × Nat) :=
  if st.2.isSome ∨ h.lane ≠ l then st
  else match h.place with
    | .progReread =>
      (match vecReload hits st.1 l with
       | (s, true) => (s, none)
       | (s, false) => (s, some (stParity, 5)))
    | .progLost => (vecReplay 1 st.1 l, some (stParity, 5))
    | .vecReg => (st.1, some (stParity, 4))
    | .pathReplayed => (pathReplayed st.1, none)
    | .pathLost => (pathFailed st.1 (pgLANE l) cmdId h.right, some (stParity, 10))
    | _ => st

/-- The lane runs its next word, where that is the row's instruction: its opcode passes the row's test, no register it
names is owed, and its program is running (R193, R205, R210). A word that was read again is judged again. -/
def vecStep (sel : Nat → Bool) (body : State → Nat → LaneSt → Nat → VOut) (l : Nat) (sur : Surround) (s : State) : State :=
  let ln := lane s l
  match ln.vecRun with
  | none => s
  | some (q, idx) =>
    if ln.vecFault.isSome ∨ ln.resetting then s
    else
      match ln.prog[ln.pc]? with
      | none => s
      | some w =>
        if !sel w.toNat || owed ln w.toNat then s
        else
          match sur.laneHits.foldl (vecHit l (cmdIdOf s q idx) sur.hits) (s, none) with
          | (s, some (st, d)) => vecFaultAt s l st d ln.pc
          | (s, none) =>
            match (lane s l).prog[ln.pc]? with
            | none => s
            | some w =>
              if !sel w.toNat || owed (lane s l) w.toNat then s
              else match body s l (lane s l) w.toNat with
                | .wait => s
                | .fault s st d => vecFaultAt s l st d ln.pc
                | .next s => vecGoto (vecRetire s l sur.slots) l ln.pc (ln.pc + 1)
                | .jump s pc => vecGoto (vecRetire s l sur.slots) l ln.pc pc
                | .done s code =>
                  let s := vecRetire s l sur.slots
                  let s := setLane s l { lane s l with exitCode := code }
                  finishParts (endPart s q idx l stOK 0) q idx []

/-- The row's test by opcode. -/
def isOp (op : Nat) (w : Nat) : Bool := vwOp w == op

/-- A row of the vector unit. -/
def vecRow (l : Nat) (s : State) (t : State) : Host.Outcome State Fault Refusal := onInstance (isLane l) (if s.life = .running then t else s)

/-- An instruction that changes the lane's registers alone. -/
def regOp (f : State → LaneSt → Nat → LaneSt) (s : State) (l : Nat) (ln : LaneSt) (w : Nat) : VOut := .next (setLane s l (f s ln w))

/-! ### VEC.RUN (R206-R208) -/

/-- The words of a program image. -/
def wordsOf (n : Nat) (bs : List Byte) : List Dword := (List.range n).map (fun i => BitVec.ofNat 64 (leAt bs (8 * i) 8))

/-- The start of a program on one lane (R189): scalars from the operand block, everything else 0. -/
def vecFresh (old : LaneSt) (b : List Byte) (q idx pos : Nat) : LaneSt :=
  { old with
    v := [], p := [], sticky := 0, pc := leAt b 10 2, exitCode := 0, count := 0, slots := 0, step := leAt b 24 4,
    outAddr := leAt b 16 8, pos := pos, vecRun := some (q, idx), pend := [], replayed := false, vecFault := none, loaded := false,
    s := (List.range 12).foldl (fun t i => tset (fun _ => 0) t i (BitVec.ofNat 64 (leAt b (32 + 8 * i) 8))) [] }

/-- Load a lane's program image, unless it is resident already: false where the image cannot be read (R207). -/
def vecLoad (s : State) (hits : List Hit) (l : Nat) (b : List Byte) (own : Nat × Nat) : State × Bool :=
  let key := (leAt b 0 8, leAt b 8 2, leAt b 12 4)
  let ln := lane s l
  if ln.resident = some key ∧ !bitOf (leAt b 28 1) 0 then (setLane s l { ln with loaded := true }, true)
  else
    let r := memRead s hits key.1 (8 * key.2.1) (.lane l) (some own)
    let s := vecReplays 2 s r.1 l
    match r.2 with
    | some bs => (setLane s l { lane s l with prog := wordsOf key.2.1 bs, resident := some key, loaded := true }, true)
    | none => (setLane s l { lane s l with prog := [], resident := none }, false)

/-- Start one lane's part: load, check, and run from the entry; an unreadable image is MALFORMED (R206, R211). -/
def vecStart (b : List Byte) (hits : List Hit) (e : CmdEntry) (s : State) (l : Nat) : State :=
  let s := setLane s l (vecFresh (lane s l) b e.q e.idx (l - e.firstLane))
  match vecLoad s hits l b (e.q, e.idx) with
  | (s, false) => endPart s e.q e.idx l stMalformed 11
  | (s, true) =>
    match progCheck (k5Job s) (lane s l).prog with
    | none => s
    | some (pc, st, d) => vecFaultAt (setLane s l { lane s l with resident := none }) l st d pc

/-- The checks of R206 on the block. -/
def vecBlockCheck (e : CmdEntry) (b : List Byte) : Option (Nat × Nat) :=
  let len := leAt b 8 2
  let out := leAt b 16 8
  if leAt b 28 1 / 2 ≠ 0 ∨ !zeroAt b 29 3 then some (stMalformed, 0)
  else if len = 0 ∨ 8192 < len ∨ len ≤ leAt b 10 2 ∨ leAt b 0 8 % 8 ≠ 0 ∨ !inMemory (leAt b 0 8) (8 * len) then some (stMalformed, 11)
  else if out ≠ 0 ∧ (out % 256 ≠ 0 ∨ !inMemory out (256 * e.laneCount)) then some (stMalformed, 4)
  else none

/-- Run a VEC.RUN that is first on its lanes. -/
def vecRunBody (sur : Surround) (s : State) (e : CmdEntry) : State :=
  match readBlock s sur.hits e 128 64 with
  | (s, none) => endAllParts s e.q e.idx stMalformed 7 []
  | (s, some b) =>
    match vecBlockCheck e b with
    | some r => endAllParts s e.q e.idx r.1 r.2 []
    | none => finishParts ((laneList e).foldl (vecStart b sur.hits e) s) e.q e.idx []

/-- VEC_RUN (R207): load, check and start the program on every lane named. -/
def execVecRun (q idx : Nat) (sur : Surround) (s : State) : Host.Outcome State Fault Refusal :=
  onInstance (isQueue q) (onLanes s q idx (fun e => e.opcode == 0x0110) sur (vecRunBody sur))

end Sys2Proof.Machine
end

