-- ==== Sys2Proof/Machine/VecOps.lean ====
section
/-! DEFINITION. Vector instructions that work on registers alone (08_vector R193-R197, R202-R204): control, scalars,
elementwise arithmetic, reductions, predicates, sampling. -/

namespace Sys2Proof.Machine

/-! ### Control (R193) -/

/-- Branch to the target where a test of the lane's scalars holds. -/
def branchIf (t : LaneSt → Nat → Bool) (s : State) (_l : Nat) (ln : LaneSt) (w : Nat) : VOut :=
  if t ln w then .jump s (bwTarget w) else .next s

/-- VEC_NOP (R193). -/
def execVecNop (l : Nat) (sur : Surround) (s : State) : Host.Outcome State Fault Refusal :=
  vecRow l s (vecStep (isOp 0x00) (fun s _ _ _ => .next s) l sur s)

/-- VEC_END (R208): the program ends once its remote operations have completed. -/
def execVecEnd (l : Nat) (sur : Surround) (s : State) : Host.Outcome State Fault Refusal :=
  vecRow l s (vecStep (isOp 0x01) (fun s _ ln w => if ln.pend.isEmpty then .done s (bwTarget w) else .wait) l sur s)

/-- VEC_BR (R193). -/
def execVecBr (l : Nat) (sur : Surround) (s : State) : Host.Outcome State Fault Refusal :=
  vecRow l s (vecStep (isOp 0x02) (branchIf (fun _ _ => true)) l sur s)

/-- VEC_BZ (R193). -/
def execVecBz (l : Nat) (sur : Surround) (s : State) : Host.Outcome State Fault Refusal :=
  vecRow l s (vecStep (isOp 0x03) (branchIf (fun ln w => sreg ln (bwSa w) == 0)) l sur s)

/-- VEC_BNZ (R193). -/
def execVecBnz (l : Nat) (sur : Surround) (s : State) : Host.Outcome State Fault Refusal :=
  vecRow l s (vecStep (isOp 0x04) (branchIf (fun ln w => sreg ln (bwSa w) != 0)) l sur s)

/-- VEC_BLT (R193): signed. -/
def execVecBlt (l : Nat) (sur : Surround) (s : State) : Host.Outcome State Fault Refusal :=
  vecRow l s (vecStep (isOp 0x05) (branchIf (fun ln w => (sreg ln (bwSa w)).slt (sreg ln (bwSb w)))) l sur s)

/-- loop: sa = sa - 1, then branch when sa is not 0. -/
def loopBody (s : State) (l : Nat) (ln : LaneSt) (w : Nat) : VOut :=
  let x := sreg ln (bwSa w) - 1
  let s := setLane s l (setSreg ln (bwSa w) x)
  if x = 0 then .next s else .jump s (bwTarget w)

/-- VEC_LOOP (R193). -/
def execVecLoop (l : Nat) (sur : Surround) (s : State) : Host.Outcome State Fault Refusal :=
  vecRow l s (vecStep (isOp 0x06) loopBody l sur s)

/-- VEC_FENCE (R199): waits for every remote operation of the program. -/
def execVecFence (l : Nat) (sur : Surround) (s : State) : Host.Outcome State Fault Refusal :=
  vecRow l s (vecStep (isOp 0x07) (fun s _ ln _ => if ln.pend.isEmpty then .next s else .wait) l sur s)

/-! ### Scalars (R193, R194) -/

/-- sd = f sa sb imm. -/
def scalarOp (f : Dword → Dword → Dword → Dword) : State → Nat → LaneSt → Nat → VOut :=
  regOp (fun _ ln w => setSreg ln (swSd w) (f (sreg ln (swSa w)) (sreg ln (swSb w)) (swImm w)))

/-- A row of a scalar instruction. -/
def scalarRow (op : Nat) (f : Dword → Dword → Dword → Dword) (l : Nat) (sur : Surround) (s : State) : Host.Outcome State Fault Refusal :=
  vecRow l s (vecStep (isOp op) (scalarOp f) l sur s)

/-- A shift's distance: (sb + imm) modulo 64. -/
def shiftBy (b i : Dword) : Nat := (b + i).toNat % 64

def execVecSadd (l : Nat) (sur : Surround) (s : State) : Host.Outcome State Fault Refusal := scalarRow 0x10 (fun a b i => a + b + i) l sur s
def execVecSsub (l : Nat) (sur : Surround) (s : State) : Host.Outcome State Fault Refusal := scalarRow 0x11 (fun a b _ => a - b) l sur s
def execVecSmul (l : Nat) (sur : Surround) (s : State) : Host.Outcome State Fault Refusal := scalarRow 0x12 (fun a b _ => a * b) l sur s
def execVecSand (l : Nat) (sur : Surround) (s : State) : Host.Outcome State Fault Refusal := scalarRow 0x13 (fun a b _ => a &&& b) l sur s
def execVecSor (l : Nat) (sur : Surround) (s : State) : Host.Outcome State Fault Refusal := scalarRow 0x14 (fun a b _ => a ||| b) l sur s
def execVecSxor (l : Nat) (sur : Surround) (s : State) : Host.Outcome State Fault Refusal := scalarRow 0x15 (fun a b _ => a ^^^ b) l sur s
def execVecSshl (l : Nat) (sur : Surround) (s : State) : Host.Outcome State Fault Refusal := scalarRow 0x16 (fun a b i => a <<< shiftBy b i) l sur s
def execVecSshr (l : Nat) (sur : Surround) (s : State) : Host.Outcome State Fault Refusal := scalarRow 0x17 (fun a b i => a >>> shiftBy b i) l sur s
def execVecSsra (l : Nat) (sur : Surround) (s : State) : Host.Outcome State Fault Refusal := scalarRow 0x18 (fun a b i => a.sshiftRight (shiftBy b i)) l sur s
def execVecSmin (l : Nat) (sur : Surround) (s : State) : Host.Outcome State Fault Refusal := scalarRow 0x1A (fun a b _ => if b.slt a then b else a) l sur s
def execVecSmax (l : Nat) (sur : Surround) (s : State) : Host.Outcome State Fault Refusal := scalarRow 0x1B (fun a b _ => if a.slt b then b else a) l sur s

/-- sli: the whole scalar, or its upper half. -/
def sliOf (old : Dword) (w : Nat) : Dword :=
  if swMod w % 2 = 1 then (old &&& 0xFFFFFFFF) ||| (BitVec.ofNat 64 (bitsOf w 0 32) <<< 32) else swImm w

/-- VEC_SLI (R193). -/
def execVecSli (l : Nat) (sur : Surround) (s : State) : Host.Outcome State Fault Refusal :=
  vecRow l s (vecStep (isOp 0x19) (regOp (fun _ ln w => setSreg ln (swSd w) (sliOf (sreg ln (swSd w)) w))) l sur s)

/-- The system values of R194 for a lane. -/
def sysValue (s : State) (l : Nat) (ln : LaneSt) (i : Nat) : Nat :=
  let e := match ln.vecRun with | some (q, idx) => findCmd s q idx | none => none
  if i = 0 then ln.pos
  else if i = 1 then (match e with | some e => e.laneCount | none => 0)
  else if i = 2 then l
  else if i = 3 then (match e with | some e => e.cmdId | none => 0)
  else if i = 4 then ln.step
  else if i = 5 then getF s CMD_EPOCH_current
  else if i = 6 then timeNow s
  else if i = 7 then ln.sticky % 32
  else getF s DEV_INFO_arith_rev

/-- VEC_SSYS (R194). -/
def execVecSsys (l : Nat) (sur : Surround) (s : State) : Host.Outcome State Fault Refusal :=
  vecRow l s (vecStep (isOp 0x1C) (fun s l ln w =>
    .next (setLane s l (setSreg ln (swSd w) (BitVec.ofNat 64 (sysValue s l ln (bwTarget w)))))) l sur s)

/-- VEC_SGET (R193). -/
def execVecSget (l : Nat) (sur : Surround) (s : State) : Host.Outcome State Fault Refusal :=
  vecRow l s (vecStep (isOp 0x1D) (regOp (fun _ ln w =>
    setSreg ln (swSd w) ((vreg ln (swMod w % 32) (shiftBy (sreg ln (swSb w)) (swImm w))).setWidth 64))) l sur s)

/-! ### Elementwise arithmetic (R195) -/

/-- The sticky flags of a result: invalid for a NaN from no NaN, overflow for an infinity from finite inputs. -/
def arithFlags (ins : List Word) (r : Word) : Nat :=
  if isNan32 r then (if ins.any isNan32 then 0 else stkInvalid)
  else if nonFinite32 r ∧ ins.all (fun x => !nonFinite32 x) then stkOverflow else 0

/-- An elementwise instruction: each selected element's value and sticky flags. -/
def elementOp (f : LaneSt → Nat → Nat → Word × Nat) : State → Nat → LaneSt → Nat → VOut :=
  regOp (fun _ ln w =>
    let m := maskOf ln w
    let rs := (maskList m).map (fun i => (i, f ln w i))
    stick (rs.foldl (fun a r => setVreg a (vwVd w) r.1 r.2.1) ln) (rs.foldl (fun t r => t ||| r.2.2) 0))

/-- A row of an elementwise instruction. -/
def elementRow (op : Nat) (f : LaneSt → Nat → Nat → Word × Nat) (l : Nat) (sur : Surround) (s : State) : Host.Outcome State Fault Refusal :=
  vecRow l s (vecStep (isOp op) (elementOp f) l sur s)

/-- Operand elements. -/
def elA (ln : LaneSt) (w i : Nat) : Word := vreg ln (vwVa w) i
def elB (ln : LaneSt) (w i : Nat) : Word := vreg ln (vwVb w) i
def elC (ln : LaneSt) (w i : Nat) : Word := vreg ln (vwVc w) i
/-- binary32(sa[31:0]). -/
def scA (ln : LaneSt) (w : Nat) : Word := (sreg ln (vwSa w)).setWidth 32

/-- A binary instruction on two elements. -/
def flagged2 (f : Word → Word → Word) (x y : Word) : Word × Nat := let r := f x y; (r, arithFlags [x, y] r)

def execVecVadd (l : Nat) (sur : Surround) (s : State) : Host.Outcome State Fault Refusal :=
  elementRow 0x20 (fun ln w i => flagged2 fadd (elA ln w i) (elB ln w i)) l sur s
def execVecVsub (l : Nat) (sur : Surround) (s : State) : Host.Outcome State Fault Refusal :=
  elementRow 0x21 (fun ln w i => flagged2 fsub (elA ln w i) (elB ln w i)) l sur s
def execVecVmul (l : Nat) (sur : Surround) (s : State) : Host.Outcome State Fault Refusal :=
  elementRow 0x22 (fun ln w i => flagged2 fmul (elA ln w i) (elB ln w i)) l sur s
def execVecVfma (l : Nat) (sur : Surround) (s : State) : Host.Outcome State Fault Refusal :=
  elementRow 0x23 (fun ln w i => let r := ffma (elA ln w i) (elB ln w i) (elC ln w i)
    (r, arithFlags [elA ln w i, elB ln w i, elC ln w i] r)) l sur s

/-- vmax and vmin of R195: the other operand for a NaN, -0 below +0. -/
def vmaxOf (x y : Word) : Word :=
  if isNan32 x then (if isNan32 y then nan32 else y) else if isNan32 y then x else if ordSigned32 x < ordSigned32 y then y else x
def vminOf (x y : Word) : Word :=
  if isNan32 x then (if isNan32 y then nan32 else y) else if isNan32 y then x else if ordSigned32 y < ordSigned32 x then y else x

def execVecVmax (l : Nat) (sur : Surround) (s : State) : Host.Outcome State Fault Refusal :=
  elementRow 0x24 (fun ln w i => (vmaxOf (elA ln w i) (elB ln w i), 0)) l sur s
def execVecVmin (l : Nat) (sur : Surround) (s : State) : Host.Outcome State Fault Refusal :=
  elementRow 0x25 (fun ln w i => (vminOf (elA ln w i) (elB ln w i), 0)) l sur s
def execVecVabs (l : Nat) (sur : Surround) (s : State) : Host.Outcome State Fault Refusal :=
  elementRow 0x26 (fun ln w i => (elA ln w i &&& 0x7FFFFFFF, 0)) l sur s
def execVecVneg (l : Nat) (sur : Surround) (s : State) : Host.Outcome State Fault Refusal :=
  elementRow 0x27 (fun ln w i => (elA ln w i ^^^ 0x80000000, 0)) l sur s
def execVecVmuls (l : Nat) (sur : Surround) (s : State) : Host.Outcome State Fault Refusal :=
  elementRow 0x28 (fun ln w i => flagged2 fmul (elA ln w i) (scA ln w)) l sur s
def execVecVadds (l : Nat) (sur : Surround) (s : State) : Host.Outcome State Fault Refusal :=
  elementRow 0x29 (fun ln w i => flagged2 fadd (elA ln w i) (scA ln w)) l sur s
def execVecVbcast (l : Nat) (sur : Surround) (s : State) : Host.Outcome State Fault Refusal :=
  elementRow 0x2A (fun ln w _ => (if vwMod w % 2 = 1 then BitVec.ofNat 32 (vwImm w * 2 ^ 16) else scA ln w, 0)) l sur s
def execVecVsel (l : Nat) (sur : Surround) (s : State) : Host.Outcome State Fault Refusal :=
  elementRow 0x2B (fun ln w i => (if bitOf (preg ln (vwMod w % 8)) i then elA ln w i else elB ln w i, 0)) l sur s
def execVecViadd (l : Nat) (sur : Surround) (s : State) : Host.Outcome State Fault Refusal :=
  elementRow 0x40 (fun ln w i => (elA ln w i + elB ln w i, 0)) l sur s
def execVecViota (l : Nat) (sur : Surround) (s : State) : Host.Outcome State Fault Refusal :=
  elementRow 0x41 (fun ln w i => (scA ln w + BitVec.ofNat 32 (vwImm w) + BitVec.ofNat 32 i, 0)) l sur s

/-- vcmp's conditions (R195). -/
def compareOf (c : Nat) (x y : Word) : Bool :=
  let un := isNan32 x || isNan32 y
  if c = 0 then !un && ord32 x == ord32 y
  else if c = 1 then un || ord32 x != ord32 y
  else if c = 2 then !un && decide (ord32 x < ord32 y)
  else if c = 3 then !un && decide (ord32 x ≤ ord32 y)
  else if c = 4 then !un && decide (ord32 y < ord32 x)
  else if c = 5 then !un && decide (ord32 y ≤ ord32 x)
  else un

/-- Write the selected bits of a predicate. -/
def writePred (ln : LaneSt) (r m : Nat) (f : Nat → Bool) : LaneSt :=
  setPreg ln r (maskFrom (fun i => if bitOf m i then f i else bitOf (preg ln r) i))

/-- VEC_VCMP (R195). -/
def execVecVcmp (l : Nat) (sur : Surround) (s : State) : Host.Outcome State Fault Refusal :=
  vecRow l s (vecStep (isOp 0x2C) (regOp (fun _ ln w =>
    writePred ln (vwVd w % 8) (maskOf ln w) (fun i => compareOf (vwMod w % 8) (elA ln w i) (elB ln w i)))) l sur s)

/-! ### Transcendentals and conversions (R197) -/

/-- A transcendental's element: the result and its sticky flags. -/
def transElement (op : Nat) (ln : LaneSt) (w i : Nat) : Word × Nat :=
  let x := elA ln w i
  let r := transRes op x (Config.transcendental op x)
  (r.val, (if r.invalid then stkInvalid else 0) + (if r.overflow then stkOverflow else 0) + (if r.dz then stkDivZero else 0))

def execVecVsqrt (l : Nat) (sur : Surround) (s : State) : Host.Outcome State Fault Refusal := elementRow 0x2D (transElement 0x2D) l sur s
def execVecVrcp (l : Nat) (sur : Surround) (s : State) : Host.Outcome State Fault Refusal := elementRow 0x30 (transElement 0x30) l sur s
def execVecVrsqrt (l : Nat) (sur : Surround) (s : State) : Host.Outcome State Fault Refusal := elementRow 0x31 (transElement 0x31) l sur s
def execVecVexp2 (l : Nat) (sur : Surround) (s : State) : Host.Outcome State Fault Refusal := elementRow 0x32 (transElement 0x32) l sur s
def execVecVlog2 (l : Nat) (sur : Surround) (s : State) : Host.Outcome State Fault Refusal := elementRow 0x33 (transElement 0x33) l sur s
def execVecVexp (l : Nat) (sur : Surround) (s : State) : Host.Outcome State Fault Refusal := elementRow 0x34 (transElement 0x34) l sur s
def execVecVtanh (l : Nat) (sur : Surround) (s : State) : Host.Outcome State Fault Refusal := elementRow 0x35 (transElement 0x35) l sur s
def execVecVsig (l : Nat) (sur : Surround) (s : State) : Host.Outcome State Fault Refusal := elementRow 0x36 (transElement 0x36) l sur s
def execVecVsin (l : Nat) (sur : Surround) (s : State) : Host.Outcome State Fault Refusal := elementRow 0x37 (transElement 0x37) l sur s
def execVecVcos (l : Nat) (sur : Surround) (s : State) : Host.Outcome State Fault Refusal := elementRow 0x38 (transElement 0x38) l sur s

/-- binary32 to int32, ties to even, saturating (R197). -/
def toInt32 (x : Word) : Word × Nat :=
  match v32 x with
  | .nan => (0, stkInvalid)
  | .inf s => (if s then 0x80000000 else 0x7FFFFFFF, stkSaturated)
  | .fin s m e =>
    let v := roundEven (.fin s m e) 0
    if v < -2147483648 then (0x80000000, stkSaturated)
    else if 2147483647 < v then (0x7FFFFFFF, stkSaturated)
    else (BitVec.ofInt 32 v, 0)

def execVecVcvtfi (l : Nat) (sur : Surround) (s : State) : Host.Outcome State Fault Refusal :=
  elementRow 0x42 (fun ln w i => toInt32 (elA ln w i)) l sur s
def execVecVcvtif (l : Nat) (sur : Surround) (s : State) : Host.Outcome State Fault Refusal :=
  elementRow 0x43 (fun ln w i => (e32 (fpOfInt (elA ln w i).toInt 0), 0)) l sur s

/-! ### Reductions (R196) -/

/-- The fixed tree: for w = 32 down to 1, element i takes in element i + w. -/
def treeFold {α : Type} (op : α → α → α) : Nat → List α → List α
  | 0, xs => xs
  | n + 1, xs => let w := 2 ^ n; treeFold op n (List.zipWith op (xs.take w) (xs.drop w))

/-- The tree over 64 elements, its result the head. -/
def treeOf {α : Type} (op : α → α → α) (d : α) (xs : List α) : α := (treeFold op 6 xs).headD d

/-- A reduction whose result and sticky flags go to every element of vd. -/
def reduceRow (op : Nat) (f : LaneSt → Nat → Nat → Word × Nat) (l : Nat) (sur : Surround) (s : State) : Host.Outcome State Fault Refusal :=
  vecRow l s (vecStep (isOp op) (regOp (fun _ ln w =>
    let r := f ln w (maskOf ln w)
    stick (writeAll ln (vwVd w) (fun _ => r.1)) r.2)) l sur s)

/-- vrsum: adds of the tree, each rounded, their flags gathered. -/
def sumTree (ln : LaneSt) (w m : Nat) : Word × Nat :=
  treeOf (fun x y => let r := fadd x.1 y.1; (r, x.2 ||| y.2 ||| arithFlags [x.1, y.1] r)) (0, 0)
    ((List.range 64).map (fun i => (if bitOf m i then elA ln w i else 0, 0)))

/-- vrmax and vrmin: NaN elements are skipped; with nothing left, NaN where some element was taken. -/
def extremeTree (pick : Word → Word → Word) (none' : Word) (ln : LaneSt) (w m : Nat) : Word × Nat :=
  let taken := (maskList m).map (elA ln w)
  if !taken.isEmpty && taken.all isNan32 then (nan32, 0)
  else (treeOf pick none' ((List.range 64).map (fun i =>
    let x := elA ln w i
    if bitOf m i && !isNan32 x then x else none')), 0)

def execVecVrsum (l : Nat) (sur : Surround) (s : State) : Host.Outcome State Fault Refusal := reduceRow 0x48 sumTree l sur s
def execVecVrmax (l : Nat) (sur : Surround) (s : State) : Host.Outcome State Fault Refusal := reduceRow 0x49 (extremeTree vmaxOf ninf32) l sur s
def execVecVrmin (l : Nat) (sur : Surround) (s : State) : Host.Outcome State Fault Refusal := reduceRow 0x4A (extremeTree vminOf inf32) l sur s

/-- vargmax: the maximum and the lowest index of the equal maxima (R196). Where every element taken is NaN the spec
states no index, and it is free. -/
def argmaxBody (s : State) (l : Nat) (ln : LaneSt) (w : Nat) : VOut :=
  let m := maskOf ln w
  let r := (extremeTree vmaxOf ninf32 ln w m).1
  let taken := maskList m
  let ix := taken.find? (fun i => !isNan32 (elA ln w i) && ordSigned32 (elA ln w i) == ordSigned32 r)
  let idx := if taken.isEmpty then BitVec.ofNat 64 allOnes
    else match ix with
      | some i => BitVec.ofNat 64 i
      | none => Config.argmaxIndex ((List.range 64).map (fun i => (elA ln w i).toNat)) m
  .next (setLane s l (setSreg (writeAll ln (vwVd w) (fun _ => r)) (vwSa w) idx))

/-- VEC_VARGMAX (R196). -/
def execVecVargmax (l : Nat) (sur : Surround) (s : State) : Host.Outcome State Fault Refusal :=
  vecRow l s (vecStep (isOp 0x4B) argmaxBody l sur s)

/-! ### Predicates (R193) -/

/-- A predicate formed from two. -/
def predRow (op : Nat) (f : Nat → Nat → Nat) (l : Nat) (sur : Surround) (s : State) : Host.Outcome State Fault Refusal :=
  vecRow l s (vecStep (isOp op) (regOp (fun _ ln w =>
    setPreg ln (vwVd w % 8) (f (preg ln (vwVa w % 8)) (preg ln (vwVb w % 8))))) l sur s)

def execVecPand (l : Nat) (sur : Surround) (s : State) : Host.Outcome State Fault Refusal := predRow 0x50 (fun a b => a &&& b) l sur s
def execVecPor (l : Nat) (sur : Surround) (s : State) : Host.Outcome State Fault Refusal := predRow 0x51 (fun a b => a ||| b) l sur s
def execVecPxor (l : Nat) (sur : Surround) (s : State) : Host.Outcome State Fault Refusal := predRow 0x52 (fun a b => a ^^^ b) l sur s
def execVecPnot (l : Nat) (sur : Surround) (s : State) : Host.Outcome State Fault Refusal := predRow 0x53 (fun a _ => xorNat a allOnes) l sur s

/-- VEC_PSET (R193). -/
def execVecPset (l : Nat) (sur : Surround) (s : State) : Host.Outcome State Fault Refusal :=
  vecRow l s (vecStep (isOp 0x54) (regOp (fun _ ln w => setPreg ln (vwVd w % 8) (sreg ln (vwSa w)).toNat)) l sur s)

/-- VEC_PCNT (R193). -/
def execVecPcnt (l : Nat) (sur : Surround) (s : State) : Host.Outcome State Fault Refusal :=
  vecRow l s (vecStep (isOp 0x55) (regOp (fun _ ln w =>
    setSreg ln (vwSa w) (BitVec.ofNat 64 (maskList (preg ln (vwVa w % 8))).length))) l sur s)

/-! ### Sampling (R202-R204) -/

/-- The draw of element i (R202). -/
def drawOf (s : State) (ln : LaneSt) (w i : Nat) : Nat :=
  rbits (jobSeed s) 2 ln.step ((sreg ln 15).toNat % 2 ^ 16) ((sreg ln 13).toNat % 2 ^ 32)
    (((sreg ln (vwSa w)).toNat + vwImm w + i) % 2 ^ 32) ((sreg ln 14).toNat % 2 ^ 32)

/-- A draw instruction. -/
def drawRow (op : Nat) (f : Nat → Word) (l : Nat) (sur : Surround) (s : State) : Host.Outcome State Fault Refusal :=
  vecRow l s (vecStep (isOp op) (fun s l ln w =>
    .next (setLane s l (writeMasked ln (vwVd w) (maskOf ln w) (fun i => f (drawOf s ln w i))))) l sur s)

def execVecVunif (l : Nat) (sur : Surround) (s : State) : Host.Outcome State Fault Refusal :=
  drawRow 0x70 (fun r => e32 (.fin false (2 * r + 1) (-17))) l sur s
def execVecVgumbel (l : Nat) (sur : Surround) (s : State) : Host.Outcome State Fault Refusal := drawRow 0x71 gumbelEntry l sur s

/-- A pair of a top-k list comes before another: the greater value, then the lower index (R203). -/
def topBefore (x y : Word × Nat) : Bool := decide (ord32 y.1 < ord32 x.1) || (ord32 x.1 == ord32 y.1 && decide (x.2 < y.2))

/-- Insert a pair behind those that come before it or are its equal. -/
def topInsert (x : Word × Nat) : List (Word × Nat) → List (Word × Nat)
  | [] => [x]
  | y :: t => if topBefore x y then x :: y :: t else y :: topInsert x t

/-- NaN and negative infinity never enter a list. -/
def topEnters (x : Word) : Bool := !isNan32 x && x != ninf32

/-- The entries of the list in a register pair. -/
def topEntries (ln : LaneSt) (r : Nat) : List (Word × Nat) :=
  ((List.range 64).map (fun i => (vreg ln r i, (vreg ln (r + 1) i).toNat))).filter (fun x => topEnters x.1)

/-- vtopk (R203). -/
def topkBody (ln : LaneSt) (w : Nat) : LaneSt :=
  let k := vwMod w % 128
  let cands := if bitOf (vwMod w) 7 then topEntries ln (vwVa w)
    else ((maskList (maskOf ln w)).map (fun i => (elA ln w i, ((sreg ln (vwSa w)).toNat + vwImm w + i) % 2 ^ 32))).filter
      (fun x => topEnters x.1)
  let all := cands.foldl (fun t x => topInsert x t) ((topEntries ln (vwVd w)).foldl (fun t x => topInsert x t) [])
  let best := all.take k
  let ln := writeAll ln (vwVd w) (fun i => match best[i]? with | some x => x.1 | none => ninf32)
  writeAll ln (vwVd w + 1) (fun i => match best[i]? with | some x => BitVec.ofNat 32 x.2 | none => 0xFFFFFFFF)

/-- VEC_VTOPK (R203). -/
def execVecVtopk (l : Nat) (sur : Surround) (s : State) : Host.Outcome State Fault Refusal :=
  vecRow l s (vecStep (isOp 0x72) (regOp (fun _ ln w => topkBody ln w)) l sur s)

/-- The sums of the elements before each, in index order (R204). -/
def prefixSums (ln : LaneSt) (w : Nat) : List Word :=
  ((List.range 64).foldl (fun (st : List Word × Word) i =>
    (st.1 ++ [st.2], if i = 0 then elA ln w 0 else fadd st.2 (elA ln w i))) ([], 0)).1

/-- VEC_VTOPP (R204). -/
def execVecVtopp (l : Nat) (sur : Surround) (s : State) : Host.Outcome State Fault Refusal :=
  vecRow l s (vecStep (isOp 0x73) (regOp (fun _ ln w =>
    let cs := prefixSums ln w
    writePred ln (vwVd w % 8) (maskOf ln w) (fun i =>
      compareOf 4 (elA ln w i) 0 && (i == 0 || compareOf 2 ((cs[i]?).getD 0) (scA ln w))))) l sur s)

end Sys2Proof.Machine
end

