-- ==== Sys2Proof/Machine/Coll.lean ====
section
/-! DEFINITION. The collective engine (12_collectives R277-R300): operand blocks, groups, chunks, the fixed-order sums, the
messages it sends, and the ends of its commands. -/

namespace Sys2Proof.Machine

/-! ### Blocks and groups (R277, R280) -/

/-- The operand block of R280. -/
def collOpOf (op : Nat) (b : List Byte) : CollOp :=
  let f := leAt b 25 1
  { op := op, src := leAt b 0 8, dst := leAt b 8 8, count := leAt b 16 4, ity := leAt b 20 1 % 16, oty := leAt b 20 1 / 16,
    red := leAt b 21 1, axis := leAt b 22 1 % 4, size := leAt b 23 1, chunkLog := leAt b 24 1, stats := bitOf f 0,
    fold := bitOf f 1, coded := bitOf f 2, landing := bitOf f 3, codec := leAt b 26 1 % 16, lnum := leAt b 27 1 % 64,
    slot := leAt b 28 2, root := leAt b 30 2, step := leAt b 32 4, aux := leAt b 36 4, auxAddr := leAt b 40 8,
    recvAddr := leAt b 48 8 }

def CollOp.reduces (o : CollOp) : Bool := o.op == 0x0301 || o.op == 0x0303
def CollOp.gathers (o : CollOp) : Bool := o.op == 0x0302
def CollOp.broadcasts (o : CollOp) : Bool := o.op == 0x0304
def CollOp.exchanges (o : CollOp) : Bool := o.op == 0x0305

/-- Bytes of an element type (R280); raw counts bytes. -/
def typeSize (t : Nat) : Nat := if t = 1 ∨ t = 4 then 4 else if t = 2 ∨ t = 3 then 2 else 1

/-- The float format of an element type. -/
def typeFmt (t : Nat) : Fmt := if t = 2 then f16 else if t = 3 then bf16 else f32

/-- Bytes of a column of a landing, and its columns per share and per chunk (R291). -/
def CollOp.colBytes (o : CollOp) : Nat := o.aux % 65536 * 64
def CollOp.colsPerShare (o : CollOp) : Nat := o.count / max 1 o.colBytes
def CollOp.colsPerChunk (o : CollOp) : Nat := o.aux / 65536

/-- Bytes of a shard in the input format (R279); of a region of an all-to-all. -/
def CollOp.shardBytes (o : CollOp) : Nat :=
  if o.reduces then o.count / max 1 o.size * typeSize o.ity
  else if o.exchanges then o.count * o.aux else o.count * typeSize o.ity

/-- Bytes of a chunk but the last. -/
def CollOp.chunkBytes (o : CollOp) : Nat :=
  if o.landing then o.colsPerChunk * o.colBytes
  else if o.exchanges then 2 ^ o.chunkLog / max 1 o.aux * o.aux else 2 ^ o.chunkLog

/-- A reduction with count 0 carries one empty chunk per position to position 0 (R293). -/
def CollOp.empty (o : CollOp) : Bool := o.reduces && o.count == 0

/-- Chunks per shard (R279). -/
def CollOp.cps (o : CollOp) : Nat := if o.empty then 1 else ceilDiv o.shardBytes (max 1 o.chunkBytes)

/-- Shards of the command: one of a broadcast or of an empty reduction, else one for each position. -/
def CollOp.shards (o : CollOp) : Nat := if o.broadcasts || o.empty then 1 else o.size

/-- Offset and length of place i of a shard, in the input format. -/
def CollOp.placeOff (o : CollOp) (i : Nat) : Nat := i * o.chunkBytes
def CollOp.placeLen (o : CollOp) (i : Nat) : Nat := min o.chunkBytes (o.shardBytes - i * o.chunkBytes)

/-- The rank of a device under the role table in force (R277). -/
def rankOf (s : State) (dev : Nat) : Option Nat :=
  (List.range 16384).find? (fun r => resolveRank s r == .device dev)

/-- The coordinate of a rank that an axis varies, its range, and the distance of its ranks (R8, R277). -/
def axisCoord (axis rank : Nat) : Nat :=
  if axis = 0 then rank % 16 else if axis = 1 then rank / 16 % 64 else rank / 1024
def axisLimit (axis : Nat) : Nat := if axis = 1 then 64 else 16
def axisStride (axis : Nat) : Nat := if axis = 0 then 1 else if axis = 1 then 16 else 1024

/-- The first group position's coordinate. -/
def groupBase (o : CollOp) (rank : Nat) : Nat := axisCoord o.axis rank / max 1 o.size * o.size

/-- What the ranks of a group resolve to, by position. -/
def groupRanks (s : State) (o : CollOp) (rank : Nat) : List RankAt :=
  (List.range o.size).map (fun p =>
    resolveRank s (rank - axisCoord o.axis rank * axisStride o.axis + (groupBase o rank + p) * axisStride o.axis))

/-! ### The checks of R300 -/

/-- The pairing of types and operation is one R280 allows. -/
def pairingOk (o : CollOp) : Bool :=
  if o.reduces then
    (if o.red = 0 ∨ o.red = 1 then decide (1 ≤ o.ity ∧ o.ity ≤ 3 ∧ 1 ≤ o.oty ∧ o.oty ≤ 3) else o.red == 2 && o.ity == 4 && o.oty == 4)
      && (!o.stats || o.red == 0)
  else decide (o.ity ≤ 3) && o.oty == 0 && o.red == 0 && !o.stats && !o.fold

/-- Fields that R280 sets to 0, reserved bits, and the slot's range. -/
def collFieldsOk (b : List Byte) (o : CollOp) : Bool :=
  leAt b 22 1 / 4 == 0 && leAt b 25 1 / 16 == 0 && leAt b 26 1 / 16 == 0 && leAt b 27 1 / 64 == 0 && zeroAt b 56 8
    && (o.broadcasts || o.root == 0) && (o.exchanges || o.recvAddr == 0) && (o.exchanges || o.reduces || o.auxAddr == 0)
    && (o.exchanges || o.landing || o.aux == 0) && (!o.landing || o.gathers)
    && (!o.coded || ((o.ity == 2 || o.ity == 3) && !o.landing)) && (isSlot o.slot || o.slot == 0xFFFF)
    && (!o.landing || o.ity == 0)

/-- Count and chunk size are in range (R279, R295). -/
def countOk (o : CollOp) : Bool :=
  (o.landing || decide (12 ≤ o.chunkLog ∧ o.chunkLog ≤ 20))
    && (if o.reduces then
          (decide (0 < o.count) || o.fold) && o.count % max 1 o.size == 0 && o.shardBytes % 64 == 0
        else decide (0 < o.count))
    && (!o.exchanges || (decide (4 ≤ o.aux ∧ o.aux ≤ 65532) && o.aux % 4 == 0 && decide (0 < o.chunkBytes)))
    && (o.landing || decide (o.cps * o.shards ≤ 1048576))

/-- A range is local memory. -/
def localRange (a n : Nat) : Bool := n == 0 || (inMemory a 1 && inMemory a n)

/-- Bytes of the destination. -/
def CollOp.destBytes (o : CollOp) : Nat :=
  if o.reduces then (if o.op = 0x0301 then o.count / max 1 o.size else o.count) * typeSize o.oty
  else if o.broadcasts then o.shardBytes else o.shardBytes * o.size

/-- The addresses of the block lie in local memory (R280, R300). -/
def addrsOk (o : CollOp) (me : Nat) : Bool :=
  let tot := o.shardBytes * o.size
  if o.reduces then
    localRange o.src tot && localRange o.dst o.destBytes && (o.auxAddr == 0 || localRange o.auxAddr (4 * o.cps))
  else if o.gathers then localRange o.src o.shardBytes && localRange o.dst tot
  else if o.broadcasts then (me != o.root || localRange o.src o.shardBytes) && localRange o.dst o.shardBytes
  else localRange o.src tot && localRange o.dst tot && localRange o.auxAddr (4 * o.size) && localRange o.recvAddr (4 * o.size)

/-- Landing fields are in range (R291). -/
def landingOk (o : CollOp) : Bool :=
  !o.landing || (decide (0 < o.colBytes ∧ 0 < o.colsPerChunk) && o.count % max 1 o.colBytes == 0
    && decide (o.cps * o.size ≤ 4096))

/-- The checks of a collective's block (R300): a status and a detail. -/
def collCheck (s : State) (b : List Byte) (o : CollOp) : Except (Nat × Nat) (Nat × List Nat) :=
  if o.axis = 3 ∨ o.size < 2 ∨ 16 < o.size ∨ (o.broadcasts ∧ o.size ≤ o.root) then .error (stMalformed, 14)
  else match rankOf s (myId s) with
    | none => .error (stRankUnknown, 0)
    | some r =>
      let base := groupBase o r
      let me := axisCoord o.axis r - base
      if axisLimit o.axis < base + o.size then .error (stMalformed, 14)
      else if !countOk o then .error (stMalformed, 15)
      else if !addrsOk o me then .error (stMalformed, 16)
      else if !pairingOk o ∨ !collFieldsOk b o then .error (stMalformed, 17)
      else if !landingOk o ∨ (o.coded ∧ !(cbzSlot s o.codec).hasCurrent) then .error (stMalformed, 18)
      else
        let rs := groupRanks s o r
        if rs.contains .unknown then .error (stRankUnknown, 0)
        else if rs.contains .offStadium then .error (stOffStadium, 0)
        else .ok (me, rs.map (fun x => match x with | .device d => d | _ => 0))

/-! ### Chunks (R279) -/

/-- A chunk's key: its owner and its index. -/
def chunkKey (owner index : Nat) : Nat := owner * 2 ^ 20 + index
def keyOwner (k : Nat) : Nat := k / 2 ^ 20
def keyIndex (k : Nat) : Nat := k % 2 ^ 20

/-- The owner of shard j: its position; the root of a broadcast; of an all-to-all the source. -/
def CollOp.ownerOf (o : CollOp) (j : Nat) : Nat := if o.broadcasts then o.root else j

/-- The keys a member owns: the chunks of its shard; of an all-to-all those it sends. -/
def ownedKeys (r : CollRun) : List Nat :=
  let places := List.range r.o.cps
  if r.o.exchanges then
    ((List.range r.o.size).filter (· != r.me)).flatMap (fun j => places.map (fun i => chunkKey r.me (j * r.o.cps + i)))
  else if r.o.broadcasts then (if r.me = r.o.root then places.map (chunkKey r.me) else [])
  else if r.o.empty then (if r.me = 0 then [chunkKey 0 0] else [])
  else places.map (fun i => chunkKey r.me (r.me * r.o.cps + i))

/-- The keys a member receives. -/
def receivedKeys (r : CollRun) : List Nat :=
  let others := (List.range r.o.size).filter (· != r.me)
  let places := List.range r.o.cps
  if r.o.exchanges then others.flatMap (fun i => places.map (fun p => chunkKey i (r.me * r.o.cps + p)))
  else if r.o.broadcasts then (if r.me = r.o.root then [] else places.map (chunkKey r.o.root))
  else if r.o.empty then (if r.me = 0 then [] else [chunkKey 0 0])
  else if r.o.op = 0x0301 then []
  else others.flatMap (fun j => places.map (fun i => chunkKey j (j * r.o.cps + i)))

/-- The keys a member contributes to and neither owns nor receives: those of a reduce-scatter's other owners. -/
def contributedKeys (r : CollRun) : List Nat :=
  if r.o.op = 0x0301 ∧ !r.o.empty then
    ((List.range r.o.size).filter (· != r.me)).flatMap (fun j => (List.range r.o.cps).map (fun i => chunkKey j (j * r.o.cps + i)))
  else []

/-- The positions that receive a chunk (R289). -/
def receiversOf (o : CollOp) (key : Nat) : List Nat :=
  if o.exchanges then [keyIndex key / max 1 o.cps]
  else if o.op = 0x0301 ∧ !o.empty then []
  else (List.range o.size).filter (· != keyOwner key)

/-- The place of a chunk in its shard. -/
def placeIn (o : CollOp) (key : Nat) : Nat := keyIndex key % max 1 o.cps

/-- A chunk of the command exists under a key. -/
def chunkKeyOk (o : CollOp) (key : Nat) : Bool :=
  let j := keyIndex key / max 1 o.cps
  decide (j < o.shards) && decide (keyOwner key < o.size) && (if o.exchanges then keyOwner key != j else keyOwner key == o.ownerOf j)

/-- Bytes of a chunk in the format its owner forms it in. -/
def outLen (o : CollOp) (key : Nat) : Nat :=
  if o.empty then 0
  else
    let n := o.placeLen (placeIn o key)
    if o.reduces then n / typeSize o.ity * typeSize o.oty else n

/-- Where a member writes a formed or received chunk. -/
def destOf (r : CollRun) (key : Nat) : Nat :=
  let o := r.o
  let off := o.placeOff (placeIn o key)
  if o.op = 0x0301 then o.dst + off / typeSize o.ity * typeSize o.oty
  else if o.reduces then o.dst + (keyOwner key * (o.count / max 1 o.size) + off / typeSize o.ity) * typeSize o.oty
  else if o.broadcasts then o.dst + off
  else o.dst + keyOwner key * o.shardBytes + off

/-- Where a contributor's or a sender's bytes of a chunk lie. -/
def sourceOf (o : CollOp) (key : Nat) : Nat :=
  let off := o.placeOff (placeIn o key)
  if o.reduces then o.src + keyOwner key * o.shardBytes + off
  else if o.exchanges then o.src + keyIndex key / max 1 o.cps * o.shardBytes + off
  else o.src + off

/-- The running command of a queue's command. -/
def findRun (s : State) (q idx : Nat) : Option CollRun := s.coll.running.find? (fun r => r.q == q && r.idx == idx)

/-- Store a running command. -/
def putRun (s : State) (r : CollRun) : State :=
  { s with coll := { s.coll with running := s.coll.running.map (fun x => if x.q == r.q && x.idx == r.idx then r else x) } }

/-- Change a running command. -/
def onRun (s : State) (q idx : Nat) (f : CollRun → CollRun) : State :=
  match findRun s q idx with
  | some r => putRun s (f r)
  | none => s

/-- A chunk's state. -/
def chunkOf (r : CollRun) (key : Nat) : ChunkSt := tget (fun _ => {}) r.chunks key

/-- Change a chunk's state. -/
def onChunk (s : State) (q idx key : Nat) (f : ChunkSt → ChunkSt) : State :=
  onRun s q idx (fun r => { r with chunks := tset (fun _ => {}) r.chunks key (f (chunkOf r key)) })

/-! ### Values (R284, R285, R294) -/

/-- A value rounded to a 48-bit significand, ties to even, with an unbounded exponent (R284). -/
def round48 : Fp → Fp
  | .fin s m e =>
    let l := m.log2
    if m = 0 ∨ l < 48 then .fin s m e
    else let k := l - 47; .fin s (rneQ m 1 (-(k : Int))) (e + k)
  | v => v

/-- add48 of R284. -/
def add48 (a b : Fp) : Fp := round48 (fpAdd a b)

/-- Element i of a byte string of a float type. -/
def typeElem (t : Nat) (bs : List Byte) (i : Nat) : Fp := fpDecode (typeFmt t) (leAt bs (i * typeSize t) (typeSize t))

/-- The elements of a byte string. -/
def typeElems (t : Nat) (bs : List Byte) : List Fp := (List.range (bs.length / typeSize t)).map (typeElem t bs)

/-- A value in an output type. -/
def typeBytes (t : Nat) (v : Fp) : List Byte := natLe (typeSize t) (fpEncode (typeFmt t) v)

/-- The sum of squares, continued from acc in element order (R294). -/
def addSquares (acc : Fp) (vs : List Fp) : Fp := vs.foldl (fun a v => add48 a (fpMul v v)) acc

/-- One formed element of contributions in position order (R284, R285). -/
def formElem (o : CollOp) (k5 : Bool) (cs : List (List Byte)) (i : Nat) : List Byte :=
  if o.red = 2 then
    natLe 4 (cs.foldl (fun a c => (BitVec.ofNat 32 a ||| BitVec.ofNat 32 (leAt c (4 * i) 4)).toNat) 0)
  else match cs with
    | [] => []
    | c :: rest =>
      if o.red = 1 then typeBytes o.oty (v32 (rest.foldl (fun a x => vmaxOf a (e32 (typeElem o.ity x i))) (e32 (typeElem o.ity c i))))
      else if k5 then typeBytes o.oty (v32 (rest.foldl (fun a x => fadd a (e32 (typeElem o.ity x i))) (e32 (typeElem o.ity c i))))
      else typeBytes o.oty (rest.foldl (fun a x => add48 a (typeElem o.ity x i)) (typeElem o.ity c i))

/-- The formed chunk of contributions in position order. -/
def formBytes (o : CollOp) (k5 : Bool) (n : Nat) (cs : List (List Byte)) : List Byte :=
  (List.range n).flatMap (formElem o k5 cs)

/-- A float type's byte string holds a non-finite element. -/
def hasNonfinite (t : Nat) (bs : List Byte) : Bool := decide (1 ≤ t ∧ t ≤ 3) && (typeElems t bs).any (fun v => !v.isFin)

/-! ### Step flags (R293) -/

def stepFlag (s : State) (step : Nat) : Bool := if step % 2 = 0 then isSet s COL_OVF_ovf0 else isSet s COL_OVF_ovf1

/-- A command of a newer step clears its parity's flag and records the step. -/
def openStep (s : State) (step : Nat) : State :=
  if step % 2 = 0 then
    (if getF s COL_OVF_STEP0_step < step then setF (setF s COL_OVF_STEP0_step step) COL_OVF_ovf0 0 else s)
  else (if getF s COL_OVF_STEP1_step < step then setF (setF s COL_OVF_STEP1_step step) COL_OVF_ovf1 0 else s)

/-- An ovf sent, formed or received for a step sets its flag, and the command's. -/
def noteOvf (s : State) (q idx step : Nat) (ovf : Bool) : State :=
  if !ovf then s
  else
    let f := if step % 2 = 0 then COL_OVF_ovf0 else COL_OVF_ovf1
    let st := if step % 2 = 0 then COL_OVF_STEP0_step else COL_OVF_STEP1_step
    let s := if getF s st = step then setF s f 1 else s
    onRun s q idx (fun r => { r with ovf := true })

/-! ### Sending (R281-R283) -/

/-- The header of R281. -/
def chunkHeader (m : ChunkMsg) (off : Nat) : List Byte :=
  natLe 1 m.msg ++ natLe 1 (b2n m.ovf + 2 * b2n m.coded + 4 * b2n m.minus + 8 * b2n m.k5) ++ natLe 2 m.cmdId ++ natLe 2 m.epoch
    ++ natLe 1 m.opcode ++ natLe 1 (m.pos % 16 + 16 * (m.owner % 16)) ++ natLe 4 m.step ++ natLe 4 m.chunk ++ natLe 4 m.crc
    ++ natLe 4 m.sqnorm.toNat ++ natLe 4 off ++ natLe 4 m.count

/-- Cut a stretch of chunk data into packets of at most 4,032 bytes. -/
def cutData : Nat → Nat → List Byte → List (Nat × List Byte)
  | 0, _, _ => []
  | n + 1, off, bs => if bs.isEmpty then [] else (off, bs.take 4032) :: cutData n (off + 4032) (bs.drop 4032)

/-- The places where a coded chunk's blocks start: each starts a packet (R281). -/
def codedPieces : Nat → Nat → List Byte → List (Nat × List Byte)
  | 0, _, _ => []
  | n + 1, off, bs =>
    if bs.length < 16 then []
    else
      let k := min bs.length (blockSize (headOf bs))
      cutData (k / 4032 + 1) off (bs.take k) ++ codedPieces n (off + k) (bs.drop k)

/-- The VC1 packets of a chunk message: whole words only. -/
def chunkPackets (m : ChunkMsg) : List (List Byte) :=
  let ps := if m.coded then codedPieces (m.data.length / 16 + 1) 0 m.data else cutData (m.data.length / 4032 + 1) 0 m.data
  let ps := if ps.isEmpty then [(0, [])] else ps
  ps.map (fun p => chunkHeader m p.1 ++ p.2 ++ List.replicate (roundUp p.2.length 4 - p.2.length) 0)

/-- The chunk a VC1 packet is of, where it carries a contribution (R281). -/
def contribKey (data : List Byte) : Option Nat :=
  if leAt data 0 1 = 1 then some (chunkKey (leAt data 7 1 / 16) (leAt data 12 4)) else none

/-- A packet of a command was not taken: a contribution stays undelivered, so that its command does not end with OK (R118). -/
def missedPacket (s : State) (q idx : Nat) (data : List Byte) : State :=
  match contribKey data with
  | some k => onRun s q idx (fun r => { r with undelivered := if r.undelivered.contains k then r.undelivered else r.undelivered ++ [k] })
  | none => s

/-- Issue waiting packets while the transaction table has room (R104). -/
def pumpOut : Nat → State → State
  | 0, s => s
  | k + 1, s =>
    match s.coll.outbox with
    | [] => s
    | c :: rest =>
      if txnRoom s 1 then
        match sendReq { s with coll := { s.coll with outbox := rest } } 1 c.dev 0x02 0 c.data.length 0 c.data (.chunk c.q c.idx) with
        | (s, true) => pumpOut k s
        | (s, false) => pumpOut k (missedPacket s c.q c.idx c.data)
      else s

/-- Issue what the engine has to send. -/
def pumpChunks (s : State) : State := pumpOut s.coll.outbox.length s

/-- Send a chunk message to a device for a command. -/
def sendChunk (s : State) (q idx dev : Nat) (m : ChunkMsg) : State :=
  pumpChunks { s with coll := { s.coll with outbox := s.coll.outbox ++ (chunkPackets m).map (fun d => { q := q, idx := idx, dev := dev, data := d }) } }

/-- The device of a group position. -/
def devAt (r : CollRun) (p : Nat) : Nat := (r.devs[p]?).getD 0

/-- A chunk sent from position a to position b travels in the − direction (R283). even is the deciding position. -/
def goesMinus (R a b decider : Nat) : Bool :=
  let d := (b + R - a % R) % R
  if 2 * d < R then false else if R < 2 * d then true else decider % 2 == 1

/-- The next position in a direction. -/
def nextPos (R p : Nat) (minus : Bool) : Nat := if minus then (p + R - 1) % R else (p + 1) % R

/-- A message of a running command, about a chunk. -/
def msgOf (r : CollRun) (msg key : Nat) : ChunkMsg :=
  { src := 0, msg := msg, k5 := r.k5, cmdId := r.cmdId, epoch := r.epoch, opcode := r.o.op % 256, pos := r.me,
    owner := keyOwner key, step := r.o.step, chunk := keyIndex key, count := r.o.count }

/-- Code a chunk's bytes for the fabric where the command asks and the type can be coded (R281). -/
def codeChunk (s : State) (r : CollRun) (ty : Nat) (bs : List Byte) : State × Bool × List Byte :=
  match (if r.o.coded && (ty == 2 || ty == 3) && !bs.isEmpty then findCmd s r.q r.idx else none) with
  | none => (s, false, bs)
  | some e =>
    match e.held with
    | none => (s, false, bs)
    | some (n, gen) =>
      match (cbzSlot s n).lengths gen with
      | none => (s, false, bs)
      | some t =>
        let xs := elems16 bs
        let blks := (chunksOf 2048 xs.length xs).map (encodeL1 t (if ty = 2 then 0x17 else 0x14) n gen)
        (blks.foldl (fun s b => countEncoded s b.2) s, true, blks.flatMap (·.1))

/-- Decode a coded chunk of n elements (R281): none where a block fails a check. -/
def decodeChunk (s : State) (fmt : Nat) : Nat → Nat → List Byte → Option (List Nat)
  | 0, n, _ => if n = 0 then some [] else none
  | k + 1, n, bs =>
    if n = 0 then some []
    else match checkHead bs fmt (min n 2048) with
      | .error _ => none
      | .ok h =>
        match decodeL1 s h (bytesAt bs 0 (blockSize h)) with
        | .error _ => none
        | .ok xs => (decodeChunk s fmt k (n - xs.length) (bs.drop (blockSize h))).map (xs ++ ·)

/-- The bytes of an arrived chunk of n bytes, where it passes its check (R287, R288). -/
def chunkData (s : State) (m : ChunkMsg) (ty n : Nat) (x : Meet) : Option (List Byte) :=
  if x.bad then none
  else
    let bs := if m.coded then (decodeChunk s (if ty = 2 then 0x17 else 0x14) (n / 2 + 1) (n / 2) m.data).map (·.flatMap (natLe 2))
      else if n ≤ m.data.length then some (m.data.take n) else none
    match bs with
    | some bs => if crc32c bs = m.crc then some bs else none
    | none => none

/-- Send a CONTRIB of a chunk to its owner: its data, check, flag and norm (R282, R283, R287, R293, R294). -/
def sendContrib (s : State) (r : CollRun) (key : Nat) (bs : List Byte) (ovf : Bool) : State :=
  let (s, coded, data) := codeChunk s r r.o.ity bs
  let minus := r.o.axis != 0 && goesMinus r.o.size r.me (keyOwner key) r.me
  let m : ChunkMsg := { msgOf r 1 key with
    ovf := ovf, coded := coded, minus := minus, crc := crc32c bs,
    sqnorm := if r.o.stats then e32 (addSquares fpZero (typeElems r.o.ity bs)) else 0, data := data }
  let hop := if r.o.axis = 0 then keyOwner key else nextPos r.o.size r.me minus
  sendChunk (noteOvf s r.q r.idx r.o.step ovf) r.q r.idx (devAt r hop) m

/-- The RESULT message of a formed chunk. -/
def resultMsg (r : CollRun) (key : Nat) (bs : List Byte) (ovf coded minus : Bool) (data : List Byte) : ChunkMsg :=
  { msgOf r 2 key with ovf := ovf, coded := coded, minus := minus, crc := crc32c bs, data := data }

/-- The output type a formed chunk has. -/
def formedType (o : CollOp) : Nat := if o.reduces then o.oty else o.ity

/-- Send a RESULT to its receivers: straight in a heat, once in each direction of a ring that has receivers (R282,
R283). -/
def sendResult (s : State) (r : CollRun) (key : Nat) (bs : List Byte) (ovf : Bool) (tos : List Nat) : State :=
  if tos.isEmpty then s
  else
    let (s, coded, data) := codeChunk s r (formedType r.o) bs
    let s := noteOvf s r.q r.idx r.o.step ovf
    if r.o.axis = 0 then
      tos.foldl (fun s p => sendChunk s r.q r.idx (devAt r p) (resultMsg r key bs ovf coded false data)) s
    else
      [false, true].foldl (fun s minus =>
        if tos.any (fun p => goesMinus r.o.size r.me p r.me == minus) then
          sendChunk s r.q r.idx (devAt r (nextPos r.o.size r.me minus)) (resultMsg r key bs ovf coded minus data)
        else s) s

/-- Send a message without data straight to a position. -/
def sendPlain (s : State) (r : CollRun) (msg key p : Nat) : State := sendChunk s r.q r.idx (devAt r p) (msgOf r msg key)

/-! ### Ends of commands (R289, R290, R297, R299) -/

def evChunkReplayed : Ev := ⟨0x4802, 2⟩
def evChunkStale : Ev := ⟨0x4803, 2⟩
def evEpochAbandoned : Ev := ⟨0x4804, 3⟩
def evA2aDropped : Ev := ⟨0x4805, 2⟩
def evChunkMismatch : Ev := ⟨0x4806, 2⟩

/-- S and T of R294 over the owned chunks. -/
def statSums (r : CollRun) : Word × Word :=
  let cs := (ownedKeys r).map (chunkOf r)
  (e32 (cs.foldl (fun a c => (c.contribs.foldl (fun a x => add48 a (v32 x.sqnorm)) a)) fpZero),
    e32 (cs.foldl (fun a c => addSquares a (typeElems r.o.oty c.out)) fpZero))

/-- The result bytes of R299. -/
def collResult (r : CollRun) : List Byte :=
  let flags := natLe 1 (b2n r.ovf + 2 * b2n r.replayed + 4 * b2n r.o.coded) ++ [0]
  if r.o.reduces then
    let (S, T) := if r.o.stats then statSums r else (0, 0)
    natLe 4 S.toNat ++ natLe 4 T.toNat ++ natLe 2 (min 0xFFFF (ownedKeys r).length) ++ flags
  else if r.o.exchanges then
    natLe 4 (min r.dropped (2 ^ 32 - 1)) ++ natLe 4 (min ((r.received.map (·.2)).foldl (· + ·) 0) (2 ^ 32 - 1)) ++ natLe 2 r.dropDests ++ flags
  else natLe 4 0 ++ natLe 4 0 ++ natLe 2 (min 0xFFFF ((receivedKeys r).filter (fun k => (chunkOf r k).got)).length) ++ flags

/-- Take a running command out of the engine: the last 64 are remembered (R395), its landing shows its end (R292). -/
def leaveEngine (s : State) (r : CollRun) (ok : Bool) : State :=
  let s := { s with coll := { s.coll with
    running := s.coll.running.filter (fun x => !(x.q == r.q && x.idx == r.idx)),
    ended := (s.coll.ended ++ [(r.cmdId, r.o.step, r.epoch)]).drop (s.coll.ended.length - 63) } }
  if r.o.landing then (if ok then setLanding s r.o.lnum { landing s r.o.lnum with state := 2 } else failLanding s r.o.lnum) else s

/-- End a collective with a status and a detail. -/
def endColl (s : State) (q idx status detail : Nat) : State :=
  match findRun s q idx with
  | none => s
  | some r => endCmd (leaveEngine s r (status == 0)) q idx status detail (collResult r)

/-- A chunk has settled at this member: confirmed, void or abandoned. -/
def settledChunk (c : ChunkSt) (mine : Bool) : Bool := c.void != 0 || c.abandoned || (c.settled && (mine || c.got))

/-- A contribution of a command is on its way: a packet of it waits or is not acknowledged, the owner asked for it later, or
it was not delivered. -/
def contribOpen (s : State) (r : CollRun) (key : Nat) : Bool :=
  s.coll.outbox.any (fun x => x.q == r.q && x.idx == r.idx && contribKey x.data == some key)
    || s.fab.txns.any (fun t => t.who == .chunk r.q r.idx && contribKey t.pkt.data == some key)
    || r.laters.any (fun l => l.1 == key) || r.undelivered.contains key

/-- The chunks of a command not settled here: owned and received ones, and those of a reduce-scatter whose contribution is on
its way. -/
def unsettled (s : State) (r : CollRun) : List Nat :=
  (ownedKeys r).filter (fun k => !settledChunk (chunkOf r k) true)
    ++ (receivedKeys r).filter (fun k => !settledChunk (chunkOf r k) false)
    ++ (contributedKeys r).filter (fun k => (chunkOf r k).void == 0 && !(chunkOf r k).abandoned && contribOpen s r k)

/-- End with EPOCH_ABANDONED (R296, R297). -/
def abandonColl (s : State) (q idx n : Nat) : State :=
  match findRun s q idx with
  | none => s
  | some r =>
    endColl (raiseEv s pgCOL evEpochAbandoned [r.cmdId, r.o.step, r.epoch, n]) q idx stEpochAbandoned (min n 0xFFFF)

/-- Received counts of an all-to-all are written when it ends well (R295). -/
def writeCounts (s : State) (r : CollRun) : State :=
  if !r.o.exchanges then s
  else (memWrite s [] r.o.recvAddr ((List.range r.o.size).flatMap (fun i => natLe 4 (tget (fun _ => 0) r.received i))) .network none).1

/-- End a command whose chunks have all settled and whose writes are acknowledged (R118, R289, R290, R297). -/
def settleColl (s : State) (q idx : Nat) : State :=
  match findRun s q idx with
  | none => s
  | some r =>
    let keys := ownedKeys r ++ receivedKeys r ++ contributedKeys r
    if !(unsettled s r).isEmpty then s
    else
      let gone := (keys.filter (fun k => (chunkOf r k).abandoned)).length
      if 0 < gone then abandonColl s q idx gone
      else if r.reason ≠ 0 then endColl s q idx stCollVoid r.reason
      else if r.laters.isEmpty && !s.coll.outbox.any (fun x => x.q == q && x.idx == idx)
          && !s.fab.txns.any (fun t => t.who == .chunk q idx) then
        endColl (writeCounts s r) q idx stOK 0
      else s

/-- A chunk becomes void at this member (R290): the event once, the landing chunk unusable, and the first reason kept. -/
def voidChunk (s : State) (q idx key reason : Nat) : State :=
  match findRun s q idx with
  | none => s
  | some r =>
    if (chunkOf r key).void ≠ 0 then s
    else
      let s := onChunk s q idx key (fun c => { c with void := reason })
      let s := onRun s q idx (fun r => { r with reason := if r.reason = 0 then reason else r.reason })
      let s := raiseEv (satF s COL_COUNT_voids 1) pgCOL evReductionVoid [r.o.step, keyIndex key, r.epoch]
      if r.o.landing then voidLandingChunk s r.o.lnum (keyIndex key) else s

/-- The owner declares a chunk void and tells every other member (R290, step 1). -/
def declareVoid (s : State) (q idx key reason : Nat) : State :=
  match findRun s q idx with
  | none => s
  | some r =>
    let s := ((List.range r.o.size).filter (· != r.me)).foldl
      (fun s p => sendChunk s q idx (devAt r p) { msgOf r 6 key with data := natLe 1 reason }) s
    settleColl (voidChunk s q idx key reason) q idx

/-! ### Forming (R284-R286, R289) -/

/-- A chunk of a landing is usable. -/
def markUsable (s : State) (r : CollRun) (key : Nat) : State :=
  if r.o.landing then
    let ld := landing s r.o.lnum
    if ld.usable.contains (keyIndex key) then s else setLanding s r.o.lnum { ld with usable := ld.usable ++ [keyIndex key] }
  else s

/-- The owner has a chunk's bytes: they are written to its destination, the CRC kept and written, and the RESULT sent. -/
def chunkFormed (s : State) (q idx key : Nat) (bs : List Byte) (ovf : Bool) (x : Meet) : State :=
  match findRun s q idx with
  | none => s
  | some r =>
    let w := if r.o.exchanges || bs.isEmpty then (s, true) else if x.writeFails then (s, false) else memWrite s x.hits (destOf r key) bs .network none
    match w with
    | (s, false) => declareVoid s q idx key 3
    | (s, true) =>
      let crc := crc32c bs
      let tos := receiversOf r.o key
      let s := onChunk s q idx key (fun c => { c with
        formed := true, len := bs.length, crc := crc, ovf := ovf, out := if r.o.stats then bs else [], settled := tos.isEmpty })
      let s := if r.o.reduces && r.o.auxAddr != 0 then (memWrite s [] (r.o.auxAddr + 4 * placeIn r.o key) (natLe 4 crc) .network none).1 else s
      let s := noteOvf (markUsable s r key) q idx r.o.step ovf
      settleColl (sendResult s r key bs ovf tos) q idx

/-- The owner sums a chunk once every contribution is in (R284). -/
def formChunk (s : State) (q idx key : Nat) (x : Meet) : State :=
  match findRun s q idx with
  | none => s
  | some r =>
    let c := chunkOf r key
    if c.contribs.length ≠ r.o.size ∨ c.formed ∨ c.void ≠ 0 then s
    else
      let n := if r.o.empty then 0 else r.o.placeLen (placeIn r.o key) / typeSize r.o.ity
      let bs := formBytes r.o r.k5 n (c.contribs.map (·.bytes))
      chunkFormed s q idx key bs (c.contribs.any (·.ovf) || hasNonfinite r.o.oty bs) x

/-- Put a contribution in position order. -/
def addContrib (c : Contrib) : List Contrib → List Contrib
  | [] => [c]
  | d :: t => if d.pos = c.pos then d :: t else if c.pos < d.pos then c :: d :: t else d :: addContrib c t

/-- Take a contribution; the last one forms the chunk. -/
def takeContrib (s : State) (q idx key : Nat) (c : Contrib) (x : Meet) : State :=
  let s := onChunk s q idx key (fun k => { k with contribs := addContrib c k.contribs })
  formChunk (noteOvf s q idx ((findRun s q idx).elim 0 (·.o.step)) c.ovf) q idx key x

end Sys2Proof.Machine
end

