-- ==== Sys2Proof/Machine/CollRows.lean ====
section
/-! DEFINITION. The collective rows (12_collectives R277-R298): dispatch, the arrival of each chunk message, retries, and
the fences of a hurdle. -/

namespace Sys2Proof.Machine

/-! ### Producing chunks at dispatch -/

/-- The slot's overflow flag of a step (R172, R293). -/
def slotFlag (s : State) (slot step : Nat) : Bool :=
  isSlot slot && (if step % 2 = 0 then (slotRec s slot).ovf0 else (slotRec s slot).ovf1)

/-- The ovf flag of a contribution (R293). -/
def contribOvf (s : State) (o : CollOp) (bs : List Byte) : Bool :=
  slotFlag s o.slot o.step || hasNonfinite o.ity bs || (o.fold && stepFlag s o.step)

/-- Read a source range of a running collective; a parity failure ends it (R287). -/
def collRead (s : State) (q idx : Nat) (hits : List Hit) (a n : Nat) : State × Option (List Byte) :=
  if n = 0 then (s, some [])
  else match memRead s hits a n .network none with
    | (s, some bs) => (s, some bs)
    | (s, none) => (endColl s q idx stParity (parityDetail a), none)

/-- What meets the engine's own write of a chunk it forms while a row runs (R290, R392). -/
def meetOf (hits : List Hit) (lost : List Nat) (index : Nat) : Meet := { hits := hits, writeFails := lost.contains index }

/-- Contribute one chunk of a reduction; lost names the chunks whose write fails. -/
def contribute (q idx : Nat) (hits : List Hit) (lost : List Nat) (s : State) (key : Nat) : State :=
  match findRun s q idx with
  | none => s
  | some r =>
    match collRead s q idx hits (sourceOf r.o key) (if r.o.empty then 0 else r.o.placeLen (placeIn r.o key)) with
    | (s, none) => s
    | (s, some bs) =>
      let ovf := contribOvf s r.o bs
      if keyOwner key = r.me then
        let sq := if r.o.stats then e32 (addSquares fpZero (typeElems r.o.ity bs)) else 0
        takeContrib s q idx key ⟨r.me, bs, ovf, sq⟩ (meetOf hits lost (keyIndex key))
      else sendContrib s r key bs ovf

/-- Form a chunk the member only copies: its share of a gather, or the root's data. -/
def offer (q idx : Nat) (hits : List Hit) (lost : List Nat) (s : State) (key : Nat) : State :=
  match findRun s q idx with
  | none => s
  | some r =>
    match collRead s q idx hits (sourceOf r.o key) (r.o.placeLen (placeIn r.o key)) with
    | (s, none) => s
    | (s, some bs) => chunkFormed s q idx key bs false (meetOf hits lost (keyIndex key))

/-- The entries of a chunk of an all-to-all that are present, in bytes (R295). -/
def presentLen (o : CollOp) (key n : Nat) : Nat :=
  min (o.placeLen (placeIn o key)) (min n o.count * o.aux - o.placeOff (placeIn o key))

/-- Send a chunk of an all-to-all region with n entries to send. -/
def exchange (q idx n : Nat) (hits : List Hit) (s : State) (key : Nat) : State :=
  match findRun s q idx with
  | none => s
  | some r =>
    match collRead s q idx hits (sourceOf r.o key) (presentLen r.o key n) with
    | (s, none) => s
    | (s, some bs) => chunkFormed s q idx key bs false {}

/-- One destination's region of an all-to-all (R295). -/
def exchangeTo (q idx : Nat) (hits : List Hit) (counts : List Byte) (s : State) (j : Nat) : State :=
  match findRun s q idx with
  | none => s
  | some r =>
    let n : Nat := leAt counts (4 * j) 4
    let excess := n - r.o.count
    let s := if 0 < excess then
        raiseEv (onRun s q idx (fun r => { r with dropped := r.dropped + excess, dropDests := r.dropDests + 1 })) pgCOL
          evA2aDropped [r.cmdId, j, excess]
      else s
    if j = r.me then
      let k := min n r.o.count * r.o.aux
      match collRead s q idx hits (r.o.src + j * r.o.shardBytes) k with
      | (s, none) => s
      | (s, some bs) =>
        let s := (memWrite s hits (r.o.dst + j * r.o.shardBytes) (bs ++ List.replicate (r.o.shardBytes - k) 0) .network none).1
        onRun s q idx (fun r => { r with received := tset (fun _ => 0) r.received j (min n r.o.count) })
    else ((List.range r.o.cps).map (fun i => chunkKey r.me (j * r.o.cps + i))).foldl (exchange q idx n hits) s

/-- The member's part at dispatch: all its chunks are sent at once (R282). -/
def produce (s : State) (q idx : Nat) (hits : List Hit) (lost : List Nat) : State :=
  match findRun s q idx with
  | none => s
  | some r =>
    if r.o.reduces then
      ((List.range r.o.shards).flatMap (fun j => (List.range r.o.cps).map (fun i => chunkKey j (j * r.o.cps + i)))).foldl
        (contribute q idx hits lost) s
    else if r.o.exchanges then
      match collRead s q idx hits r.o.auxAddr (4 * r.o.size) with
      | (s, none) => s
      | (s, some cs) => (List.range r.o.size).foldl (exchangeTo q idx hits cs) s
    else (ownedKeys r).foldl (offer q idx hits lost) s

/-- Arm the landing of a gather (R292). -/
def armLanding (s : State) (o : CollOp) : State :=
  if o.landing then
    setLanding s o.lnum {
      state := 1, addr := o.dst, pitch := o.aux % 65536, colsPerShare := o.colsPerShare, colsPerChunk := o.colsPerChunk,
      cps := o.cps, chunks := o.cps * o.size }
  else s

/-! ### Arrivals (R278, R281, R287-R290, R296) -/

/-- Count a chunk discarded as mismatched. -/
def mismatched (s : State) : State := satF s COL_DISCARD_mismatched 1

/-- Answer a chunk whose command is not here: LATER or STALE to the device it came from. -/
def answerChunk (s : State) (m : ChunkMsg) (msg : Nat) : State :=
  sendChunk s 64 0 m.src { m with msg := msg, coded := false, crc := 0, sqnorm := 0, data := [] }

/-- Hold a chunk in staging, or answer LATER where 256 are held (R296); bad says that a word of it failed (R393). -/
def holdChunk (s : State) (m : ChunkMsg) (bad : Bool) : State :=
  if m.msg = 7 ∨ m.msg = 8 then mismatched s
  else if s.coll.held.length < 256 then { s with coll := { s.coll with held := s.coll.held ++ [(m, bad)] } }
  else answerChunk (satF s COL_LATER_later_sent 1) m 7

/-- Pass a chunk on to the next position of a ring, in its direction (R283); its ovf is one the engine received and sends
(R293). -/
def forwardChunk (s : State) (r : CollRun) (m : ChunkMsg) : State :=
  sendChunk (noteOvf s r.q r.idx r.o.step m.ovf) r.q r.idx (devAt r (nextPos r.o.size r.me m.minus)) m

/-- A CONTRIB arrives (R287). -/
def onContrib (s : State) (r : CollRun) (m : ChunkMsg) (x : Meet) : State :=
  let key := chunkKey m.owner m.chunk
  if m.owner ≠ r.me then (if r.o.axis = 0 then mismatched s else forwardChunk s r m)
  else
    let c := chunkOf r key
    if !r.o.reduces then mismatched s
    else if c.formed ∨ c.void ≠ 0 ∨ c.contribs.any (fun y => y.pos == m.pos) then s
    else match chunkData s m r.o.ity (if r.o.empty then 0 else r.o.placeLen (placeIn r.o key)) x with
      | some bs =>
        let s := if m.coded then satF s CBZ_BLOCKS_DEC_count (ceilDiv bs.length 4096) else s
        takeContrib s r.q r.idx key ⟨m.pos, bs, m.ovf, m.sqnorm⟩ x
      | none =>
        let n := tget (fun _ => 0) c.fails m.pos + 1
        let s := onChunk s r.q r.idx key (fun c => { c with fails := tset (fun _ => 0) c.fails m.pos n })
        let s := onRun s r.q r.idx (fun r => { r with replayed := true })
        if n = 3 then declareVoid s r.q r.idx key 4 else sendPlain s r 4 key m.pos

/-- The decoded bytes a run of coded blocks declares. -/
def codedLen : Nat → List Byte → Nat
  | 0, _ => 0
  | k + 1, bs => if bs.length < 16 then 0 else 2 * (headOf bs).count + codedLen k (bs.drop (max 64 (blockSize (headOf bs))))

/-- The bytes a receiver expects of a RESULT: a chunk of an all-to-all brings as many entries as were present. -/
def expectedLen (r : CollRun) (m : ChunkMsg) (key : Nat) : Nat :=
  if !r.o.exchanges then outLen r.o key
  else if m.coded then codedLen (m.data.length / 64 + 1) m.data
  else min m.data.length (r.o.placeLen (placeIn r.o key))

/-- A receiver keeps a chunk that passed: written, usable, acknowledged (R288). -/
def keepResult (s : State) (r : CollRun) (m : ChunkMsg) (key : Nat) (bs : List Byte) (hits : List Hit) : State × Bool :=
  let full := if r.o.exchanges then bs ++ List.replicate (r.o.placeLen (placeIn r.o key) - bs.length) 0 else bs
  match (if full.isEmpty then (s, true) else memWrite s hits (destOf r key) full .network none) with
  | (s, false) => (s, false)
  | (s, true) =>
    let s := if m.coded then satF s CBZ_BLOCKS_DEC_count (ceilDiv bs.length 4096) else s
    let s := onChunk (markUsable s r key) r.q r.idx key (fun c => { c with got := true })
    let s := if r.o.exchanges then
        let n := tget (fun _ => 0) r.received m.owner + bs.length / max 1 r.o.aux
        onRun s r.q r.idx (fun r => { r with received := tset (fun _ => 0) r.received m.owner n })
      else s
    (sendPlain (noteOvf s r.q r.idx r.o.step m.ovf) r 3 key m.owner, true)

/-- A RESULT arrives (R283, R288). -/
def onResult (s : State) (r : CollRun) (m : ChunkMsg) (x : Meet) : State :=
  let key := chunkKey m.owner m.chunk
  let tos := receiversOf r.o key
  let next := nextPos r.o.size r.me m.minus
  let s := if r.o.axis ≠ 0 ∧ tos.contains next ∧ next ≠ m.owner ∧ goesMinus r.o.size m.owner next m.owner = m.minus
      ∧ (!r.o.exchanges ∨ !tos.contains r.me) then forwardChunk s r m
    else if r.o.axis ≠ 0 ∧ r.o.exchanges ∧ !tos.contains r.me then forwardChunk s r m else s
  if !tos.contains r.me then (if r.o.axis = 0 then mismatched s else s)
  else
    let c := chunkOf r key
    if c.got ∨ c.void ≠ 0 then s
    else
      let n := expectedLen r m key
      let fail := fun (s : State) =>
        sendPlain (onRun s r.q r.idx (fun r => { r with replayed := true })) r 4 key m.owner
      match chunkData s m (formedType r.o) n x with
      | none => fail (if m.coded ∨ x.bad ∨ n = 0 then s else (memWrite s x.hits (destOf r key) (bytesAt m.data 0 n) .network none).1)
      | some bs =>
        if x.writeFails then fail s
        else match keepResult s r m key bs x.hits with
          | (s, true) => s
          | (s, false) => fail s

/-- An ACK reaches the owner, which confirms the chunk once every receiver has acknowledged it (R289). -/
def onAck (s : State) (r : CollRun) (m : ChunkMsg) : State :=
  let key := chunkKey m.owner m.chunk
  let c := chunkOf r key
  let tos := receiversOf r.o key
  if m.owner ≠ r.me then mismatched s
  else if !c.formed ∨ c.void ≠ 0 ∨ c.settled ∨ !tos.contains m.pos then s
  else
    let acks := if c.acks.contains m.pos then c.acks else c.acks ++ [m.pos]
    let s := onChunk s r.q r.idx key (fun c => { c with acks := acks })
    if tos.all acks.contains then
      let s := onChunk s r.q r.idx key (fun c => { c with settled := true })
      settleColl (tos.foldl (fun s p => sendPlain s r 5 key p) s) r.q r.idx
    else s

/-- The owner sends its retained copy again, or finds it bad (R288). -/
def resendResult (s : State) (r : CollRun) (key p : Nat) (hits : List Hit) (count : Bool) : State :=
  let c := chunkOf r key
  let a := if r.o.exchanges then sourceOf r.o key else destOf r key
  match (if c.len = 0 then (s, some []) else memRead s hits a c.len .network none) with
  | (s, none) => declareVoid s r.q r.idx key 1
  | (s, some bs) =>
    if crc32c bs ≠ c.crc then declareVoid s r.q r.idx key 1
    else
      let s := if count then
          raiseEv (satF (onRun s r.q r.idx (fun r => { r with replayed := true })) COL_COUNT_replays 1) pgCOL evChunkReplayed
            [r.cmdId, r.o.step, keyIndex key, p]
        else s
      sendResult s r key bs c.ovf [p]

/-- A NAK arrives: the owner answers a receiver, a contributor the owner (R287, R288). -/
def onNak (s : State) (r : CollRun) (m : ChunkMsg) (x : Meet) : State :=
  let key := chunkKey m.owner m.chunk
  let c := chunkOf r key
  if m.owner = r.me then
    if !c.formed ∨ c.void ≠ 0 ∨ !(receiversOf r.o key).contains m.pos then s
    else
      let n := tget (fun _ => 0) c.naks m.pos + 1
      let s := onChunk s r.q r.idx key (fun c => { c with naks := tset (fun _ => 0) c.naks m.pos n })
      if 3 ≤ n then declareVoid s r.q r.idx key 2 else resendResult s r key m.pos x.hits true
  else if r.o.reduces ∧ m.pos = m.owner then
    contribute r.q r.idx x.hits [] (satF (onRun s r.q r.idx (fun r => { r with replayed := true })) COL_COUNT_replays 1) key
  else mismatched s

/-- A CONFIRM settles a received chunk (R289). -/
def onConfirm (s : State) (r : CollRun) (m : ChunkMsg) : State :=
  let key := chunkKey m.owner m.chunk
  if m.owner = r.me then mismatched s
  else settleColl (onChunk s r.q r.idx key (fun c => { c with settled := true })) r.q r.idx

/-- A VOID ends the member's part in a chunk (R290). -/
def onVoid (s : State) (r : CollRun) (m : ChunkMsg) : State :=
  settleColl (voidChunk s r.q r.idx (chunkKey m.owner m.chunk) (max 1 (leAt m.data 0 1))) r.q r.idx

/-- A LATER answer: the sender holds the chunk for later_retry (R296). A position that only forwarded it passes the
answer on to the chunk's sender. -/
def onLater (s : State) (r : CollRun) (m : ChunkMsg) : State :=
  let key := chunkKey m.owner m.chunk
  if m.pos ≠ r.me then sendChunk s r.q r.idx (devAt r m.pos) m
  else
    let p := if r.me ≠ m.owner then m.owner
      else if r.o.axis = 0 then ((List.range r.o.size).find? (fun p => devAt r p == m.src)).getD 0
      else ((receiversOf r.o key).find? (fun p => goesMinus r.o.size r.me p r.me == m.minus)).getD 0
    onRun (satF s COL_LATER_later_received 1) r.q r.idx (fun r => { r with laters := r.laters ++ [(key, p)] })

/-- A STALE answer ends the sender's command (R296). -/
def onStale (s : State) (r : CollRun) (m : ChunkMsg) : State :=
  let key := chunkKey m.owner m.chunk
  let u := unsettled s r
  abandonColl s r.q r.idx (if u.contains key then u.length else u.length + 1)

/-- A message of a running command, by its kind. -/
def onMessage (s : State) (r : CollRun) (m : ChunkMsg) (x : Meet) : State :=
  if m.opcode ≠ r.o.op % 256 ∨ m.count ≠ r.o.count ∨ m.k5 ≠ r.k5 then
    raiseEv (mismatched s) pgCOL evChunkMismatch [m.src, m.cmdId, m.step, m.epoch, m.opcode, m.count]
  else if !chunkKeyOk r.o (chunkKey m.owner m.chunk) then mismatched s
  else match m.msg with
    | 1 => onContrib s r m x
    | 2 => onResult s r m x
    | 3 => onAck s r m
    | 4 => onNak s r m x
    | 5 => onConfirm s r m
    | 6 => onVoid s r m
    | 7 => onLater s r m
    | 8 => onStale s r m
    | _ => mismatched s

/-- The epoch the engine serves (R296): that of a hurdle from its dispatch on, for it closes the old one. -/
def engineEpoch (s : State) : Nat := getF s CMD_EPOCH_target

/-- The running command a message is of (R278). -/
def runOf (s : State) (m : ChunkMsg) : Option CollRun :=
  s.coll.running.find? (fun r => r.cmdId == m.cmdId && r.o.step == m.step && r.epoch == m.epoch)

/-- Discard a chunk of an epoch the engine has closed, and answer it STALE unless it is such an answer itself (R296). -/
def staleChunk (s : State) (m : ChunkMsg) : State :=
  let s := raiseEv (satF s COL_DISCARD_stale 1) pgCOL evChunkStale [m.src, m.cmdId, m.epoch, engineEpoch s]
  if m.msg = 7 ∨ m.msg = 8 then s else answerChunk s m 8

/-- A chunk arrives at the engine (R278, R281, R285, R296, R395). In step 2 of a hurdle a chunk of the epoch it closes is
processed where its command still runs. -/
def collArrive (s : State) (m : ChunkMsg) (x : Meet) : State :=
  if m.msg = 0 ∨ 8 < m.msg then mismatched s
  else if s.coll.ended.contains (m.cmdId, m.step, m.epoch) then mismatched s
  else match epochCmp m.epoch (engineEpoch s), runOf s m with
    | .newer, _ => holdChunk s m x.bad
    | .stale, none => staleChunk s m
    | .stale, some r => if hurdleOpen s ∧ m.epoch = getF s CMD_EPOCH_current then onMessage s r m x else staleChunk s m
    | .equal, none => holdChunk s m x.bad
    | .equal, some r => onMessage s r m x

/-- Take up the held chunks that pass a test, in order; lost names the chunks whose write fails meanwhile. -/
def takeHeld (s : State) (p : ChunkMsg × Bool → Bool) (lost : List Nat) : State :=
  let due := s.coll.held.filter p
  due.foldl (fun s h => collArrive s h.1 { meetOf [] lost h.1.chunk with bad := h.2 })
    { s with coll := { s.coll with held := s.coll.held.filter (fun h => !p h) } }

/-! ### Dispatch -/

/-- Start a collective (R277-R283, R292, R293). A block that fails parity as it is read is PARITY, as any source (R218, R287). -/
def startColl (sur : Surround) (s : State) (e : CmdEntry) : State :=
  match readBlock s sur.hits e 64 64 with
  | (s, none) => let (st, d) := blockFault e 64 64 stMalformed 16; endCmd s e.q e.idx st d []
  | (s, some b) =>
    let o := collOpOf e.opcode b
    match collCheck s b o with
    | .error r => endCmd s e.q e.idx r.1 r.2 []
    | .ok (me, devs) =>
      let gen := (cbzSlot s o.codec).curGen
      let s := if o.coded then takeRef s o.codec gen else s
      let s := putCmd s { e with
        stage := .running, held := (if o.coded then some (o.codec, gen) else none), dest := [(o.dst, o.destBytes)] }
      let r : CollRun := { q := e.q, idx := e.idx, cmdId := e.cmdId, epoch := e.epoch, o := o, me := me, devs := devs, k5 := k5Job s }
      let s := armLanding (openStep { s with coll := { s.coll with running := s.coll.running ++ [r] } } o.step) o
      let s := settleColl (produce s e.q e.idx sur.hits sur.lostChunks) e.q e.idx
      takeHeld s (fun h => h.1.cmdId == e.cmdId && h.1.step == o.step && h.1.epoch == e.epoch) sur.lostChunks

/-- A row of a collective: the engine runs up to 16 commands at once, and a further one waits (unitsOk). -/
def collRow (op q idx : Nat) (sur : Surround) (s : State) : Host.Outcome State Fault Refusal :=
  onInstance (isQueue q) (onDispatch s q idx (fun e => e.opcode == op) sur (onStages pgCOL sur (startColl sur)))

/-- COLL_REDUCE_SCATTER (R284). -/
def execCollReduceScatter (q idx : Nat) (sur : Surround) (s : State) : Host.Outcome State Fault Refusal := collRow 0x0301 q idx sur s
/-- COLL_ALL_GATHER (R291). -/
def execCollAllGather (q idx : Nat) (sur : Surround) (s : State) : Host.Outcome State Fault Refusal := collRow 0x0302 q idx sur s
/-- COLL_ALL_REDUCE (R289). -/
def execCollAllReduce (q idx : Nat) (sur : Surround) (s : State) : Host.Outcome State Fault Refusal := collRow 0x0303 q idx sur s
/-- COLL_BROADCAST (R279). -/
def execCollBroadcast (q idx : Nat) (sur : Surround) (s : State) : Host.Outcome State Fault Refusal := collRow 0x0304 q idx sur s
/-- COLL_ALL_TO_ALL (R295). -/
def execCollAllToAll (q idx : Nat) (sur : Surround) (s : State) : Host.Outcome State Fault Refusal := collRow 0x0305 q idx sur s

/-! ### Chunk rows -/

/-- A staged VC1 packet is of this message (R281). -/
def ofMessage (m : ChunkMsg) (p : Packet) : Bool :=
  p.src == m.src && leAt p.data 0 1 == m.msg && leAt p.data 2 2 == m.cmdId && leAt p.data 4 2 == m.epoch
    && leAt p.data 7 1 == m.pos % 16 + 16 * (m.owner % 16) && leAt p.data 8 4 == m.step && leAt p.data 12 4 == m.chunk

/-- A chunk message of one kind arrives whole: its packets leave the staging. -/
def chunkRow (msg : Nat) (m : ChunkMsg) (x : Meet) (s : State) : Host.Outcome State Fault Refusal :=
  .next (whileRunning s (if m.msg = msg then
    collArrive { s with coll := { s.coll with staged := s.coll.staged.filter (fun p => !ofMessage m p) } } m x
  else s))

def execChunkContrib (m : ChunkMsg) (x : Meet) (s : State) : Host.Outcome State Fault Refusal := chunkRow 1 m x s
def execChunkResult (m : ChunkMsg) (x : Meet) (s : State) : Host.Outcome State Fault Refusal := chunkRow 2 m x s
def execChunkAck (m : ChunkMsg) (x : Meet) (s : State) : Host.Outcome State Fault Refusal := chunkRow 3 m x s
def execChunkNak (m : ChunkMsg) (x : Meet) (s : State) : Host.Outcome State Fault Refusal := chunkRow 4 m x s
def execChunkConfirm (m : ChunkMsg) (x : Meet) (s : State) : Host.Outcome State Fault Refusal := chunkRow 5 m x s
def execChunkVoid (m : ChunkMsg) (x : Meet) (s : State) : Host.Outcome State Fault Refusal := chunkRow 6 m x s
def execChunkLater (m : ChunkMsg) (x : Meet) (s : State) : Host.Outcome State Fault Refusal := chunkRow 7 m x s
def execChunkStale (m : ChunkMsg) (x : Meet) (s : State) : Host.Outcome State Fault Refusal := chunkRow 8 m x s

/-- A chunk answered LATER is sent again (R296). -/
def laterRetry (s : State) (q idx : Nat) (x : Meet) : State :=
  match findRun s q idx with
  | none => s
  | some r =>
    match r.laters with
    | [] => s
    | (key, p) :: rest =>
      let s := onRun s q idx (fun r => { r with laters := rest })
      if keyOwner key ≠ r.me then contribute q idx x.hits [] s key
      else if (chunkOf r key).void ≠ 0 then sendChunk s q idx (devAt r p) { msgOf r 6 key with data := natLe 1 (chunkOf r key).void }
      else if (chunkOf r key).formed then resendResult s r key p x.hits false else s

/-- LATER_RETRY_EXPIRY (R296). -/
def execLaterRetryExpiry (q idx : Nat) (x : Meet) (s : State) : Host.Outcome State Fault Refusal :=
  onInstance (isQueue q) (whileRunning s (laterRetry s q idx x))

/-! ### Hurdles and timeouts (R297, R300) -/

/-- Abandon the chunks of a running collective that are not settled, or are another owner's, and pass a test, and end it
where that settles it. -/
def abandonChunks (s : State) (q idx : Nat) (p : CollRun → Nat → Bool) : State :=
  match findRun s q idx with
  | none => s
  | some r =>
    let open' := unsettled s r
    let keys := (open' ++ (contributedKeys r).filter (fun k => !open'.contains k)).filter (p r)
    settleColl (keys.foldl (fun s k => onChunk s q idx k (fun c => { c with abandoned := true })) s) q idx

/-- A chunk's owner, or a contributor it still needs, is unreachable (R297). -/
def needsLost (s : State) (r : CollRun) (key : Nat) : Bool :=
  let gone := fun p => p != r.me && (routeTo s (devAt r p)).isNone
  gone (keyOwner key) || (keyOwner key == r.me && r.o.reduces && !(chunkOf r key).formed
    && (List.range r.o.size).any (fun p => gone p && !(chunkOf r key).contribs.any (fun c => c.pos == p)))

/-- While a hurdle closes old-epoch work, chunks that lost their owner or a contributor are abandoned. -/
def abandonLost (s : State) : State :=
  if !hurdleOpen s then s
  else s.coll.running.foldl (fun s r => abandonChunks s r.q r.idx (needsLost s)) s

/-- HURDLE_WAIT_EXPIRY (R297): hurdle_wait has passed since step 1 of the hurdle named. -/
def execHurdleWaitExpiry (q idx : Nat) (s : State) : Host.Outcome State Fault Refusal :=
  onInstance (isQueue q) (if s.cmds.hurdle = some (q, idx) ∧ hurdleOpen s then
    s.coll.running.foldl (fun s r => abandonChunks s r.q r.idx (fun r k => (unsettled s r).contains k)) s else s)

/-- The lowest group position whose part is missing (R300). -/
def missingPos (s : State) (r : CollRun) : Nat :=
  let own := (ownedKeys r).filter (fun k => !settledChunk (chunkOf r k) true)
  let recv := (receivedKeys r).filter (fun k => !settledChunk (chunkOf r k) false)
  ((List.range r.o.size).find? (fun p =>
    recv.any (fun k => keyOwner k == p)
      || (contributedKeys r).any (fun k => keyOwner k == p && contribOpen s r k)
      || own.any (fun k => let c := chunkOf r k
        if c.formed then (receiversOf r.o k).contains p && !c.acks.contains p
        else r.o.reduces && !c.contribs.any (fun x => x.pos == p)))).getD 0

/-- A collective's timeout expires (R14, R300). -/
def timeoutColl (s : State) (q idx : Nat) : State :=
  match findRun s q idx with
  | none => s
  | some r => endColl s q idx stCollFailed (missingPos s r)

end Sys2Proof.Machine
end

