-- ==== Sys2Proof/Machine/Keeper.lean ====
section
/-! DEFINITION. The ring keepers' drives and the state of an insertion on an axis (02_module R52, R54; 11_stadium_fabric
R275). -/

namespace Sys2Proof.Machine

def evReleaseDone : Ev := ⟨0x5007, 1⟩

/-- The fields of an axis. -/
def allowF (axisY : Bool) : Fld := if axisY then FAB_KEEP_allow_y else FAB_KEEP_allow_x
def holdF (axisY : Bool) : Fld := if axisY then FAB_KEEP_hold_y else FAB_KEEP_hold_x
def insertF (axisY : Bool) : Fld := if axisY then FAB_INSERT_state_y else FAB_INSERT_state_x

/-- The lower port of an axis: 16 or 18. -/
def axisPort (axisY : Bool) : Nat := if axisY then 18 else 16

/-- The drive's level changes now: high, only while allow is 1, makes the axis held, low ends its release (R52, R275). -/
def applyKeeper (s : State) (axisY level : Bool) : State :=
  let i := insertSt s axisY
  if level && !isSet s (allowF axisY) then setInsert s axisY { i with wanted := none }
  else
  let s := driveKeeper s axisY level
  let s := setInsert s axisY { i with levelHeld := false, wanted := none }
  if level then setF s (insertF axisY) 2
  else raiseEv (setF (setInsert s axisY { levelHeld := false }) (insertF axisY) 0) pgFAB evReleaseDone [b2n axisY, 0]

/-- Ask for a level: it is taken at once where the present one has stood for 10 ms, else when it has (R52). -/
def wantKeeper (s : State) (axisY level : Bool) : State :=
  let i := insertSt s axisY
  if isSet s (holdF axisY) = level then setInsert s axisY { i with wanted := none }
  else if i.levelHeld then applyKeeper s axisY level
  else setInsert s axisY { i with wanted := some level }

/-- KEEPER_LEVEL_HOLD_EXPIRY (R52): the present level has stood for 10 ms. -/
def keeperHoldExpiry (s : State) (axisY : Bool) : State :=
  let i := insertSt s axisY
  let s := setInsert s axisY { i with levelHeld := true }
  match i.wanted with
  | some level => applyKeeper s axisY level
  | none => s

def execKeeperLevelHoldExpiry (axisY : Bool) (s : State) : Host.Outcome State Fault Refusal :=
  .next (whileRunning s (keeperHoldExpiry s axisY))

/-- The handshake is complete (R275, step 4). -/
def completeHandshake (s : State) (axisY : Bool) : State :=
  wantKeeper (setInsert s axisY { insertSt s axisY with handshake := true }) axisY true

end Sys2Proof.Machine
end

