-- ==== Sys2Proof/Machine/VecMem.lean ====
section
/-! DEFINITION. Vector instructions that reach memory: local loads and stores in every format (08_vector R198, R199), and
remote instructions (R200, R201). -/

namespace Sys2Proof.Machine

/-! ### Local memory (R198) -/

/-- A local range an instruction may reach, aligned to its element size. -/
def localOk (a n al : Nat) : Bool := inMemory a n && a % al == 0

/-- A read of a program on lane l: its replays raise lane.vector.replayed (R210). -/
def vecRead (s : State) (l : Nat) (ln : LaneSt) (hits : List Hit) (a n : Nat) : State × Option (List Byte) :=
  let r := memRead s hits a n (.lane l) ln.vecRun
  (vecReplays 2 s r.1 l, r.2)

/-- The address sbase + offset. -/
def mwAddr (ln : LaneSt) (w : Nat) : Nat := (sreg ln (mwSbase w) + mwOffset w).toNat

/-- Bytes of one element in memory (R198). -/
def elemSize (f : Nat) : Nat := if f = 6 then 4 else if f = 4 ∨ f = 7 then 2 else 1

/-- Bytes of a register's codes in memory. -/
def codesSize (f : Nat) : Nat := if isBS f then codeArea f 64 else 64 * elemSize f

/-- The bytes at saux that a format needs: the two shift bytes, or the shift in the tensor header (R198). -/
def auxRange (ln : LaneSt) (w : Nat) : Option (Nat × Nat) :=
  let f := mwFmt w
  let a := (sreg ln (mwSaux w)).toNat
  if isBS f then some (a, 2) else if hasHeader f then some (a + 1, 1) else none

/-- The value of a loaded element as binary32, with its sticky flags. -/
def loadWord (v : Fp) : Word × Nat := (e32 v, if v.isFin && nonFinite32 (e32 v) then stkOverflow else 0)

/-- Read what a format keeps at saux. -/
def readAux (s : State) (l : Nat) (ln : LaneSt) (hits : List Hit) (w : Nat) : State × Option (List Byte) :=
  match auxRange ln w with
  | none => (s, some [])
  | some (a, n) => vecRead s l ln hits a n

/-- An access's ranges are ones it may reach. -/
def accessOk (ln : LaneSt) (w : Nat) : Bool :=
  localOk (mwAddr ln w) (codesSize (mwFmt w)) (elemSize (mwFmt w))
    && (match auxRange ln w with | none => true | some (a, n) => localOk a n 1)

/-- vld (R198). -/
def vldBody (hits : List Hit) (s : State) (l : Nat) (ln : LaneSt) (w : Nat) : VOut :=
  let f := mwFmt w
  if !accessOk ln w then .fault s stMalformed 10
  else match vecRead s l ln hits (mwAddr ln w) (codesSize f) with
    | (s, none) => .fault s stParity 6
    | (s, some bs) =>
      match readAux s l ln hits w with
      | (s, none) => .fault s stParity 6
      | (s, some aux) =>
        let row := if isBS f then bs ++ aux else bs
        let sh := signed 8 (leAt aux 0 1)
        let rs := (maskList (maskOf ln w)).map (fun i => (i,
          if f = 6 then (BitVec.ofNat 32 (leAt bs (4 * i) 4), 0) else loadWord (elemAt f 64 sh row i)))
        let ln := rs.foldl (fun a r => setVreg a (mwV w) r.1 r.2.1) (lane s l)
        .next (setLane s l (stick ln (rs.foldl (fun t r => t ||| r.2.2) 0)))

/-- One stored element of a format without blocks: its bytes and sticky flags (R163, R164, R182, R198). -/
def storeElem (f : Nat) (sh : Int) (x : Word) : List Byte × Nat :=
  if f = 6 then (natLe 4 x.toNat, 0)
  else if f = 4 ∨ f = 7 then
    let fm := if f = 4 then bf16 else f16
    let p := fpEncode fm (v32 x)
    (natLe 2 p, if (v32 x).isFin && !(fpDecode fm p).isFin then stkOverflow else 0)
  else
    let o := encodeRow f (some sh) [v32 x]
    (bytesAt o.bytes 0 1, (if 0 < o.sat then stkSaturated else 0) + (if 0 < o.nonfinite then stkNonfinite else 0))

/-- Write bytes for a program on lane l; a partial word of a damaged line is a parity failure (R228), and a replay of one
raises lane.vector.replayed (R210). -/
def vecWrite (s : State) (l : Nat) (ln : LaneSt) (hits : List Hit) (a : Nat) (bs : List Byte) : State × Bool :=
  let r := memWrite s hits a bs (.lane l) ln.vecRun
  (vecReplays 2 s r.1 l, r.2)

/-- vst (R198): block formats store whole blocks; the others store the selected elements and leave the other bytes. -/
def vstBody (hits : List Hit) (s : State) (l : Nat) (ln : LaneSt) (w : Nat) : VOut :=
  let f := mwFmt w
  let a := mwAddr ln w
  if !accessOk ln w then .fault s stMalformed 10
  else if isBS f then
    let o := encodeRow f none ((List.range 64).map (fun i => v32 (vreg ln (mwV w) i)))
    let n := codeArea f 64
    match vecWrite s l ln hits a (bytesAt o.bytes 0 n) with
    | (s, false) => .fault s stParity 6
    | (s, true) =>
      match vecWrite s l ln hits (sreg ln (mwSaux w)).toNat (bytesAt o.bytes n 2) with
      | (s, false) => .fault s stParity 6
      | (s, true) => .next (setLane s l (stick (lane s l) (if 0 < o.nonfinite then stkNonfinite else 0)))
  else match readAux s l ln hits w with
    | (s, none) => .fault s stParity 6
    | (s, some aux) =>
      let sh := signed 8 (leAt aux 0 1)
      let es := (maskList (maskOf ln w)).map (fun i => (i, storeElem f sh (vreg ln (mwV w) i)))
      let r := if es.length = 64 then vecWrite s l ln hits a (es.flatMap (fun e => e.2.1))
        else es.foldl (fun st e => match vecWrite st.1 l ln hits (a + elemSize f * e.1) e.2.1 with | (s, ok) => (s, st.2 && ok)) (s, true)
      match r with
      | (s, false) => .fault s stParity 6
      | (s, true) => .next (setLane s l (stick (lane s l) (es.foldl (fun t e => t ||| e.2.2) 0)))

/-- VEC_VLD (R198). -/
def execVecVld (l : Nat) (sur : Surround) (s : State) : Host.Outcome State Fault Refusal :=
  vecRow l s (vecStep (isOp 0x60) (vldBody sur.hits) l sur s)

/-- VEC_VST (R198). -/
def execVecVst (l : Nat) (sur : Surround) (s : State) : Host.Outcome State Fault Refusal :=
  vecRow l s (vecStep (isOp 0x61) (vstBody sur.hits) l sur s)

/-- The address of element i of a gather or scatter (R193). -/
def indexAddr (ln : LaneSt) (w i : Nat) : Nat := (mwAddr ln w + 4 * (vreg ln (mwVx w) i).toNat) % 2 ^ 64

/-- vgath (R193). -/
def vgathBody (hits : List Hit) (s : State) (l : Nat) (ln : LaneSt) (w : Nat) : VOut :=
  let els := maskList (maskOf ln w)
  if els.any (fun i => !localOk (indexAddr ln w i) 4 4) then .fault s stMalformed 10
  else
    let r := els.foldl (fun (st : State × Option LaneSt) i => match st with
      | (s, none) => (s, none)
      | (s, some a) => match vecRead s l ln hits (indexAddr ln w i) 4 with
        | (s, some bs) => (s, some (setVreg a (mwV w) i (BitVec.ofNat 32 (leNat bs))))
        | (s, none) => (s, none)) (s, some ln)
    match r with
    | (s, none) => .fault s stParity 6
    | (s, some a) => .next (setLane s l { lane s l with v := a.v })

/-- vscat (R193): elements in ascending order. -/
def vscatBody (hits : List Hit) (s : State) (l : Nat) (ln : LaneSt) (w : Nat) : VOut :=
  let els := maskList (maskOf ln w)
  if els.any (fun i => !localOk (indexAddr ln w i) 4 4) then .fault s stMalformed 10
  else .next (els.foldl (fun s i => (vecWrite s l ln hits (indexAddr ln w i) (natLe 4 (vreg ln (mwV w) i).toNat)).1) s)

/-- VEC_VGATH (R193). -/
def execVecVgath (l : Nat) (sur : Surround) (s : State) : Host.Outcome State Fault Refusal :=
  vecRow l s (vecStep (isOp 0x62) (vgathBody sur.hits) l sur s)

/-- VEC_VSCAT (R193). -/
def execVecVscat (l : Nat) (sur : Surround) (s : State) : Host.Outcome State Fault Refusal :=
  vecRow l s (vecStep (isOp 0x63) (vscatBody sur.hits) l sur s)

/-- VEC_SLD (R198). -/
def execVecSld (l : Nat) (sur : Surround) (s : State) : Host.Outcome State Fault Refusal :=
  vecRow l s (vecStep (isOp 0x64) (fun s l ln w =>
    if !localOk (mwAddr ln w) 8 8 then .fault s stMalformed 10
    else match vecRead s l ln sur.hits (mwAddr ln w) 8 with
      | (s, none) => .fault s stParity 6
      | (s, some bs) => .next (setLane s l (setSreg (lane s l) (mwV w % 16) (BitVec.ofNat 64 (leNat bs))))) l sur s)

/-- VEC_SST (R198). -/
def execVecSst (l : Nat) (sur : Surround) (s : State) : Host.Outcome State Fault Refusal :=
  vecRow l s (vecStep (isOp 0x65) (fun s l ln w =>
    if !localOk (mwAddr ln w) 8 8 then .fault s stMalformed 10
    else .next (vecWrite s l ln sur.hits (mwAddr ln w) (natLe 8 (sreg ln (mwV w % 16)).toNat)).1) l sur s)

/-! ### Remote access (R200) -/

/-- What a remote instruction finds before it is issued: a bad address, the module itself, a partner before fabric-ready,
or a partner. -/
inductive RemoteAt where
  | bad | own | early | partner

def remoteAt (s : State) (a al : Nat) : RemoteAt :=
  if !isGlobal a || a % al != 0 then .bad
  else if globalDev a = myId s then .own
  else if !isSet s DEV_START_fabric_ready then .early
  else .partner

/-- Issue one request of a program on VC2 (R200): the tag it holds; none where it ends at once as lost. -/
def vecSend (s : State) (l pc kind reg mask a op len operand : Nat) (data : List Byte) : State × Bool :=
  let tag := freeTag s
  let own := (lane s l).vecRun.getD (0, 0)
  match sendReq s 2 (globalDev a) op (localPart a) len operand data (.vec l own.1 own.2) with
  | (s, true) =>
    let ln := lane s l
    (setLane s l { ln with pend := ln.pend ++ [⟨tag, pc, kind, reg, mask⟩] }, true)
  | (s, false) => (s, false)

/-- rld (R200). -/
def rldBody (hits : List Hit) (s : State) (l : Nat) (ln : LaneSt) (w : Nat) : VOut :=
  let a := mwAddr ln w
  match remoteAt s a 4 with
  | .bad => .fault s stMalformed 10
  | .early => .fault s stRemoteError 2
  | .own =>
    if !memoryUp s (localPart a) 256 then .fault s stRemoteError 1
    else match vecRead s l ln hits (localPart a) 256 with
    | (s, none) => .fault s stParity 6
    | (s, some bs) => .next (setLane s l (writeMasked (lane s l) (mwV w) (maskOf ln w) (fun i => BitVec.ofNat 32 (leAt bs (4 * i) 4))))
  | .partner =>
    if !txnRoom s 2 then .wait
    else match vecSend s l ln.pc 0 (mwV w) (maskOf ln w) a 0x01 256 0 [] with
      | (s, true) => .next s
      | (s, false) => .fault s stRemoteError 3

/-- The lines of a masked remote write: each with its address, its byte mask and its 64 bytes (R200, R266). -/
def maskedLines (a m : Nat) (bs : List Byte) : List (Nat × Nat × List Byte) :=
  ((linesOf a 256).map (fun line =>
    let byteOf := fun b => line + b - a
    let on := fun b => decide (a ≤ line + b ∧ line + b < a + 256) && bitOf m ((line + b - a) / 4)
    (line, maskFrom on, (List.range 64).map (fun b => if on b then (bs[byteOf b]?).getD 0 else 0)))).filter (fun x => x.2.1 != 0)

/-- rst (R200): 256 bytes; under a mask, one masked write for each line with a selected word. -/
def rstBody (hits : List Hit) (s : State) (l : Nat) (ln : LaneSt) (w : Nat) : VOut :=
  let a := mwAddr ln w
  let m := maskOf ln w
  let bs := (List.range 64).flatMap (fun i => natLe 4 (vreg ln (mwV w) i).toNat)
  let lines := if m = allOnes then [] else maskedLines a m bs
  match remoteAt s a 4 with
  | .bad => .fault s stMalformed 10
  | .early => .fault s stRemoteError 2
  | .own =>
    let r := if m = allOnes then targetWrite s hits (localPart a) bs false
      else lines.foldl (fun st x => match maskedLine st.1 hits (localPart x.1) x.2.1 x.2.2 with | (s, ok) => (s, st.2 && ok)) (s, true)
    (match r with
     | (s, true) => .next s
     | (s, false) => .fault s stRemoteError 1)
  | .partner =>
    let n := if m = allOnes then 1 else lines.length
    if !txnRoomFor s 2 n then .wait
    else
      let r := if m = allOnes then vecSend s l ln.pc 2 0 0 a 0x02 256 0 bs
        else lines.foldl (fun st x => if st.2 then vecSend st.1 l ln.pc 2 0 0 x.1 0x03 64 x.2.1 x.2.2 else st) (s, true)
      match r with
      | (s, true) => .next s
      | (s, false) => .fault s stRemoteError 3

/-- VEC_RLD (R200). -/
def execVecRld (l : Nat) (sur : Surround) (s : State) : Host.Outcome State Fault Refusal :=
  vecRow l s (vecStep (isOp 0x68) (rldBody sur.hits) l sur s)

/-- VEC_RST (R200). -/
def execVecRst (l : Nat) (sur : Surround) (s : State) : Host.Outcome State Fault Refusal :=
  vecRow l s (vecStep (isOp 0x69) (rstBody sur.hits) l sur s)

/-- ratom (R200): the operand is sb, the comparand of a compare-and-swap is sd, and the old value returns in sd. -/
def ratomBody (hits : List Hit) (s : State) (l : Nat) (ln : LaneSt) (w : Nat) : VOut :=
  let a := (sreg ln (swSa w)).toNat
  let kind := 4 + swMod w % 4
  let cmp := (sreg ln (swSd w)).toNat
  let opnd := (sreg ln (swSb w)).toNat
  match remoteAt s a 8 with
  | .bad => .fault s stMalformed 10
  | .early => .fault s stRemoteError 2
  | .own =>
    let r := targetAtomic s hits kind (localPart a) opnd cmp 0 false (.lane l) ln.vecRun
    let s1 := vecReplays 2 s r.1 l
    (match r.2 with
     | some old => .next (setLane s1 l (setSreg (lane s1 l) (swSd w) (BitVec.ofNat 64 old)))
     | none => if memoryUp s (localPart a) 8 then .fault s1 stParity 6 else .fault s1 stRemoteError 1)
  | .partner =>
    if !txnRoom s 2 then .wait
    else match vecSend s l ln.pc 1 (swSd w) 0 a kind 8 opnd (if kind = 6 then natLe 8 cmp else []) with
      | (s, true) => .next s
      | (s, false) => .fault s stRemoteError 3

/-- A ratom word of one kind. -/
def isRatom (k : Nat) (w : Nat) : Bool := isOp 0x6A w && swMod w % 4 == k

/-- VEC_RATOM_ADD (R200). -/
def execVecRatomAdd (l : Nat) (sur : Surround) (s : State) : Host.Outcome State Fault Refusal :=
  vecRow l s (vecStep (isRatom 0) (ratomBody sur.hits) l sur s)

/-- VEC_RATOM_SWAP (R200). -/
def execVecRatomSwap (l : Nat) (sur : Surround) (s : State) : Host.Outcome State Fault Refusal :=
  vecRow l s (vecStep (isRatom 1) (ratomBody sur.hits) l sur s)

/-- VEC_RATOM_CAS (R200). -/
def execVecRatomCas (l : Nat) (sur : Surround) (s : State) : Host.Outcome State Fault Refusal :=
  vecRow l s (vecStep (isRatom 2) (ratomBody sur.hits) l sur s)

/-- rank (R201): waits while a hurdle is between its steps 1 and 5. -/
def rankBody (s : State) (l : Nat) (ln : LaneSt) (w : Nat) : VOut :=
  if hurdleOpen s then .wait
  else match resolveRank s ((sreg ln (swSa w)).toNat % 2 ^ 14) with
    | .unknown => .fault s stRankUnknown 0
    | .offStadium => .fault s stOffStadium 0
    | .device d => .next (setLane s l (setSreg ln (swSd w) (BitVec.ofNat 64 (2 ^ 63 + d * 2 ^ 50))))

/-- VEC_RANK (R201). -/
def execVecRank (l : Nat) (sur : Surround) (s : State) : Host.Outcome State Fault Refusal :=
  vecRow l s (vecStep (isOp 0x6B) rankBody l sur s)

/-- An answer to a program's request arrives (R200): status 0 OK, 1 refused, 2 not-ready, 3 lost. -/
def vecAnswer (s : State) (l tag status : Nat) (data : List Byte) : State :=
  let ln := lane s l
  match ln.pend.find? (fun p => p.txn == tag) with
  | none => s
  | some p =>
    let ln := { ln with pend := ln.pend.filter (fun x => x.txn != tag) }
    if status ≠ 0 then vecFaultAt (setLane s l ln) l stRemoteError status p.pc
    else
      let ln := if p.kind = 0 then writeMasked ln p.reg p.mask (fun i => BitVec.ofNat 32 (leAt data (4 * i) 4))
        else if p.kind = 1 then setSreg ln p.reg (BitVec.ofNat 64 (leNat data)) else ln
      settleVec (setLane s l ln) l

end Sys2Proof.Machine
end

