-- ==== Sys2Proof/Machine/Answers.lean ====
section
/-! DEFINITION. What an answer to one of the KM7's own fabric requests does to its requester (11_stadium_fabric R268,
R275; 05_commands R116, R118; 08_vector R200; 17_recovery R393). -/

namespace Sys2Proof.Machine

/-- How an operation that failed on the fabric ends its command (R118, R200, R393): refused 1, not-ready 2, lost 3; a
response damaged twice is PARITY, detail 9. -/
def fabricEnd (status : Nat) : Nat × Nat :=
  if status = 9 then (stParity, 9) else (stRemoteError, if status = 1 ∨ status = 2 then status else 3)

/-- The result of a remote signal (R118, step 3): acknowledged, or the command's status changes to REMOTE_ERROR. -/
def signalAnswer (s : State) (q idx status : Nat) : State :=
  match findCmd s q idx with
  | none => s
  | some e =>
    if e.stage ≠ .signalling then s
    else if status = 0 then putCmd s { e with stage := .signalled }
    else
      let (st, d) := fabricEnd status
      raiseEv (putCmd s { e with stage := .signalled, status := st, detail := d }) pgCMD evCommandFailed
        [q, idx, e.cmdId, e.opcode, st, d]

/-- The answer of a remote watch (R116): the wait is satisfied; busy, to be repeated after watch_retry; or the command
ends. -/
def waitAnswer (s : State) (q idx w status : Nat) : State :=
  match findCmd s q idx with
  | none => s
  | some e =>
    if e.stage ≠ .issued then s
    else
      let set := fun (v : WaitSt) => putCmd s (if w = 0 then { e with wait0 := v } else { e with wait1 := v })
      if status = 0 then set .latched
      else if status = 4 then set .busy
      else let (st, d) := fabricEnd status; dropWatches (endCmd s q idx st d []) q idx

/-- The answer to a lane's remote instruction (R200, R210). -/
def vecDeliver (s : State) (l tag status : Nat) (data : List Byte) : State :=
  if status = 9 then
    let ln := lane s l
    match ln.pend.find? (fun p => p.txn == tag) with
    | none => s
    | some p => vecFaultAt (setLane s l { ln with pend := ln.pend.filter (fun x => x.txn != tag) }) l stParity 6 p.pc
  else vecAnswer s l tag status data

/-- Answer an insert forward once both its neighbours have answered (R275, step 2): byte 0 of the data has bit 0 for a
- neighbour that is ready and bit 1 for a + neighbour. -/
def settleForwards (s : State) : State :=
  let due := s.fab.forwards.filter (fun f => f.minusDone && f.plusDone)
  let s := { s with fab := { s.fab with forwards := s.fab.forwards.filter (fun f => !(f.minusDone && f.plusDone)) } }
  due.foldl (fun s f => respond s f.pkt 0 (natLe 4 (b2n f.minusReady + 2 * b2n f.plusReady))) s

/-- A neighbour's answer to an insert request this device sent for a forward. -/
def requestAnswer (s : State) (requester tag : Nat) (plus : Bool) (status : Nat) : State :=
  settleForwards { s with fab := { s.fab with forwards := s.fab.forwards.map (fun f =>
    if f.pkt.src = requester ∧ f.pkt.tag = tag then
      (if plus then { f with plusDone := true, plusReady := status == 0 } else { f with minusDone := true, minusReady := status == 0 })
    else f) } }

/-- The heat-mate's answer to this device's insert forward. -/
def forwardAnswer (s : State) (axisY : Bool) (status : Nat) (data : List Byte) : State :=
  let i := insertSt s axisY
  if i.asked ∧ !i.handshake ∧ status = 0 then
    let i := { i with minusReady := i.minusReady || bitOf (leNat data) 0, plusReady := i.plusReady || bitOf (leNat data) 1 }
    let s := setInsert s axisY i
    if i.minusReady ∧ i.plusReady then completeHandshake s axisY else s
  else s

/-- Report a BAR2 access that reached no memory (R83): BAR2 offset and device address. -/
def bar2Unmapped (s : State) (off a : Nat) : State := raiseEv s pgHIF evBar2Unmapped [off, a]

/-- Report a BAR2 access whose data failed parity (R83). -/
def bar2Parity (s : State) (a : Nat) : State := raiseEv s pgHIF evBar2Parity [a]

/-- The answer to a global BAR2 write (R83): a write is posted, so a refusal is only reported. -/
def bar2Written (s : State) (p : Packet) (off status : Nat) : State :=
  if status = 1 then bar2Unmapped s off (globalAddr p.dst p.addr)
  else if status = 9 then bar2Parity s (globalAddr p.dst p.addr) else s

/-- The answer to a global BAR2 read (R83): its data, or Completer Abort. -/
def bar2Answer (s : State) (p : Packet) (off skip size status : Nat) (data : List Byte) : State :=
  if status = 0 then emit s (.pcie (.data (bytesAt data skip size)))
  else emit (bar2Written s p off status) (.pcie .completerAbort)

/-- Give an answer to the requester of a transaction that has left the table: 0 OK, 1 refused, 2 not-ready, 3 lost, 4
busy, 9 a response damaged twice. Room in the table lets waiting chunk packets go (R104). -/
def deliver (s : State) (t : Txn) (status : Nat) (data : List Byte) : State :=
  let s := match t.who with
    | .signal q idx => signalAnswer s q idx status
    | .wait q idx w => waitAnswer s q idx w status
    | .vec l _ _ => vecDeliver s l t.pkt.tag status data
    | .bar2Read off skip size => bar2Answer s t.pkt off skip size status data
    | .bar2Write off => bar2Written s t.pkt off status
    | .command _ _ => s
    | .chunk q idx => settleColl (if status = 0 then s else missedPacket s q idx t.pkt.data) q idx
    | .insertForward axisY => forwardAnswer s axisY status data
    | .insertRequest requester tag plus => requestAnswer s requester tag plus status
  pumpChunks s

/-- Declare a transaction lost and tell its requester (R268). -/
def declareLost (s : State) (t : Txn) : State := deliver (loseTxn s t) t 3 []

end Sys2Proof.Machine
end

