-- ==== Sys2Proof/Machine/Reroute.lean ====
section
/-! DEFINITION. Link failure and reroute (11_stadium_fabric R272, R275), lost transactions (R268) and responses (R268, R393),
the spare lane (R258), port reset (R60), and the watch that is sent again (R116). -/

namespace Sys2Proof.Machine

def evReroute : Ev := ⟨0x5002, 2⟩
def evUnreachable : Ev := ⟨0x5003, 3⟩
def evLinkDown : Ev := ⟨0x5405, 3⟩
def evLaneSwapped : Ev := ⟨0x5403, 2⟩
def evLaneFailed : Ev := ⟨0x5404, 3⟩

/-! ### Rerouting a destination (R272) -/

/-- A watch: exempt from the timeout and the reissue limit (R268). -/
def Txn.isWatch (t : Txn) : Bool := t.pkt.op == 0x07

/-- A transaction that would need a third reissue, and is no watch (R268). -/
def Txn.spent (t : Txn) : Bool := decide (2 ≤ t.reissues) && !t.isWatch

/-- Replace a transaction's entry. -/
def putTxn (s : State) (t : Txn) : State :=
  { s with fab := { s.fab with txns := s.fab.txns.map (fun x => if x.pkt.tag = t.pkt.tag then t else x) } }

/-- The destination is being rerouted. -/
def isRerouting (s : State) (d : Nat) : Bool := s.fab.rerouting.any (fun e => e.1 == d)

/-- Declare every transaction to a destination lost. -/
def loseAll (s : State) (d : Nat) : State := (s.fab.txns.filter (fun t => t.pkt.dst == d)).foldl declareLost s

/-- A destination becomes unreachable: its transactions are lost, and reductions that need it abandon what they cannot
complete (R272, R297). -/
def makeUnreachable (s : State) (d : Nat) : State :=
  let n := (s.fab.txns.filter (fun t => t.pkt.dst == d)).length
  let s := { s with fab := { s.fab with
    lostDest := if s.fab.lostDest.contains d then s.fab.lostDest else s.fab.lostDest ++ [d] } }
  abandonLost (raiseEv (loseAll s d) pgFAB evUnreachable [d, n])

/-- Reissue one transaction along a route (R272, step 4): a third reissue makes it lost, but for a watch (R268). -/
def reissueTxn (r : Nat) (s : State) (t : Txn) : State :=
  if t.spent then declareLost s t
  else
    let t := { t with reissues := t.reissues + 1, down := false, held := false, pkt := { t.pkt with reissue := true, route := r } }
    transmit (satF (putTxn s t) FAB_COUNT_reissued 1) t.pkt

/-- Release one held request (R272, step 4). -/
def releaseTxn (r : Nat) (s : State) (t : Txn) : State :=
  let t := { t with held := false, pkt := { t.pkt with route := r } }
  transmit (putTxn s t) t.pkt

/-- The first port of a descriptor is up, or the destination is this device. -/
def firstPortUp (s : State) (d r : Nat) : Bool := nextPort s d r == 31 || portState s (nextPort s d r) == 3

/-- Steps 3 and 4 of R272 for a destination: trigger 1 own port, 2 route down, 0 a table load, which takes the new
primary descriptor and raises no event; where that one's first port is down, the load reroutes as trigger 1 does. -/
def finishReroute (s : State) (d trigger : Nat) : State :=
  let s := { s with fab := { s.fab with rerouting := s.fab.rerouting.filter (fun e => e.1 != d) } }
  let load := decide (trigger = 0) && (match primaryRoute s d with | some r => firstPortUp s d r | none => true)
  let target := if load then primaryRoute s d
    else if s.fab.onAlt.contains d then none else (primaryRoute s d).map alternateOf
  match target with
  | none => makeUnreachable s d
  | some r =>
    if !firstPortUp s d r then makeUnreachable s d
    else
      let mine := s.fab.txns.filter (fun t => t.pkt.dst == d)
      let again := mine.filter (fun t => !t.held)
      let s := if load then s
        else raiseEv { s with fab := { s.fab with onAlt := s.fab.onAlt ++ [d] } } pgFAB evReroute
          [d, max 1 trigger, (again.filter (fun t => !t.spent)).length]
      (mine.filter (·.held)).foldl (releaseTxn r) (again.foldl (reissueTxn r) s)

/-- Every outstanding transaction to the destination has its response (R272, step 2). -/
def drained (s : State) (d : Nat) : Bool := s.fab.txns.all (fun t => t.pkt.dst != d || t.held || t.down)

/-- Begin to reroute a destination (R272, step 1); it ends at once where nothing is outstanding. -/
def startReroute (s : State) (d trigger : Nat) : State :=
  if isRerouting s d ∨ s.fab.lostDest.contains d ∨ s.fab.badRoutes.contains d then s
  else
    let s := { s with fab := { s.fab with rerouting := s.fab.rerouting ++ [(d, trigger)] } }
    if drained s d then finishReroute s d trigger else s

/-- A reroute that waits for nothing more goes on. -/
def settleReroute (s : State) (d : Nat) : State :=
  match s.fab.rerouting.find? (fun e => e.1 == d) with
  | some e => if drained s d then finishReroute s d e.2 else s
  | none => s

/-- REROUTE_DRAIN_EXPIRY (R272): drain_us has passed. -/
def drainExpiry (s : State) (d : Nat) : State :=
  match s.fab.rerouting.find? (fun e => e.1 == d) with
  | some e => finishReroute s d e.2
  | none => s

def execRerouteDrainExpiry (dst : Nat) (s : State) : Host.Outcome State Fault Refusal :=
  .next (whileRunning s (drainExpiry s dst))

/-- Reroute every present destination whose first port is the one that went down. -/
def rerouteAll (s : State) (n : Nat) : State :=
  ((presentDevices s).filter (fun d => d != myId s && (match routeTo s d with | some r => nextPort s d r == n | none => false))).foldl
    (fun s d => startReroute s d 1) s

/-! ### A port goes down (R262, R272) -/

/-- The link state of a port that has lost its link. -/
def lostLink (p : PortSt) : PortSt := { knocks := p.knocks, backoffs := p.backoffs, falseStarts := p.falseStarts, resetBusy := p.resetBusy }

/-- A port with a link loses it: it reads down with its cause, its replay buffer and partial packets are lost, its
destinations are rerouted, transit requests still unsent are answered route down, and an enabled port joins the training
queue again (R262, R272). Packets received whole stay to be performed; their flits are credit of no link now. A port that
drained for R275 has raised its event and rerouted already. -/
def portDown (s : State) (n cause : Nat) : State :=
  let p := port s n
  if p.train ≠ .trained then s
  else
    let was := portState s n
    let s := setF (setF s (PORT_STATE_state n) 5) (PORT_PEER_peer_valid n) 0
    let s := setF (setF s (PORT_STATE_spare_used n) 0) (PORT_LANE_swap n) 0
    let s := setPort s n (lostLink p)
    let s := { s with fab := { s.fab with inbox := s.fab.inbox.map (fun h => if h.port = n then { h with flits := 0 } else h) } }
    let s := downBlock s (pgPORT n)
    let s := if bitOf s.pac.ports n ∧ cause ≠ 5 then queuePort s n else s
    let s := if was = 4 then s
      else rerouteAll (raiseEv (setF s (PORT_STATE_down_cause n) cause) (pgPORT n) evLinkDown [n, cause]) n
    (queuedTransit s p).foldl routeDown s

/-- Put a port in draining (R272, cause 6; R275): treated as down, while what it holds still goes out. -/
def drainPort (s : State) (n why : Nat) : State :=
  if portState s n = 3 then
    let s := setPort s n { port s n with drainFor := why }
    let s := setF (setF s (PORT_STATE_state n) 4) (PORT_STATE_down_cause n) 6
    rerouteAll (raiseEv s (pgPORT n) evLinkDown [n, 6]) n
  else s

/-- A port has nothing left to send or to have acknowledged. -/
def portEmpty (s : State) (n : Nat) : Bool := (port s n).replay.isEmpty && (port s n).txq.isEmpty

/-- LOSS_OF_LIGHT (R272). -/
def execLossOfLight (n : Nat) (s : State) : Host.Outcome State Fault Refusal :=
  onInstance (isPort n) (whileRunning s (portDown s n 2))

/-- A port reset (R60): the link goes down with cause 5 and trains afresh, with a fresh false-start count. -/
def portReset (s : State) (n : Nat) : State :=
  let s := portDown s n 5
  if bitOf s.pac.ports n then
    let s := { s with fab := { s.fab with queue := s.fab.queue.filter (· != n) } }
    queuePort (setPort (setF s RST_PORT_busy 1) n { resetBusy := true }) n
  else raiseEv s (pgPORT n) evPortResetDone [n]

/-- Start written in RST_PORT (R60, R79): discarded while busy. -/
def startPortReset (s : State) (n : Nat) : State :=
  if isSet s RST_PORT_busy then s else portReset (setF s RST_PORT_port n) n

/-- PORT_RESET (R60): start written in RST_PORT. -/
def execPortReset (n : Nat) (s : State) : Host.Outcome State Fault Refusal :=
  onInstance (isPort n) (onPage s pgRST (startPortReset s n))

/-! ### The spare lane (R258) -/

/-- A lane number of a port. -/
def isLaneNo (lane : Nat) : Bool := decide (lane < 8)

/-- Ask for a swap (R258, step 1). -/
def requestSwap (s : State) (n lane : Nat) (lock : Bool) : State :=
  match (port s n).swap with
  | .none => sendCtl (setPort (setF s (PORT_LANE_swap n) 1) n { port s n with swap := .requested lane, swapLock := lock }) n (.swapRequest lane)
  | _ => s

/-- A second lane fails (R258). -/
def secondLane (s : State) (n lane : Nat) : State := portDown (raiseEv s (pgPORT n) evLaneFailed [n, lane]) n 4

/-- The lane a swap in progress is of. -/
def swapOf (p : PortSt) : Option Nat :=
  match p.swap with | .none => none | .requested l => some l | .draining l => some l | .training l => some l

/-- LANE_LOSS_OF_LOCK (R258, R272): a swap starts; with the spare in use the port goes down, with cause 3 where the lost
lane is the spare itself and cause 4 where it is a second lane; with auto_swap 0 it goes down with cause 3. -/
def lossOfLock (s : State) (n lane : Nat) : State :=
  let p := port s n
  if p.train ≠ .trained then s
  else if isSet s (PORT_STATE_spare_used n) then
    if getF s (PORT_STATE_spare_for n) = lane then portDown s n 3 else secondLane s n lane
  else match swapOf p with
    | some l => if l = lane then setPort s n { p with swapLock := true } else secondLane s n lane
    | none => if isSet s (PORT_LANE_auto_swap n) then requestSwap s n lane true else portDown s n 3

def execLaneLossOfLock (n lane : Nat) (s : State) : Host.Outcome State Fault Refusal :=
  onInstance (isPort n && isLaneNo lane) (whileRunning s (lossOfLock s n lane))

/-- CORRECTED_SYMBOL_LIMIT (R258): the lane's corrected symbols of one second. -/
def symbolLimit (s : State) (n lane count : Nat) : State :=
  if (port s n).train = .trained ∧ 2 ^ getF s (PORT_LANE_lane_log2 n) < count ∧ isSet s (PORT_LANE_auto_swap n)
      ∧ !isSet s (PORT_STATE_spare_used n) then requestSwap s n lane false else s

def execCorrectedSymbolLimit (n lane count : Nat) (s : State) : Host.Outcome State Fault Refusal :=
  onInstance (isPort n && isLaneNo lane) (whileRunning s (symbolLimit s n lane count))

/-- A write to PORT_LANE (R258): the fields, and swap, which is discarded while spare_used is 1. -/
def writePortLane (s : State) (n : Nat) (v : Word) : State :=
  let s := setF (setF (setF s (PORT_LANE_swap_lane n) v.toNat) (PORT_LANE_auto_swap n) (bitsOf v.toNat 4 1)) (PORT_LANE_lane_log2 n) (bitsOf v.toNat 8 5)
  if bitOf v.toNat 3 ∧ !isSet s (PORT_STATE_spare_used n) ∧ (port s n).train = .trained then requestSwap s n (v.toNat % 8) false else s

/-- LANE_SWAP_HOST (R258): swap is written. -/
def execLaneSwapHost (n : Nat) (v : Word) (s : State) : Host.Outcome State Fault Refusal :=
  onInstance (isPort n) (onPage s (pgPORT n) (writePortLane s n (v ||| 8)))

/-- A swap request arrives (R258): this end agrees and starts no new flit. Where both ends asked, the end with the lower
identifier keeps its request and the other repeats its own after the swap: that one meets the spare in use, and the port
goes down for its second lane. -/
def swapRequest (s : State) (n lane : Nat) : State :=
  let p := port s n
  if isSet s (PORT_STATE_spare_used n) then (if getF s (PORT_STATE_spare_for n) = lane then s else secondLane s n lane) else
  let agree := fun (p : PortSt) =>
    let s := sendCtl (setPort s n { p with swap := .none }) n (.swapAnswer lane)
    setPort s n { port s n with swap := .draining lane }
  match p.swap with
  | .none => agree p
  | .requested l => if getF s (PORT_PEER_peer_id n) < myId s then agree { p with swapNext := some (l, p.swapLock) } else s
  | _ => s

/-- The far end agrees (R258, step 1). -/
def swapAnswer (s : State) (n lane : Nat) : State :=
  if (port s n).swap = .requested lane then setPort s n { port s n with swap := .draining lane } else s

/-- SWAP_REQUEST_RECEIVED (R258): the request of the far end, or its answer. -/
def execSwapRequestReceived (n lane : Nat) (answer : Bool) (s : State) : Host.Outcome State Fault Refusal :=
  onInstance (isPort n && isLaneNo lane) (whileRunning s
    (if (port s n).train ≠ .trained then s else if answer then swapAnswer s n lane else swapRequest s n lane))

/-- SWAP_DRAIN_DONE (R258, steps 2 and 3): every sent flit is acknowledged; the spare trains once an engine is free. -/
def swapDrainDone (s : State) (n : Nat) : State :=
  let p := port s n
  match p.swap with
  | .draining lane => if p.replay.isEmpty ∧ enginesBusy s < 4 then setPort s n { p with swap := .training lane } else s
  | _ => s

def execSwapDrainDone (n : Nat) (s : State) : Host.Outcome State Fault Refusal :=
  onInstance (isPort n) (whileRunning s (swapDrainDone s n))

/-- A request withdrawn before is made again after the swap (R258): a request for another lane goes out and meets the spare
in use at the far end; where that lane has lost lock, this end's port goes down for it too. -/
def repeatSwap (s : State) (n lane : Nat) (lock : Bool) : State :=
  if getF s (PORT_STATE_spare_for n) = lane then s
  else
    let s := requestSwap s n lane lock
    if lock then secondLane s n lane else s

/-- SPARE_LANE_TRAINED (R258, step 4): the spare is mapped in, the port resumes, and a request withdrawn before is made
again. -/
def spareTrained (s : State) (n us : Nat) : State :=
  let p := port s n
  match p.swap with
  | .training lane =>
    let s := freshTaps (setPort s n { p with swap := .none, swapNext := none, swapLock := false }) n
    let s := setF (setF (setF s (PORT_STATE_spare_used n) 1) (PORT_STATE_spare_for n) lane) (PORT_LANE_swap n) 0
    let s := pump (raiseEv s (pgPORT n) evLaneSwapped [n, lane, us]) n
    match p.swapNext with
    | some (l, lock) => repeatSwap s n l lock
    | none => s
  | _ => s

def execSpareLaneTrained (n us : Nat) (s : State) : Host.Outcome State Fault Refusal :=
  onInstance (isPort n) (whileRunning s (spareTrained s n us))

/-! ### Lost transactions, responses and repeated watches -/

/-- TXN_TIMEOUT (R268): outstanding for txn_timeout since its first issue. A watch is exempt. -/
def txnTimeout (s : State) (tag : Nat) : State :=
  match s.fab.txns.find? (fun t => t.pkt.tag == tag) with
  | some t => if t.isWatch then s else settleReroute (declareLost s t) t.pkt.dst
  | none => s

def execTxnTimeout (tag : Nat) (s : State) : Host.Outcome State Fault Refusal := .next (whileRunning s (txnTimeout s tag))

/-- WATCH_RETRY_EXPIRY (R116): a watch answered busy is sent again. -/
def watchRetry (s : State) (q idx w : Nat) : State :=
  match findCmd s q idx with
  | none => s
  | some e =>
    if e.stage ≠ .issued ∨ (if w = 0 then e.wait0 else e.wait1) ≠ .busy then s
    else
      let e := if w = 0 then { e with wait0 := .idle } else { e with wait1 := .idle }
      (sendWatch (putCmd s e) e w).1

def execWatchRetryExpiry (q idx w : Nat) (s : State) : Host.Outcome State Fault Refusal :=
  onInstance (isQueue q && decide (w < 2)) (whileRunning s (watchRetry s q idx w))

/-- A response that fails at the requester (R393): the request is reissued once; a second failure is the operation's. -/
def damagedResponse (s : State) (t : Txn) : State :=
  if t.damagedOnce then settleReroute (deliver (dropTxn s t.pkt.tag) t 9 []) t.pkt.dst
  else if t.spent then settleReroute (declareLost s t) t.pkt.dst
  else
    let t := { t with damagedOnce := true, reissues := t.reissues + 1, pkt := { t.pkt with reissue := true } }
    let s := satF (satF (putTxn s t) DEV_REPLAY_response_reissues 1) FAB_COUNT_reissued 1
    if isRerouting s t.pkt.dst then s else transmit s t.pkt

/-- A response arrives (R268, R272, R393): it frees its entry and answers the requester; route down starts a reroute; one
that matches no entry is discarded and counted. -/
def takeResponse (s : State) (p : Packet) (bad : Bool) : State :=
  match s.fab.txns.find? (fun t => t.pkt.tag == p.tag) with
  | none => satF s FAB_DUP_unmatched 1
  | some t =>
    if bad then damagedResponse s t
    else if p.status = 4 then
      settleReroute (startReroute (putTxn s { t with down := true }) t.pkt.dst 2) t.pkt.dst
    else
      let st := if p.status = 3 then 4 else p.status
      settleReroute (deliver (dropTxn s t.pkt.tag) t st (bytesAt p.data 0 p.length)) t.pkt.dst

end Sys2Proof.Machine
end

