-- ==== Sys2Proof/Machine/Insert.lean ====
section
/-! DEFINITION. Ring insertion and release (11_stadium_fabric R274, R275; 02_module R52, R54). An insert forward names its
axis in the operand (0 X, 1 Y); an insert request names the requester in addr and, in the operand, the axis plus 2 where
the receiver is the + neighbour. -/

namespace Sys2Proof.Machine

/-- The nearest heat-mate after this member whose link is up (R275, step 1). -/
def forwardMate (s : State) : Option Nat :=
  let me := idSlot (myId s)
  ((List.range 15).map (fun k => (me + 1 + k) % 16)).find? (fun h => portState s (heatPort me h) == 3)

/-- RING_INSERT_START (R275, step 1): allow is 1 and both ports of the axis are up in loopback. -/
def insertStart (s : State) (axisY : Bool) : State :=
  let a := axisPort axisY
  if isSet s (allowF axisY) ∧ portState s a = 2 ∧ portState s (a + 1) = 2 ∧ getF s (insertF axisY) = 0 then
    let i := insertSt s axisY
    let s := setInsert s axisY { levelHeld := i.levelHeld, asked := true, startedAt := elapsed s }
    let s := setF s (insertF axisY) 1
    match forwardMate s with
    | none => s
    | some h =>
      if txnRoom s 6 then
        (sendReq s 6 (myId s - idSlot (myId s) + h) 0x09 (myId s) 0 (b2n axisY) [] (.insertForward axisY)).1
      else s
  else s

def execRingInsertStart (axisY : Bool) (s : State) : Host.Outcome State Fault Refusal :=
  .next (whileRunning s (insertStart s axisY))

/-- INSERT_WAIT_EXPIRY (R275, steps 3 and 7): an unanswered neighbour is treated as absent, and named in step 7. -/
def insertWait (s : State) (axisY : Bool) : State :=
  let i := insertSt s axisY
  if i.asked ∧ !i.handshake then
    completeHandshake (setInsert s axisY { i with missed := b2n (!i.minusReady) + 2 * b2n (!i.plusReady) }) axisY
  else s

def execInsertWaitExpiry (axisY : Bool) (s : State) : Host.Outcome State Fault Refusal :=
  .next (whileRunning s (insertWait s axisY))

/-! ### The heat-mate and the neighbours -/

/-- The nearest present member of a slot from a position along an axis of the image in force (R275, step 2). -/
def nearest (s : State) (axisY up : Bool) (x y slot : Nat) : Nat → Nat → Nat
  | 0, a => if axisY then idOf x a slot else idOf a y slot
  | n + 1, a =>
    let a' := if axisY then ringNext s.fab.orgY s.fab.extY a up else ringNext s.fab.orgX s.fab.extX a up
    if (if axisY then present s x a' slot else present s a' y slot) then (if axisY then idOf x a' slot else idOf a' y slot)
    else nearest s axisY up x y slot n a'

/-- A requester's neighbour in one direction (R275, step 2). -/
def neighbourOf (s : State) (axisY up : Bool) (d : Nat) : Nat :=
  let x := idX d
  let y := idY d
  let ext := if axisY then s.fab.extY else s.fab.extX
  if ext = 1 then
    let e := (if axisY then s.pac.extents / 16 % 16 else s.pac.extents % 16) + 1
    let go := fun (a : Nat) => if up then (a + 1) % e else (a + e - 1) % e
    if axisY then idOf x (go y) (idSlot d) else idOf (go x) y (idSlot d)
  else nearest s axisY up x y (idSlot d) 15 (if axisY then y else x)

/-- Send one insert request of a forward; where none can be sent the neighbour counts as not ready. -/
def sendInsert (s : State) (p : Packet) (axisY plus : Bool) : State :=
  let nb := neighbourOf s axisY plus p.addr
  if !txnRoom s 6 then requestAnswer s p.src p.tag plus 3
  else match sendReq s 6 nb 0x08 p.addr 0 (b2n axisY + 2 * b2n plus) [] (.insertRequest p.src p.tag plus) with
    | (s, true) => s
    | (s, false) => requestAnswer s p.src p.tag plus 3

/-- An insert forward is served (R275, step 2). -/
def serveForward (s : State) (p : Packet) : State :=
  let axisY := bitOf p.operand 0
  let s := { s with fab := { s.fab with forwards := s.fab.forwards ++ [{ pkt := p, minusDone := false, plusDone := false }] } }
  sendInsert (sendInsert s p axisY false) p axisY true

/-- The port of this device that faces a requester (R275, step 3). -/
def facingPort (operand : Nat) : Nat := (if bitOf operand 0 then 18 else 16) + b2n (bitOf operand 1)

/-- An insert request is served (R275, step 3): a device that is not held, or whose facing port is not up, is ready at
once; otherwise the port drains first. -/
def serveInsert (s : State) (p : Packet) : State :=
  let f := facingPort p.operand
  if !isSet s (holdF (bitOf p.operand 0)) ∨ (portState s f ≠ 3 ∧ portState s f ≠ 4) then respond s p 0 []
  else
    let s := { s with fab := { s.fab with draining := s.fab.draining ++ [(f, p)] } }
    drainPort s f 1

/-- INSERT_DRAIN_DONE (R275, step 3): the facing port's replay buffer is empty, and the neighbour answers ready. -/
def insertDrained (s : State) (n : Nat) : State :=
  if portEmpty s n then
    let due := s.fab.draining.filter (fun d => d.1 == n)
    let s := { s with fab := { s.fab with draining := s.fab.draining.filter (fun d => d.1 != n) } }
    due.foldl (fun s d => respond s d.2 0 []) s
  else s

def execInsertDrainDone (n : Nat) (s : State) : Host.Outcome State Fault Refusal :=
  onInstance (isPort n) (whileRunning s (insertDrained s n))

/-! ### Release -/

/-- Writing allow 0 (R54, R275): a held axis sends drain messages over its links and drains both ports; an insertion not yet complete is
dropped. -/
def releaseAxis (s : State) (axisY : Bool) : State :=
  let a := axisPort axisY
  let s := setF s (allowF axisY) 0
  if getF s (insertF axisY) = 2 then
    let s := setF s (insertF axisY) 3
    let tell := fun (s : State) (n : Nat) => if (port s n).train = .trained then sendCtl s n .drain else s
    let s := tell (tell s a) (a + 1)
    drainPort (drainPort s a 2) (a + 1) 2
  else if getF s (insertF axisY) = 1 then
    setF (setInsert s axisY { levelHeld := (insertSt s axisY).levelHeld }) (insertF axisY) 0
  else s

/-- A write to FAB_KEEP (R52, R54). -/
def writeKeep (s : State) (v : Word) : State :=
  let one := fun (s : State) (axisY : Bool) (b : Nat) =>
    if bitOf v.toNat b then setF s (allowF axisY) 1
    else if isSet s (allowF axisY) then releaseAxis s axisY else s
  one (one s false 4) true 5

/-- RING_RELEASE (R54): allow is written 0. -/
def execRingRelease (axisY : Bool) (s : State) : Host.Outcome State Fault Refusal :=
  .next (onPage s pgFAB (releaseAxis s axisY))

/-- RELEASE_DRAIN_DONE (R275): both ports have drained, and the drive goes low. -/
def releaseDrained (s : State) (axisY : Bool) : State :=
  let a := axisPort axisY
  if getF s (insertF axisY) = 3 ∧ portEmpty s a ∧ portEmpty s (a + 1) then wantKeeper s axisY false else s

def execReleaseDrainDone (axisY : Bool) (s : State) : Host.Outcome State Fault Refusal :=
  .next (whileRunning s (releaseDrained s axisY))

/-! ### Fabric-ready (R68) -/

/-- Step 10 of start-up: the Steward writes an axis's allow as the profile directs; writing 0 over 1 releases (R54). -/
def directKeeper (s : State) (axisY allow : Bool) : State :=
  if allow then setF s (allowF axisY) 1 else if isSet s (allowF axisY) then releaseAxis s axisY else s

/-- FABRIC_READY (R68): every enabled port trained or left dark; the isolated-heat tables are loaded; the profile's
keeper permissions are set (step 10). Of profile 3 the spec says that it never enters fabric-ready; a module with an
invalid strap, which enables no port either, never enters it in the model (log entry 89). -/
def fabricReady (s : State) (ms : Nat) : State :=
  if isSet s DEV_START_steward_ready ∧ !isSet s DEV_START_fabric_ready ∧ s.pac.ports ≠ 0 ∧ portsDone s then
    let s := setF s DEV_START_ports_done 1
    let s := if isSet s RTE_STATE_valid then s else loadIsolated s
    let s := setF (setF s DEV_START_fabric_ready 1) DEV_START_ready_ms (min ms 65535)
    let s := raiseEv s pgDEV evFabricReady [min ms 65535]
    directKeeper (directKeeper s false s.pac.allowX) true s.pac.allowY
  else s

def execFabricReady (ms : Nat) (s : State) : Host.Outcome State Fault Refusal :=
  .next (whileRunning s (fabricReady s ms))

/-- DRAIN_MESSAGE (R275): the neighbour's release drains the facing port here. -/
def execDrainMessage (n : Nat) (s : State) : Host.Outcome State Fault Refusal :=
  onInstance (isPort n) (whileRunning s (if 16 ≤ n then drainPort s n 3 else s))

end Sys2Proof.Machine
end

