-- ==== Sys2Proof/Machine/Retire.lean ====
section
/-! DEFINITION. Retirement (05_commands R118-R121), timeouts (R113), and the hurdle (R124, R125) with the stadium image it
loads (11_stadium_fabric R273). -/

namespace Sys2Proof.Machine

/-! ### Retirement -/

/-- The address of a queue's completion slot (R97). -/
def cqSlot (s : State) (q i : Nat) : Nat :=
  getF s (CMD_CQ_BASE_HI_cq_base_hi q) * 2 ^ 32 + getF s (CMD_CQ_BASE_LO_cq_base_lo q) * 2 ^ 12 + 32 * (i % queueSize s q)

/-- Write a command's completion record: bytes 4 to 31, then bytes 0 to 3 with the phase (R118, R120). -/
def writeCompletion (s : State) (e : CmdEntry) : State :=
  let i := getF s (CMD_CQ_TAIL_cq_tail e.q)
  let a := cqSlot s e.q i
  let body := natLe 4 e.idx ++ natLe 8 e.endTime ++ natLe 2 e.opcode ++ natLe 2 e.detail ++ bytesAt e.result 0 12
  let s := emit s (.hostWrite (a + 4) body)
  let s := emit s (.hostWrite a (natLe 4 (e.cmdId + 2 ^ 16 * e.status + (if i / queueSize s e.q % 2 = 0 then 2 ^ 31 else 0))))
  setF s (CMD_CQ_TAIL_cq_tail e.q) ((i + 1) % 2 ^ 32)

/-- The command's signal is a store (R122, LAP.SIGNAL with operand 1). -/
def CmdEntry.storeSignal (e : CmdEntry) : Bool := e.opcode == 0x0602 && leAt e.bytes 44 1 == 1

/-- The counter of this module that a command signals, if it signals one here. -/
def localSignal (s : State) (e : CmdEntry) : Option Nat := if refValid e.sigRef then localIndex s e.sigRef else none

/-- cmd.command.failed for a status other than OK (R118). -/
def reportCommand (s : State) (e : CmdEntry) : State :=
  if e.status = 0 then s else raiseEv s pgCMD evCommandFailed [e.q, e.idx, e.cmdId, e.opcode, e.status, e.detail]

/-- A sweep or fetch of step t that retires with OK starts a background audit where t is a multiple of audit_every
(R317). -/
def startAudit (s : State) (e : CmdEntry) : State :=
  let every := getF s UPD_AUDIT_audit_every
  if e.opcode = 0x0401 ∧ e.status = 0 ∧ leAt e.opnd 24 1 ≤ 3 ∧ every ≠ 0 ∧ leAt e.opnd 20 4 % every = 0 then
    setF { s with upd := { s.upd with audits := s.upd.audits ++ [{ block := e.opnd }] } } UPD_AUDIT_busy 1
  else s

/-- A write of an ended command is still to be acknowledged (R118, step 1): a request of its program or a chunk packet of its
engine is in the transaction table, or a packet waits for room there. -/
def unacknowledged (s : State) (q idx : Nat) : Bool :=
  s.fab.txns.any (fun t => match t.who with
    | .vec _ a b => a == q && b == idx | .chunk a b => a == q && b == idx | .command a b => a == q && b == idx | _ => false)
    || s.coll.outbox.any (fun x => x.q == q && x.idx == idx)

/-- The HURDLE that changed the epoch has retired: dispatch resumes, the held pages take work again, and the chunks held
for its epoch are taken as if they arrived now; those of an older one are judged with them (R75, R124, R296; log entry
97). -/
def resumeDispatch (s : State) (q idx : Nat) : State :=
  if s.cmds.hurdle = some (q, idx) then
    let s := latchAll (hurdleRelease { s with cmds := { s.cmds with hurdle := none, hurdlePassed := false } })
    takeHeld s (fun h => epochCmp h.1.epoch (getF s CMD_EPOCH_current) != .newer) []
  else s

/-- Steps 4 to 7 of R118. A signal to a counter that is held failed is refused (R391). -/
def completeCmd (s : State) (e : CmdEntry) (counterFails : Bool) : State :=
  let sig := if e.status = 0 then localSignal s e else none
  let s := match sig with
    | some n => if counterFails ∧ !e.storeSignal then failLap s n else s
    | none => s
  let refused := match sig with | some n => !e.storeSignal && lapHeld s n | none => false
  let e := if refused then { e with status := stRemoteError, detail := 1 } else e
  let s := if refused then reportCommand s e else s
  let s := if e.quiet ∧ e.status = 0 then s else writeCompletion s e
  let s := match sig with
    | some n =>
      if refused then s
      else if e.storeSignal then lapStore s n (leAt e.bytes 48 8) else (lapAdd s n e.sigAdd 0).1
    | none => s
  let s := startAudit s e
  let s := if e.irq then sendMsix s (getF s (CMD_Q_CFG_vector e.q)) else s
  resumeDispatch (dropCmd s e.q e.idx) e.q e.idx

/-- The remote member a command signals, if any. -/
def remoteSignal (s : State) (e : CmdEntry) : Option Nat :=
  if usesRemote e.sigRef then
    match resolveRank s (refRank e.sigRef) with
    | .device d => if d = myId s then none else some d
    | _ => none
  else none

/-- Step 3 of R118: the add, or the store, on VC2. -/
def sendSignal (s : State) (e : CmdEntry) (d : Nat) (counterFails : Bool) : State :=
  if !txnRoom s 2 then putCmd s e
  else
    let a := lapAddr (refIndex e.sigRef)
    let (s, sent) :=
      if e.storeSignal then sendReq s 2 d 0x02 a 8 0 (natLe 8 (leAt e.bytes 48 8)) (.signal e.q e.idx)
      else sendReq s 2 d 0x04 a 8 e.sigAdd [] (.signal e.q e.idx)
    if sent then putCmd s { e with stage := .signalling }
    else
      let e := { e with status := stRemoteError, detail := 3 }
      completeCmd (reportCommand s e) e counterFails

/-- COMMAND_RETIRE (R118): from its unit's end as far as it can go now, once every write is acknowledged. The command
table's word may fail parity (R391). A rank of sig_ref that the table no longer resolves ends the command as R117 says. -/
def retire (s : State) (q idx : Nat) (tableFails counterFails : Bool) : State :=
  match findCmd s q idx with
  | none => s
  | some e =>
    match e.stage with
    | .ended =>
      if unacknowledged s q idx then s
      else
        let e := if tableFails then { e with status := stParity, detail := 11, result := [] } else e
        let e := match (if e.status = 0 then refEnd s e.sigRef else none) with
          | some st => { e with status := st }
          | none => e
        let s := reportCommand s e
        match (if e.status = 0 then remoteSignal s e else none) with
        | some d => sendSignal s e d counterFails
        | none => completeCmd s e counterFails
    | .signalled => completeCmd s e counterFails
    | _ => s

def execCommandRetire (q idx : Nat) (tableFails counterFails : Bool) (s : State) : Host.Outcome State Fault Refusal :=
  onInstance (isQueue q) (whileRunning s (retire s q idx tableFails counterFails))

/-! ### Timeouts (R113) -/

/-- Stop a command for a status from outside its unit: what it was writing is unspecified (R113). -/
def haltCmd (s : State) (q idx status : Nat) : State :=
  match findCmd s q idx with
  | none => s
  | some e =>
    if e.stage = .issued ∨ e.stage = .placed ∨ e.stage = .running then
      let s := if e.stage = .running then scrambleAll s e.dest else s
      let s := { s with upd := { s.upd with runs := s.upd.runs.filter (fun r => !(r.q == q && r.idx == idx)) } }
      let s := { s with mil := { s.mil with
        runs := s.mil.runs.filter (fun r => !(r.q == q && r.idx == idx)),
        sends := s.mil.sends.filter (fun m => !(m.q == q && m.idx == idx)) } }
      let s := dropHurdle s q idx
      match findRun s q idx with
      | some r => stopCmd (leaveEngine s r false) q idx status 0 (collResult r)
      | none => stopCmd s q idx status 0 (if e.cls = 1 then productResult e else [])
    else s

/-- An ended command waits for room in the transaction table before it can signal (R104, R118). -/
def waitsToSignal (s : State) (e : CmdEntry) : Bool :=
  e.stage == .ended && e.status == 0 && (remoteSignal s e).isSome && !txnRoom s 2

/-- COMMAND_TIMEOUT (R113, R300): a running collective fails with the position whose part is missing; a command that waits
for room for its signal ends with TIMEOUT too, and signals nothing (R104). -/
def commandTimeout (s : State) (q idx : Nat) : State :=
  if (findRun s q idx).isSome then timeoutColl s q idx
  else match findCmd s q idx with
    | none => s
    | some e => if waitsToSignal s e then putCmd s { e with status := stTimeout } else haltCmd s q idx stTimeout

def execCommandTimeout (q idx : Nat) (s : State) : Host.Outcome State Fault Refusal :=
  onInstance (isQueue q) (whileRunning s (commandTimeout s q idx))

/-! ### The stadium image (R273) -/

/-- A role entry's fields. -/
def roleValid (e : Nat) : Bool := bitOf e 31
def roleOff (e : Nat) : Bool := bitOf e 30

/-- No value occurs twice. -/
def allDistinct : List Nat → Bool
  | [] => true
  | a :: t => !t.contains a && allDistinct t

/-- A heat of the image's rectangle. -/
def imageHeats (b : List Byte) : List Nat :=
  (List.range (leAt b 2 1)).flatMap (fun j => (List.range (leAt b 1 1)).map (fun i => (leAt b 7 1 + j) * 16 + leAt b 6 1 + i))

/-- A record of the image and its role entries. -/
def heatRecord (b : List Byte) (h : Nat) : Nat := leAt b (64 + 8 * h) 8
def imageRoles (b : List Byte) : List Nat := (List.range (leAt b 8 4)).map (fun r => leAt b (2112 + 4 * r) 4)

/-- The header's fields are in range. -/
def imageHeadOk (b : List Byte) : Bool :=
  leAt b 0 1 == 1 && decide (1 ≤ leAt b 1 1 ∧ leAt b 1 1 ≤ 16 ∧ 1 ≤ leAt b 2 1 ∧ leAt b 2 1 ≤ 16) && leAt b 3 1 == 0
    && decide (leAt b 6 1 + leAt b 1 1 ≤ 16 ∧ leAt b 7 1 + leAt b 2 1 ≤ 16) && decide (leAt b 8 4 ≤ 16384)
    && zeroAt b 12 4 && zeroAt b 20 44

/-- The records' fields are in range. -/
def imageBodyOk (b : List Byte) : Bool :=
  (imageHeats b).all (fun h =>
    let r := heatRecord b h
    bitsOf r 17 15 == 0 && bitsOf r 40 24 == 0 && (decide (bitsOf r 32 8 < 16) || bitsOf r 32 8 == 0xFF))
    && (imageRoles b).all (fun e => bitsOf e 13 17 == 0)

/-- A valid on-stadium entry names a present device of the rectangle. -/
def roleOk (b : List Byte) (e : Nat) : Bool :=
  !roleValid e || roleOff e ||
    (let d := e % 2 ^ 13
     decide (idSlot d ≤ 16 ∧ leAt b 6 1 ≤ idX d ∧ idX d < leAt b 6 1 + leAt b 1 1 ∧ leAt b 7 1 ≤ idY d ∧ idY d < leAt b 7 1 + leAt b 2 1)
       && !bitOf (heatRecord b (idY d * 16 + idX d)) (idSlot d))

/-- Why an image fails its check: 1 field, 2 epoch, 3 CRC, 4 entry, 5 duplicate device. -/
def imageFault (b : List Byte) (epoch : Nat) : Option Nat :=
  let rs := imageRoles b
  if !imageBodyOk b then some 1
  else if leAt b 4 2 ≠ epoch then some 2
  else if leAt b 16 4 ≠ crc32c (b.drop 64) then some 3
  else if !rs.all (roleOk b) then some 4
  else if !allDistinct ((rs.filter (fun e => roleValid e && !roleOff e)).map (· % 2 ^ 13)) then some 5
  else none

def evImageBad : Ev := ⟨0x5802, 3⟩

/-- Put an image in force (R271-R273): new tables, every destination on its primary descriptor. -/
def installImage (s : State) (b : List Byte) (epoch : Nat) : State :=
  let hs := imageHeats b
  let s := { s with fab := { s.fab with
    extX := leAt b 1 1, extY := leAt b 2 1, orgX := leAt b 6 1, orgY := leAt b 7 1,
    absent := hs.foldl (fun t h => tset (fun _ => 0) t h (heatRecord b h % 2 ^ 17)) [],
    reserveFor := hs.foldl (fun t h => tset (fun _ => 0xFF) t h (bitsOf (heatRecord b h) 32 8)) [],
    roles := (List.range (leAt b 8 4)).foldl (fun t r => tset (fun _ => 0) t r (BitVec.ofNat 32 (leAt b (2112 + 4 * r) 4))) [],
    badRoutes := [], badRoles := [], onAlt := [], lostDest := [] } }
  let s := setF (setF s FAB_GEOM_extent_x (leAt b 1 1)) FAB_GEOM_extent_y (leAt b 2 1)
  let s := setF (setF s FAB_GEOM_origin_x (leAt b 6 1)) FAB_GEOM_origin_y (leAt b 7 1)
  let s := setF (setF (setF s RTE_STATE_valid 1) RTE_STATE_isolated 0) RTE_STATE_epoch epoch
  (List.range 20).foldl (fun s n => setF s (PORT_STATE_dateline n) (b2n (isDateline s n))) s

/-- A table load drains and reissues what is outstanding to each destination whose descriptor changes, and reroutes what
meets a port that is not up (R272). -/
def rerouteLoaded (s : State) : State :=
  let moved := s.fab.txns.filter (fun t => primaryRoute s t.pkt.dst != some t.pkt.route)
  let s := { s with fab := { s.fab with rerouting := s.fab.rerouting.map (fun e => (e.1, 0)) } }
  let s := moved.foldl (fun s t => startReroute s t.pkt.dst 0) s
  ((List.range 20).filter (fun n => portState s n != 3)).foldl rerouteAll s

/-- Load a checked image. -/
def loadImage (s : State) (b : List Byte) (epoch : Nat) : State :=
  let s := installImage s b epoch
  let s := raiseEv s pgRTE evTablesLoaded [epoch, leAt b 8 4, unreachableCount s]
  rerouteLoaded s

/-- Read an image: its header first, then the whole; none where it cannot be read. -/
def readImage (s : State) (hits : List Hit) (a : Nat) (own : Option (Nat × Nat)) : State × Except Nat (List Byte) :=
  if a % 64 ≠ 0 ∨ !inMemory a 64 then (s, .error 1)
  else match memRead s hits a 64 .network own with
    | (s, none) => (s, .error 1)
    | (s, some h) =>
      let n := 2112 + 4 * leAt h 8 4
      if !imageHeadOk h ∨ !inMemory a n then (s, .error 1)
      else match memRead s hits a n .network own with
        | (s, none) => (s, .error 1)
        | (s, some b) => (s, .ok b)

/-! ### The hurdle (R124) -/

/-- HURDLE (R124, step 1): target is set, dispatch of epoch-bound commands stops, and the engine abandons what has lost its
owner (R297). The pages of the engines it holds read held (R75). -/
def startHurdle (s : State) (e : CmdEntry) : State :=
  let s := putCmd s { e with stage := .running }
  let s := { s with cmds := { s.cmds with hurdle := some (e.q, e.idx), hurdleAt := elapsed s } }
  abandonLost (hurdleHold (setF s CMD_EPOCH_target e.epoch))

def execHurdle (q idx : Nat) (sur : Surround) (s : State) : Host.Outcome State Fault Refusal :=
  onInstance (isQueue q) (whileRunning s (onDispatch s q idx (fun e => e.opcode == 0x0604) sur startHurdle))

/-- Step 5 of R124: the epoch changes and the HURDLE ends; dispatch resumes once it has retired (R123). -/
def passHurdle (s : State) (e : CmdEntry) : State :=
  let old := getF s CMD_EPOCH_current
  let s := setF (setF s CMD_EPOCH_current e.epoch) CMD_EPOCH_target e.epoch
  let s := raiseEv s pgCMD evHurdleDone [old, e.epoch, (elapsed s - s.cmds.hurdleAt) / 1000]
  endCmd { s with cmds := { s.cmds with hurdlePassed := true } } e.q e.idx stOK 0 []

/-- An image that fails its check ends the hurdle (R124). -/
def failHurdle (s : State) (e : CmdEntry) (reason : Nat) : State :=
  let s := raiseEv (dropHurdle s e.q e.idx) pgRTE evImageBad [e.epoch, reason]
  endCmd s e.q e.idx stMalformed 1 []

/-- A Milant table that fails its check ends the hurdle (R344). -/
def failMilTable (s : State) (e : CmdEntry) (reason : Nat) : State :=
  let s := raiseEv (dropHurdle s e.q e.idx) (pgMIL 0) evMilTableBad [e.epoch, reason]
  endCmd s e.q e.idx stMalformed 2 []

/-- Read and check the image of a hurdle: none where it names none, or the reason it fails. -/
def checkImage (s : State) (hits : List Hit) (e : CmdEntry) : State × Except Nat (Option (List Byte)) :=
  if e.block = 0 then (s, .ok none)
  else match readImage s hits e.block (some (e.q, e.idx)) with
    | (s, .error r) => (s, .error r)
    | (s, .ok b) => (s, match imageFault b e.epoch with | some r => .error r | none => .ok (some b))

/-- HURDLE_TABLE_LOAD (R124, steps 4 and 5; R344): once no other dispatched epoch-bound command is left. Both tables are
checked before either is put in force. -/
def hurdleLoad (s : State) (q idx : Nat) (sur : Surround) : State :=
  match findCmd s q idx with
  | none => s
  | some e =>
    if s.cmds.hurdle = some (q, idx) ∧ hurdleOpen s
        ∧ s.cmds.table.all (fun x => (x.q == q && x.idx == idx) || x.stage == .issued || !epochBound s x) then
      match checkImage s sur.hits e with
      | (s, .error r) => failHurdle s e r
      | (s, .ok image) =>
        match readMilTable s sur.hits e.epoch (some (q, idx)) with
        | (s, .error r) => failMilTable s e r
        | (s, .ok table) =>
          let s := match image with | some b => loadImage s b e.epoch | none => s
          passHurdle (installMilTable s table) e
    else s

def execHurdleTableLoad (q idx : Nat) (sur : Surround) (s : State) : Host.Outcome State Fault Refusal :=
  onInstance (isQueue q) (whileRunning s (hurdleLoad s q idx sur))

end Sys2Proof.Machine
end

