-- ==== Sys2Proof/Machine/Streams.lean ====
section
/-! DEFINITION. Milant messages (14_milant R329-R331, R344-R347): where a parcel goes, how a message is sent, acknowledged
and re-sent, and how a receiver puts it together. -/

namespace Sys2Proof.Machine

/-! ### Where a parcel goes (R329, R345, R346, R351) -/

/-- A control entry (R331). -/
structure CtlEntry where
  src : Nat
  dst : Nat
  stream : Nat
  code : Nat
  seq : Nat
  parcels : Nat := 0
  first : Nat := 0
  deriving DecidableEq, Repr

def ctlBytes (c : CtlEntry) : List Byte :=
  natLe 2 c.src ++ natLe 2 c.dst ++ natLe 2 c.stream ++ natLe 1 c.code ++ [0] ++ natLe 4 c.seq ++ natLe 2 c.parcels ++ [0, 0]
    ++ natLe 4 c.first ++ [0, 0, 0, 0]

def ctlOf (b : List Byte) : CtlEntry :=
  ⟨leAt b 0 2, leAt b 2 2, leAt b 4 2, leAt b 6 1, leAt b 8 4, leAt b 12 2, leAt b 16 4⟩

/-- The entries of a control body. -/
def ctlEntries (body : List Byte) : List CtlEntry :=
  (List.range (body.length / 24)).map (fun i => ctlOf (bytesAt body (24 * i) 24))

/-- The code of a control parcel: its first entry's. -/
def ctlCode (p : Parcel) : Nat := ((ctlEntries p.body).map (·.code)).headD 0

/-- A parcel of the marathon: batons, manifests, transfers, and their control parcels. -/
def isMarathon (p : Parcel) : Bool := p.stream == 0xFFFF

/-- Where a parcel goes next. -/
inductive MilHop where
  | here
  | ports (ns : List Nat)
  | device (vc dev : Nat)
  | nowhere
  deriving DecidableEq, Repr

/-- This module's ports of a role, toward a participant where the role is that. -/
def portsFacing (s : State) (role peer : Nat) : List Nat :=
  (List.range 2).filter (fun n => milRole s n == role && (role != 3 || milPeer s n == peer))

/-- A hop to a device of this stadium, or none where it is this one. -/
def hopTo (s : State) (vc dev : Nat) : MilHop := if dev = myId s then .here else .device vc dev

/-- The hop to the device that holds a rank. -/
def hopToRank (s : State) (vc rank : Nat) : MilHop :=
  match resolveRank s rank with
  | .device d => hopTo s vc d
  | _ => .nowhere

/-- The hop of a parcel that has reached its building or participant: relay messages and answers go to the device of the
rank, transfers to the gateway device for the sender, the rest lands here. -/
def landingHop (s : State) (p : Parcel) : MilHop :=
  let vc := if isMarathon p then 5 else 4
  if p.kind = 1 ∨ (p.kind = 6 ∧ (ctlCode p ≠ 3 ∨ p.stream < 0xFFFE)) then hopToRank s vc p.dstRank
  else if isMarathon p ∧ (p.kind = 5 ∨ p.kind = 6) then
    (match gatewayOf s p.srcBld with | some d => hopTo s 5 d | none => .here)
  else .here

/-- The hop of a parcel from here: its own port toward the participant or along the relay line, else the gateway device or
the device at the other boundary; a control parcel for a participant no gateway of this stadium faces goes toward the relay
line as well. -/
def hopOf (s : State) (p : Parcel) : MilHop :=
  if isMarathon p then
    if p.dstBld = myParticipant s then landingHop s p
    else match portsFacing s 3 p.dstBld, gatewayOf s p.dstBld with
      | [], some d => if d = myId s then .nowhere else .device 5 d
      | [], none => (match passDev s with | some d => if d = myId s ∨ p.kind ≠ 6 then .nowhere else .device 5 d | none => .nowhere)
      | ns, _ => .ports ns
  else if p.dstBld = myBuilding s then landingHop s p
  else match portsFacing s (if p.dstBld < myBuilding s then 1 else 2) 0, passDev s with
    | [], some d => if d = myId s then .nowhere else .device 4 d
    | [], none => .nowhere
    | ns, _ => .ports ns

/-- The first hop of a message of this module, or of a control parcel about a relay message: a path entry for its rank sends
it to a heat-mate (R345, R24). -/
def firstHop (s : State) (p : Parcel) : MilHop :=
  match (if p.kind = 1 ∨ (p.kind = 6 ∧ p.stream < 0xFFFE) then (milPaths s).find? (fun e => e.1 == p.dstRank) else none) with
  | some e => hopTo s 4 (idOf (idX (myId s)) (idY (myId s)) e.2)
  | none => hopOf s p

/-- A port that can send a parcel now. -/
def portLive (s : State) (n : Nat) : Bool := milUp s n && (milPort s n).liveTx.isSome

/-- Send a parcel on one of the ports of a role; two of them take turns, and a port that is down leaves all to the other
(R329). -/
def sendOnPorts (s : State) (ns : List Nat) (p : Parcel) : State :=
  match ns.filter (portLive s) with
  | [] => s
  | n :: rest =>
    let pick := if s.mil.turn then rest.headD n else n
    sendFrame { s with mil := { s.mil with turn := !s.mil.turn } } pick p

/-- Send a parcel along a hop: what cannot go now is left to the re-send. -/
def sendHop (s : State) (h : MilHop) (p : Parcel) : State :=
  match h with
  | .ports ns => sendOnPorts s ns p
  | .device vc d => if isSet s DEV_START_fabric_ready ∧ (routeTo s d).isSome then emit s (.handover vc d p) else s
  | _ => s

/-! ### Sending (R330, R331, R345) -/

/-- The stream a header names. -/
def streamOf (h : Parcel) : StreamKey :=
  if isMarathon h then ⟨h.stream, h.srcBld, h.dstBld, h.dstBld⟩ else ⟨h.stream, h.srcRank, h.dstRank, h.dstBld⟩

/-- The logical rank this module holds. -/
def myRank (s : State) : Nat :=
  ((s.fab.roles.find? (fun e => resolveRank s e.1 == .device (myId s))).map (·.1)).getD 0

/-- Give a message the next number of its stream, and the first flag where it is the stream's first. -/
def numberMsg (s : State) (h : Parcel) : State × Parcel :=
  let k := streamOf h
  let known := s.mil.nextSeq.find? (fun e => e.1 == k)
  let n := (known.map (·.2)).getD 0
  ({ s with mil := { s.mil with nextSeq := (k, (n + 1) % 2 ^ 32) :: s.mil.nextSeq.filter (fun e => e.1 != k) } },
    { h with seq := n, first := known.isNone, sent := timeNow s })

/-- The parcels of a message. -/
def parcelCount (len : Nat) : Nat := max 1 (ceilDiv len 8192)

/-- Read the body of one parcel of a message: what precedes the source, then the source as it stands now. -/
def readPiece (s : State) (hits : List Hit) (m : MsgTx) (i : Nat) : State × Option (List Byte) :=
  let o := 8192 * i
  let n := min 8192 (m.pre.length + m.len - o)
  let head := (m.pre.drop o).take n
  let rest := n - head.length
  if rest = 0 then (s, some head)
  else match memRead s hits (m.src + (o + head.length - m.pre.length)) rest .network (some (m.q, m.idx)) with
    | (s, none) => (s, none)
    | (s, some bs) => (s, some (head ++ bs))

/-- Count parcels of a command. -/
def countParcels (s : State) (q idx : Nat) (resend : Bool) : State :=
  { s with mil := { s.mil with runs := s.mil.runs.map (fun r =>
    if r.q = q ∧ r.idx = idx then (if resend then { r with sent := r.sent + 1, resent := r.resent + 1 } else { r with sent := r.sent + 1 })
    else r) } }

/-- Send parcels of a message by number: false where the source cannot be read. -/
def sendPieces (hits : List Hit) (m : MsgTx) (resend : Bool) (is : List Nat) (s : State) : State × Bool :=
  is.foldl (fun st i =>
    if !st.2 then st
    else match readPiece st.1 hits m i with
      | (s, none) => (s, false)
      | (s, some bs) =>
        let p := { m.head with
          resend := resend, offset := 8192 * i, body := bs, last := decide (i + 1 = parcelCount (m.pre.length + m.len)) }
        (sendHop (countParcels s m.q m.idx resend) (firstHop s p) p, true)) (s, true)

/-- Every parcel of a message. -/
def allPieces (m : MsgTx) : List Nat := List.range (parcelCount (m.pre.length + m.len))

/-! ### The end of a BATON.SEND (R347, R350, R359) -/

/-- The messages of a command. -/
def sendsOf (s : State) (q idx : Nat) : List MsgTx := s.mil.sends.filter (fun m => m.q == q && m.idx == idx)

/-- The result bytes of R359. -/
def milResult (r : MilRun) (ms : List MsgTx) : List Byte :=
  let tail := natLe 2 (min r.resent 0xFFFF) ++ natLe 1 (b2n r.ovf + 2 * b2n (r.resent != 0)) ++ [0]
  if r.op = 2 ∨ r.op = 4 then
    natLe 8 (((List.range 64).map (fun q =>
      let mine := ms.filter (fun m => m.head.dstBld == q)
      if !mine.isEmpty ∧ mine.all (·.acked) then 2 ^ q else 0)).foldl (· + ·) 0) ++ tail
  else natLe 8 r.sent ++ tail

/-- End a command of the gateway. -/
def endMil (s : State) (q idx status detail : Nat) : State :=
  match s.mil.runs.find? (fun r => r.q == q && r.idx == idx) with
  | none => s
  | some r =>
    let res := milResult r (sendsOf s q idx)
    let s := { s with mil := { s.mil with
      runs := s.mil.runs.filter (fun r => !(r.q == q && r.idx == idx)),
      sends := s.mil.sends.filter (fun m => !(m.q == q && m.idx == idx)) } }
    endCmd s q idx status detail res

/-- A command whose messages are all acknowledged or given up ends. -/
def settleMil (s : State) (q idx : Nat) : State :=
  if (sendsOf s q idx).all (fun m => m.acked || m.dead) then endMil s q idx stOK 0 else s

/-- Send a message's parcels for its command; a source that cannot be read ends it. -/
def sendMsg (s : State) (hits : List Hit) (m : MsgTx) (resend : Bool) (is : List Nat) : State :=
  match sendPieces hits m resend is s with
  | (s, true) => s
  | (s, false) => endMil s m.q m.idx stParity (parityDetail m.src)

/-- RESEND_TIMEOUT (R331): every unacknowledged parcel is sent again, its source read again. A word lost on the way ends the
command (R392). -/
def resendAll (s : State) (q idx : Nat) (sur : Surround) : State :=
  if !s.mil.runs.any (fun r => r.q == q && r.idx == idx) then s
  else match stageWords s (pgMIL 0) (cmdIdOf s q idx) sur.stage with
  | (s, false) => endMil s q idx stParity 10
  | (s, true) =>
    ((sendsOf s q idx).filter (fun m => !m.acked && !m.dead)).foldl (fun s m =>
      if s.mil.runs.any (fun r => r.q == q && r.idx == idx) then sendMsg s sur.hits m true (allPieces m) else s) s

def execResendTimeout (q idx : Nat) (sur : Surround) (s : State) : Host.Outcome State Fault Refusal :=
  onInstance (isQueue q) (whileRunning s (resendAll s q idx sur))

/-! ### Control parcels (R331) -/

/-- The control entry about a message. -/
def entryFor (h : Parcel) (code : Nat) : CtlEntry := ⟨(streamOf h).src, (streamOf h).dst, h.stream, code, h.seq, 0, 0⟩

/-- A control parcel about a message: back to its sender, or on to its receiver. One of the marathon names the rank it comes
from. -/
def ctlParcel (s : State) (h : Parcel) (back : Bool) (es : List CtlEntry) : Parcel :=
  { kind := 6, last := true, stream := h.stream, srcBld := if back then h.dstBld else h.srcBld,
    dstBld := if back then h.srcBld else h.dstBld, srcRank := if isMarathon h then myRank s else if back then h.dstRank else h.srcRank,
    dstRank := if back then h.srcRank else h.dstRank, msgLen := 24 * es.length, sent := timeNow s, body := es.flatMap ctlBytes }

/-- Send a control parcel. -/
def sendCtlParcel (s : State) (h : Parcel) (back : Bool) (es : List CtlEntry) : State :=
  let p := ctlParcel s h back es
  sendHop s (firstHop s p) p

/-- Acknowledge a message. -/
def ackMsg (s : State) (h : Parcel) : State := sendCtlParcel s h true [entryFor h 1]

def evRelayTimeout : Ev := ⟨0x5C04, 3⟩

/-- RELAY_TIMEOUT (R347, R350): a relay, flag or transfer ends and is withdrawn; a baton's or a manifest's destinations that
have not acknowledged are skipped. -/
def relayTimeout (s : State) (q idx : Nat) : State :=
  match s.mil.runs.find? (fun r => r.q == q && r.idx == idx) with
  | none => s
  | some r =>
    if r.op = 2 ∨ r.op = 4 then
      settleMil { s with mil := { s.mil with sends := s.mil.sends.map (fun m =>
        if m.q = q ∧ m.idx = idx ∧ !m.acked then { m with dead := true } else m) } } q idx
    else
      let open' := (sendsOf s q idx).filter (fun m => !m.acked)
      let s := open'.foldl (fun s m =>
        sendCtlParcel (raiseEv s (pgMIL 0) evRelayTimeout [m.head.dstRank, m.head.stream, m.head.seq]) m.head false [entryFor m.head 3]) s
      endMil s q idx stRelayTimeout 0

def execRelayTimeout (q idx : Nat) (s : State) : Host.Outcome State Fault Refusal :=
  onInstance (isQueue q) (whileRunning s (relayTimeout s q idx))

/-- An acknowledge entry (R331), of the building or participant a control parcel comes from. -/
def onAckEntry (s : State) (from' : Nat) (c : CtlEntry) : State :=
  let is := fun (m : MsgTx) =>
    m.head.stream == c.stream && m.head.seq == c.seq && (streamOf m.head).src == c.src && (streamOf m.head).dst == c.dst
      && m.head.dstBld == from'
  match s.mil.sends.find? is with
  | none => s
  | some m =>
    settleMil { s with mil := { s.mil with sends := s.mil.sends.map (fun x => if is x then { x with acked := true } else x) } }
      m.q m.idx

/-- A re-send entry (R331). -/
def onResendEntry (s : State) (hits : List Hit) (from' : Nat) (c : CtlEntry) : State :=
  match s.mil.sends.find? (fun m => m.head.stream == c.stream && m.head.seq == c.seq && (streamOf m.head).src == c.src
      && (streamOf m.head).dst == c.dst && m.head.dstBld == from' && !m.acked && !m.dead) with
  | none => s
  | some m =>
    sendMsg s hits m true ((allPieces m).filter (fun i => decide (c.first ≤ 8192 * i ∧ 8192 * i < c.first + 8192 * c.parcels)))

/-! ### Putting a message together -/

/-- The stream's record at the receiver. -/
def findStream (s : State) (k : StreamKey) : Option StreamRx := s.mil.streams.find? (fun x => x.key == k)
def putStream (s : State) (r : StreamRx) : State :=
  { s with mil := { s.mil with streams := r :: s.mil.streams.filter (fun x => x.key != r.key) } }

/-- The next message to deliver, past those withdrawn or delivered. -/
def nextDue (r : StreamRx) : Nat → Nat → Nat
  | 0, n => n
  | k + 1, n => if r.skipped.contains n || r.done.contains n then nextDue r k (n + 1) else n

/-- Move a stream on. -/
def advance (r : StreamRx) : StreamRx := { r with expected := nextDue r (r.skipped.length + r.done.length) r.expected }

/-- Open a stream at its first parcel; the sender's restart, told by a first message of another time, begins it anew. A
stream known by a withdrawal only keeps what was withdrawn (R347). -/
def openStream (s : State) (p : Parcel) : State :=
  let k := streamOf p
  match findStream s k with
  | none => putStream s { key := k, began := p.sent, expected := p.seq }
  | some r =>
    if r.began = 0 then putStream s (advance { r with began := p.sent, expected := min p.seq r.expected })
    else if !p.first ∨ r.began = p.sent then s
    else if p.sent < r.began then putStream s { r with began := p.sent, expected := p.seq }
    else
      let s := { s with mil := { s.mil with msgs := s.mil.msgs.filter (fun m => streamOf m.head != k) } }
      putStream s { key := k, began := p.sent, expected := p.seq }

/-- A message has been delivered. -/
def wasDelivered (r : StreamRx) (kind seq : Nat) : Bool := r.done.contains seq || (kind == 1 && decide (seq < r.expected))

/-- The message a parcel belongs to. -/
def ofMsg (p : Parcel) (m : MsgRx) : Bool := streamOf m.head == streamOf p && m.head.seq == p.seq

/-- A parcel whose identity is held already: dropped and counted (R330). -/
def countDuplicate (s : State) : State := { s with mil := { s.mil with duplicates := s.mil.duplicates + 1 } }

/-- Take a parcel of a message (R330, R331): a parcel already held is dropped, one of a delivered message is acknowledged
again, one of a withdrawn message is discarded. -/
def collect (s : State) (n : Nat) (p : Parcel) : State :=
  let s := openStream s p
  match findStream s (streamOf p) with
  | none => s
  | some r =>
    if r.skipped.contains p.seq then s
    else if wasDelivered r p.kind p.seq then ackMsg (countDuplicate s) p
    else
      let s := if s.mil.msgs.any (fun m => ofMsg p m && m.parts.any (fun x => x.1 == p.offset)) then countDuplicate s else s
      let msgs := if s.mil.msgs.any (ofMsg p) then s.mil.msgs.map (fun m =>
            if ofMsg p m ∧ !m.parts.any (fun x => x.1 == p.offset) then { m with parts := tput p.offset p.body m.parts } else m)
        else s.mil.msgs ++ [{ head := { p with body := [], offset := 0, resend := false }, parts := [(p.offset, p.body)], port := n }]
      { s with mil := { s.mil with msgs := msgs } }

/-- Every byte of a message is held. -/
def MsgRx.complete (m : MsgRx) : Bool := (m.parts.map (fun x => x.2.length)).foldl (· + ·) 0 == m.head.msgLen

/-- The bytes of a message. -/
def MsgRx.bytes (m : MsgRx) : List Byte := m.parts.flatMap (·.2)

/-- A message may be delivered now: relay messages only in the order of their stream (R22, R346). -/
def msgDue (s : State) (m : MsgRx) : Bool :=
  m.complete && (m.head.kind != 1 || ((findStream s (streamOf m.head)).map (fun r => (advance r).expected)) == some m.head.seq)

/-- A message is delivered: its parcels go, and its stream moves on. -/
def markDelivered (s : State) (h : Parcel) : State :=
  let s := { s with mil := { s.mil with msgs := s.mil.msgs.filter (fun m => !ofMsg h m) } }
  match findStream s (streamOf h) with
  | none => s
  | some r => putStream s (advance { advance r with done := (h.seq :: r.done).take 8192 })

/-- A withdraw entry (R331, R347): the message's parcels go and its number is skipped; one already delivered stays. -/
def onWithdrawEntry (s : State) (dest : Nat) (c : CtlEntry) : State :=
  let k : StreamKey := ⟨c.stream, c.src, c.dst, dest⟩
  match findStream s k with
  | none => putStream s { key := k, began := 0, expected := c.seq + 1, skipped := [c.seq] }
  | some r =>
    if r.done.contains c.seq ∨ (c.stream < 0xFFFE ∧ c.seq < r.expected) then s
    else
      putStream { s with mil := { s.mil with msgs := s.mil.msgs.filter (fun m => !(streamOf m.head == k && m.head.seq == c.seq)) } }
        (advance { r with skipped := c.seq :: r.skipped })

/-! ### Abandoned groups (R333) -/

/-- The runs of parcels a message in reassembly lacks: the first parcel and how many. -/
def holesOf (m : MsgRx) : List (Nat × Nat) :=
  ((List.range (parcelCount m.head.msgLen)).filter (fun i => !m.parts.any (fun x => x.1 == 8192 * i))).foldl (fun acc i =>
    match acc.getLast? with
    | some (a, k) => if a + k = i then acc.dropLast ++ [(a, k + 1)] else acc ++ [(i, 1)]
    | none => [(i, 1)]) []

/-- A message in transit has been seen whole. -/
def MsgRx.passed (m : MsgRx) : Bool := decide (parcelCount m.head.msgLen ≤ m.parts.length)

/-- A port hands a parcel on (R331, R333): the message's offsets seen are noted until all are, so that what an abandoned
group loses can be asked for. A re-sent parcel opens no new note. -/
def noteTransit (s : State) (n : Nat) (p : Parcel) : State :=
  if p.kind = 6 ∨ !isMilPort n then s
  else
    let ms := s.mil.transit
    let ms := if ms.any (ofMsg p) then ms.map (fun m => if ofMsg p m then { m with parts := tput p.offset [] m.parts } else m)
      else if p.resend then ms
      else ms ++ [{ head := { p with body := [], offset := 0, resend := false }, parts := [(p.offset, [])], port := n }]
    { s with mil := { s.mil with transit := ms.filter (fun m => !m.passed) } }

/-- A control parcel handed on ends the notes of the messages it acknowledges or withdraws (R331). -/
def endTransit (s : State) (p : Parcel) : State :=
  let es := if p.kind = 6 then (ctlEntries p.body).filter (fun c => c.code != 2) else []
  { s with mil := { s.mil with transit := s.mil.transit.filter (fun m =>
    !es.any (fun c => c.stream == m.head.stream && c.seq == m.head.seq && c.src == (streamOf m.head).src
      && c.dst == (streamOf m.head).dst)) } }

/-- Ask for the parcels a message lacks. -/
def askResend (s : State) (m : MsgRx) : State :=
  let es := (holesOf m).map (fun h => { entryFor m.head 2 with parcels := h.2, first := 8192 * h.1 })
  if es = [] then s else sendCtlParcel s m.head true es

/-- GROUP_WAIT_EXPIRY (R333): a group not resolved is abandoned, and what it cost is asked for again, of messages put together
here and of those handed on. -/
def groupWait (s : State) (n pnFirst : Nat) : State :=
  match (milPort s n).groups.find? (fun g => g.pnFirst == pnFirst && !g.closed) with
  | none => s
  | some g =>
    let miss := (missingOf (milPort s n) g).length
    let s := satF (closeRx s n g) (MIL_GROUPS_high n) 1
    let s := raiseEv s (pgMIL n) evGroupAbandoned [n, pnFirst, miss]
    ((s.mil.msgs ++ s.mil.transit).filter (fun m => m.port == n)).foldl askResend s

def execGroupWaitExpiry (port pnFirst : Nat) (s : State) : Host.Outcome State Fault Refusal :=
  onInstance (isMilPort port) (whileRunning s (groupWait s port pnFirst))

end Sys2Proof.Machine
end

