-- ==== Sys2Proof/Machine/Dma.lean ====
section
/-! DEFINITION. DMA.COPY (09_memory R231-R235): rows moved between memories over the lanes a command names, through the
Cabouz codec where it asks. -/

namespace Sys2Proof.Machine

/-- The operand block of R231. -/
structure DmaOp where
  src : Nat
  dst : Nat
  rows : Nat
  rowBytes : Nat
  srcPitch : Nat
  dstPitch : Nat
  /-- 0 none, 1 encode, 2 decode, 3 reserved. -/
  mode : Nat
  slot : Nat
  fmt : Nat
  deriving DecidableEq, Repr

def dmaOpOf (b : List Byte) : DmaOp :=
  { src := leAt b 0 8, dst := leAt b 8 8, rows := leAt b 16 4, rowBytes := leAt b 20 4, srcPitch := 64 * leAt b 24 4,
    dstPitch := 64 * leAt b 28 4, mode := leAt b 32 1 % 4, slot := bitsOf (leAt b 32 1) 2 4, fmt := leAt b 33 1 % 16 }

/-- The largest block of 2,048 elements (R238). -/
def maxBlock : Nat := 4160

/-- Bytes a side's row may take: raw, or the most its coded blocks can. -/
def dmaRowMost (o : DmaOp) (coded : Bool) : Nat := if coded then o.rowBytes / 4096 * maxBlock else o.rowBytes

/-- A side's rows lie in one memory (R214): a register page or a lap counter is not memory. -/
def dmaSideOk (o : DmaOp) (addr pitch : Nat) (coded : Bool) : Bool :=
  let a := if isGlobal addr then localPart addr else addr
  inMemory a 1 && inMemory a ((o.rows - 1) * pitch + dmaRowMost o coded)

/-- The checks of R234, in its order. -/
def dmaCheck (b : List Byte) (o : DmaOp) : Option (Nat × Nat) :=
  if (isGlobal o.src && isGlobal o.dst) || !dmaSideOk o o.src o.srcPitch (o.mode == 2) || !dmaSideOk o o.dst o.dstPitch (o.mode == 1) then
    some (stMalformed, 4)
  else if o.rows = 0 ∨ 16777215 < o.rows ∨ o.rowBytes < 64 ∨ 16777152 < o.rowBytes ∨ o.rowBytes % 64 ≠ 0
      ∨ (o.mode ≠ 0 ∧ o.rowBytes % 4096 ≠ 0) then some (stMalformed, 3)
  else if o.srcPitch < dmaRowMost o (o.mode == 2) ∨ o.dstPitch < dmaRowMost o (o.mode == 1) then some (stMalformed, 4)
  else if o.mode = 3 ∨ leAt b 32 1 / 64 ≠ 0 ∨ leAt b 33 1 / 16 ≠ 0 ∨ !zeroAt b 35 29
      ∨ (if o.mode = 0 then o.fmt ≠ 0 else o.fmt ≠ 4 ∧ o.fmt ≠ 7) then some (stMalformed, 12)
  else none

/-- Dispatch (R234, R249, R254): the block is checked, and an encode takes its slot's current bank. -/
def dmaPlace (sur : Surround) (s : State) (e : CmdEntry) : State :=
  let s := placeCmd s e
  let s0 := s
  let fail := fun (s : State) (r : Nat × Nat) => endAllParts s e.q e.idx r.1 r.2 []
  match readBlock s sur.hits e 64 64 with
  | (s, none) => fail s (stMalformed, 7)
  | (s, some b) =>
    let o := dmaOpOf b
    match dmaCheck b o with
    | some r => fail s r
    | none =>
      let t := cbzSlot s o.slot
      if o.mode = 1 ∧ !t.hasCurrent then fail s (stMalformed, 13)
      else
        let keep := fun (s' : State) (h : Option (Nat × Nat)) => match findCmd s' e.q e.idx with
          | some e => putCmd s' { e with opnd := b, held := h, progress := b2n (rereadSince s s0) }
          | none => s'
        if o.mode = 1 then keep (takeRef s o.slot t.curGen) (some (o.slot, t.curGen)) else keep s none

/-- What a run has counted (R235). -/
structure DmaAcc where
  coded : Nat := 0
  blocks : Nat := 0
  raws : Nat := 0
  reread : Bool := false

/-- What a run moves between. -/
structure DmaRun where
  o : DmaOp
  e : CmdEntry
  sur : Surround
  srcDev : Option Nat
  dstDev : Option Nat
  src : Nat
  dst : Nat

/-- End a lane's part, where a read or a write failed. -/
def dmaFail (p : DmaRun) (s : State) (l : Nat) (r : Nat × Nat) : State := endPart s p.e.q p.e.idx l r.1 r.2

/-- Read of the source side for lane l's row. -/
def dmaRead (p : DmaRun) (l : Nat) (s : State) (a n : Nat) : State × Except (Nat × Nat) (List Byte) :=
  anyRead s p.sur p.e.q p.e.idx 2 (.lane l) p.srcDev a n

/-- Write of the destination side for lane l's row. -/
def dmaWrite (p : DmaRun) (l : Nat) (s : State) (a : Nat) (bs : List Byte) : State × Option (Nat × Nat) :=
  anyWrite s p.sur p.e.q p.e.idx 2 (.lane l) p.dstDev a bs

/-- Move one raw unit of a row, or encode one block of it: the destination address after it. -/
def dmaUnit (p : DmaRun) (l : Nat) (enc : Option (Table Nat × Nat)) (from' : Nat) (st : State × DmaAcc × Nat) (u : Nat × Nat) :
    State × DmaAcc × Nat :=
  let (s, acc, dst) := st
  if !partOpen s p.e.q p.e.idx l then st
  else
    let a := from' + u.1
    match dmaRead p l s a u.2 with
    | (s, .error r) => (dmaFail p s l r, acc, dst)
    | (s, .ok bs) =>
      let (out, acc, s) := match enc with
        | none => (bs, acc, s)
        | some (t, gen) =>
          let (blk, raw) := encodeL1 t (fmtL1 p.o.fmt) p.o.slot gen (elems16 bs)
          (blk, { acc with coded := acc.coded + blk.length, blocks := acc.blocks + 1, raws := acc.raws + b2n raw },
            countEncoded s raw)
      match dmaWrite p l s dst out with
      | (s, none) => (s, acc, dst + out.length)
      | (s, some r) => (dmaFail p s l r, acc, dst)

/-- Decode the next block of a row: the source address after it (R233, R245, R246). -/
def dmaDecode (p : DmaRun) (l : Nat) (dst : Nat) (st : State × DmaAcc × Nat) (k : Nat) : State × DmaAcc × Nat :=
  let (s, acc, a) := st
  if !partOpen s p.e.q p.e.idx l then st
  else
    match dmaRead p l s a 64 with
    | (s, .error r) => (dmaFail p s l r, acc, a)
    | (s, .ok head) =>
      let full := match p.srcDev with | none => a | some d => globalAddr d a
      let flaky := flakyAt p.sur full
      match checkHead head (fmtL1 p.o.fmt) 2048 with
      | .error d =>
        (dmaFail p (judgeBlock s full p.e.cmdId head flaky (some d)) l (stDamaged, d), { acc with reread := true }, a)
      | .ok h =>
        let n := blockSize h
        let acc := { acc with reread := acc.reread || flaky.isSome }
        match dmaRead p l s (a + 64) (n - 64) with
        | (s, .error r) => (dmaFail p s l r, acc, a)
        | (s, .ok rest) =>
          match decodeL1 s h (head ++ rest) with
          | .error d =>
            (dmaFail p (judgeBlock s full p.e.cmdId head flaky (some d)) l (stDamaged, d), { acc with reread := true }, a)
          | .ok xs =>
            let s := judgeBlock s full p.e.cmdId head flaky none
            let acc := { acc with coded := acc.coded + n, blocks := acc.blocks + 1, raws := acc.raws + b2n h.raw }
            match dmaWrite p l s (dst + 4096 * k) (xs.flatMap (natLe 2)) with
            | (s, none) => (s, acc, a + n)
            | (s, some r) => (dmaFail p s l r, acc, a)

/-- The units a raw row moves in: 64-byte lines here, requests of up to 4,096 bytes where a side is a partner's. -/
def dmaUnits (p : DmaRun) : List (Nat × Nat) :=
  if p.srcDev.isSome || p.dstDev.isSome then pieces p.o.rowBytes
  else (List.range (p.o.rowBytes / 64)).map (fun i => (64 * i, 64))

/-- One row, on its lane (R232). -/
def dmaRow (p : DmaRun) (st : State × DmaAcc) (r : Nat) : State × DmaAcc :=
  let l := p.e.firstLane + r % p.e.laneCount
  let src := p.src + r * p.o.srcPitch
  let dst := p.dst + r * p.o.dstPitch
  if p.o.mode = 2 then
    let (s, acc, _) := (List.range (p.o.rowBytes / 4096)).foldl (dmaDecode p l dst) (st.1, st.2, src)
    (s, acc)
  else
    let enc := if p.o.mode = 0 then none else match p.e.held with
      | some (n, gen) => ((cbzSlot st.1 n).lengths gen).map (fun t => (t, gen))
      | none => none
    let us := if p.o.mode = 0 then dmaUnits p else (List.range (p.o.rowBytes / 4096)).map (fun i => (4096 * i, 4096))
    let (s, acc, _) := us.foldl (dmaUnit p l enc src) (st.1, st.2, dst)
    (s, acc)

/-- Some source row and some destination row share bytes (R232). -/
def dmaOverlaps (p : DmaRun) : Bool :=
  let ns := dmaRowMost p.o (p.o.mode == 2)
  let nd := dmaRowMost p.o (p.o.mode == 1)
  let spanS := (p.o.rows - 1) * p.o.srcPitch + ns
  let spanD := (p.o.rows - 1) * p.o.dstPitch + nd
  p.srcDev.isNone && p.dstDev.isNone && decide (p.src < p.dst + spanD ∧ p.dst < p.src + spanS)
    && (List.range p.o.rows).any (fun i => (List.range p.o.rows).any (fun j =>
      decide (p.src + i * p.o.srcPitch < p.dst + j * p.o.dstPitch + nd ∧ p.dst + j * p.o.dstPitch < p.src + i * p.o.srcPitch + ns)))

/-- The result bytes of R235. -/
def dmaResult (acc : DmaAcc) (replayed : Bool) : List Byte :=
  natLe 4 (min (acc.coded / 64) (2 ^ 32 - 1)) ++ natLe 4 (acc.blocks % 2 ^ 32) ++ natLe 2 (min acc.raws 0xFFFF)
    ++ natLe 1 (b2n replayed + 2 * b2n acc.reread) ++ [0]

/-- Run a DMA.COPY that is first on its lanes. Overlapping ranges leave the destination rows unspecified. -/
def dmaBody (sur : Surround) (s : State) (e : CmdEntry) : State :=
  let o := dmaOpOf e.opnd
  let (sd, sa) := deviceOf s o.src
  let (dd, da) := deviceOf s o.dst
  let p : DmaRun := ⟨o, e, sur, sd, dd, sa, da⟩
  let s0 := s
  let s := loseParts s e sur.laneHits
  let (s, acc) := (List.range o.rows).foldl (dmaRow p) (s, {})
  let s := if dmaOverlaps p then
      (List.range o.rows).foldl (fun s r => scramble s (da + r * o.dstPitch) (dmaRowMost o (o.mode == 1))) s
    else s
  endAllParts s e.q e.idx stOK 0 (dmaResult acc (bitOf e.progress 0 || rereadSince s0 s))

/-- A command waits for room in the transaction table before its first remote request (R104). -/
def dmaMayRun (s : State) (e : CmdEntry) : Bool :=
  let o := dmaOpOf e.opnd
  ((deviceOf s o.src).1.isNone && (deviceOf s o.dst).1.isNone) || txnRoom s 2

/-- DMA.COPY is dispatched, and runs once it is first on all its lanes. -/
def dmaStep (s : State) (q idx : Nat) (sur : Surround) : State :=
  let ok := fun (e : CmdEntry) => e.opcode == 0x0201
  let s := onDispatch s q idx ok sur (dmaPlace sur)
  match findCmd s q idx with
  | none => s
  | some e =>
    if ok e ∧ e.stage = .placed ∧ atFront s e ∧ dmaMayRun s e then
      let e := { e with stage := .running }
      dmaBody sur (putCmd s e) e
    else s

/-- DMA_COPY (R232). -/
def execDmaCopy (q idx : Nat) (sur : Surround) (s : State) : Host.Outcome State Fault Refusal :=
  onInstance (isQueue q) (dmaStep s q idx sur)

end Sys2Proof.Machine
end

