-- ==== Sys2Proof/Machine/Shards.lean ====
section
/-! DEFINITION. Shards, slots and commit records (13_training_state R302-R307), and the arithmetic of a sweep on the bytes
of one shard (R309-R313). -/

namespace Sys2Proof.Machine

/-! ### The tables of R307 -/

/-- The operand block of UPD.SWEEP. -/
structure UpdOp where
  table : Nat
  layer : Nat
  shards : Nat
  step : Nat
  mode : Nat
  redo : Bool
  nesterov : Bool
  keepLocal : Bool
  copies : Bool
  gscale : Word
  bc1 : Word
  bc2 : Word
  round : Nat
  deriving DecidableEq, Repr

/-- A 32-bit field. -/
def wordAt (b : List Byte) (o : Nat) : Word := BitVec.ofNat 32 (leAt b o 4)

def updOpOf (b : List Byte) : UpdOp where
  table := leAt b 0 8
  layer := leAt b 8 8
  shards := leAt b 16 4
  step := leAt b 20 4
  mode := leAt b 24 1
  redo := bitOf (leAt b 25 1) 0
  nesterov := bitOf (leAt b 25 1) 1
  keepLocal := bitOf (leAt b 25 1) 2
  copies := bitOf (leAt b 25 1) 3
  gscale := wordAt b 28
  bc1 := wordAt b 32
  bc2 := wordAt b 36
  round := leAt b 40 4

/-- A shard descriptor. -/
structure Shard where
  base : Nat
  commit : Nat
  grad : Nat
  aux : Nat
  row0 : Nat
  rows : Nat
  col0 : Nat
  cols : Nat
  tensor : Nat
  layer : Nat
  slotStride : Nat
  gradStride : Nat
  owner : Nat
  gradFmt : Nat
  last : Nat
  deriving DecidableEq, Repr

def shardOf (b : List Byte) : Shard where
  base := leAt b 0 8
  commit := leAt b 8 8
  grad := leAt b 16 8
  aux := leAt b 24 8
  row0 := leAt b 32 4
  rows := leAt b 36 4
  col0 := leAt b 40 4
  cols := leAt b 44 4
  tensor := leAt b 48 2
  layer := leAt b 50 2
  slotStride := 64 * leAt b 52 4
  gradStride := 64 * leAt b 56 4
  owner := leAt b 60 2
  gradFmt := leAt b 62 1
  last := leAt b 63 1

def Shard.count (d : Shard) : Nat := d.rows * d.cols

/-- The parameters of a layer. -/
structure Layer where
  lr : Word
  wd : Word
  beta1 : Word
  beta2 : Word
  eps : Word
  mu : Word
  outerLr : Word
  outerMu : Word

def layerOf (b : List Byte) : Layer :=
  ⟨wordAt b 0, wordAt b 4, wordAt b 8, wordAt b 12, wordAt b 16, wordAt b 20, wordAt b 24, wordAt b 28⟩

/-! ### Slots (R304) -/

/-- Bytes of the weights, the first and the second moment of a slot, without pad: mode 0 AdamW, 1 momentum, 2 outer. -/
def weightBytes (mode : Nat) (k5 : Bool) (n : Nat) : Nat := if mode = 2 ∨ k5 then 4 * n else 2 * n
def firstBytes (mode : Nat) (k5 : Bool) (n : Nat) : Nat := if mode = 2 ∨ k5 then 4 * n else n + n / 32
def secondBytes (mode : Nat) (k5 : Bool) (n : Nat) : Nat := if mode ≠ 0 then 0 else if k5 then 4 * n else n

/-- The areas' offsets in a slot, and a slot's size. -/
def firstOff (mode : Nat) (k5 : Bool) (n : Nat) : Nat := roundUp (weightBytes mode k5 n) 64
def secondOff (mode : Nat) (k5 : Bool) (n : Nat) : Nat := firstOff mode k5 n + roundUp (firstBytes mode k5 n) 64
def slotBytesOf (mode : Nat) (k5 : Bool) (n : Nat) : Nat := secondOff mode k5 n + roundUp (secondBytes mode k5 n) 64

/-- Slot n of a shard. -/
def Shard.slotAt (d : Shard) (n : Nat) : Nat := d.base + n * d.slotStride

/-! ### The commit record (R305) -/

/-- A commit record. -/
structure CommitRec where
  version : Nat
  slot : Nat
  mode : Nat
  skipped : Bool
  suspect : Bool
  imported : Bool
  k5 : Bool
  step : Nat
  wDigest : Nat
  mDigest : Nat
  epoch : Nat
  loss : Nat
  used : Nat
  clean : Nat
  ue : Int
  count : Nat
  tensor : Nat
  layer : Nat
  stamp : Nat
  deriving DecidableEq, Repr

def commitOf (b : List Byte) : CommitRec where
  version := leAt b 0 1
  slot := leAt b 1 1 % 2
  mode := leAt b 2 1
  skipped := bitOf (leAt b 3 1) 0
  suspect := bitOf (leAt b 3 1) 1
  imported := bitOf (leAt b 3 1) 2
  k5 := bitOf (leAt b 3 1) 3
  step := leAt b 4 4
  wDigest := leAt b 8 8
  mDigest := leAt b 16 8
  epoch := leAt b 24 2
  loss := leAt b 26 1
  used := leAt b 27 1
  clean := leAt b 28 2
  ue := signed 8 (leAt b 30 1)
  count := leAt b 32 4
  tensor := leAt b 36 2
  layer := leAt b 38 2
  stamp := leAt b 40 8

/-- The 64 bytes of a record, its CRC formed. -/
def commitBytes (r : CommitRec) : List Byte :=
  let body := natLe 1 r.version ++ natLe 1 r.slot ++ natLe 1 r.mode
    ++ natLe 1 (b2n r.skipped + 2 * b2n r.suspect + 4 * b2n r.imported + 8 * b2n r.k5)
    ++ natLe 4 r.step ++ natLe 8 r.wDigest ++ natLe 8 r.mDigest ++ natLe 2 r.epoch ++ natLe 1 r.loss ++ natLe 1 r.used
    ++ natLe 2 r.clean ++ natLe 1 (unsigned 8 r.ue) ++ [0] ++ natLe 4 r.count ++ natLe 2 r.tensor ++ natLe 2 r.layer
    ++ natLe 8 r.stamp ++ List.replicate 12 0
  body ++ natLe 4 (crc32c body)

/-- A record passes its CRC; version 0 is no record. -/
def commitGood (b : List Byte) : Bool := leAt b 0 1 == 1 && leAt b 60 4 == crc32c (b.take 60)

/-! ### The arithmetic of a shard (R310-R313) -/

/-- binary32 1.0. -/
def one32 : Word := 0x3F800000

/-- Element i of an area of binary32 words. -/
def f32At (b : List Byte) (i : Nat) : Word := wordAt b (4 * i)

/-- Element i of a weights area. -/
def weightAt (k5 : Bool) (b : List Byte) (i : Nat) : Word := if k5 then f32At b i else e32 (fpDecode bf16 (leAt b (2 * i) 2))

/-- The stored first moment of element i: BS8 as one row of n elements, or binary32 in K5 emulation. -/
def firstAt (k5 : Bool) (n : Nat) (b : List Byte) (i : Nat) : Word := if k5 then f32At b i else e32 (elemAt 0 n 0 b i)

/-- The stored second moment of element i. -/
def secondAt (k5 : Bool) (b : List Byte) (i : Nat) : Word := if k5 then f32At b i else e32 (ul8Decode (leAt b i 1))

/-- The gradient of element i, scaled back and by gscale. -/
def gradAt (o : UpdOp) (fmt used : Nat) (b : List Byte) (i : Nat) : Word :=
  let v := if fmt = 7 then fpDecode f16 (leAt b (2 * i) 2) else v32 (f32At b i)
  fmul (e32 (fpScale (-(used : Int)) v)) o.gscale

/-- The moments of a list as they are stored. -/
def storeFirst (k5 : Bool) (n : Nat) (ms : List Word) : List Byte :=
  if k5 then ms.flatMap (fun m => natLe 4 m.toNat) else (encodeRow 0 none (ms.map v32)).bytes.take (n + n / 32)
def storeSecond (k5 : Bool) (vs : List Word) : List Byte :=
  if k5 then vs.flatMap (fun v => natLe 4 v.toNat) else vs.map (fun v => BitVec.ofNat 8 (ul8Encode v).1)

/-- What pass 1 reads: the committed areas and the gradient. -/
structure SweepIn where
  w : List Byte
  m1 : List Byte
  m2 : List Byte
  g : List Byte
  used : Nat

/-- What a sweep forms: the new areas, the update exponent (none in K5 emulation) and the non-finite count. -/
structure SweepVals where
  w : List Byte
  m1 : List Byte
  m2 : List Byte
  ue : Option Int
  nonfinite : Nat
  deriving DecidableEq

/-- AdamW's new moments (R310, pass 1). -/
def adamMoments (o : UpdOp) (y : Layer) (fmt n : Nat) (k5 : Bool) (x : SweepIn) : List Byte × List Byte :=
  let g := gradAt o fmt x.used x.g
  let ms := (List.range n).map (fun i => ffma y.beta1 (firstAt k5 n x.m1 i) (fmul (fsub one32 y.beta1) (g i)))
  let vs := (List.range n).map (fun i => ffma y.beta2 (secondAt k5 x.m2 i) (fmul (fsub one32 y.beta2) (fmul (g i) (g i))))
  (storeFirst k5 n ms, storeSecond k5 vs)

/-- AdamW's update of element i from the moments as stored. -/
def adamUpdate (o : UpdOp) (y : Layer) (n : Nat) (k5 : Bool) (m1 m2 w : List Byte) (i : Nat) : Word :=
  let mh := fmul (firstAt k5 n m1 i) o.bc1
  let vh := fmul (secondAt k5 m2 i) o.bc2
  fmul y.lr (fadd (fdiv mh (fadd (fsqrt vh) y.eps)) (fmul y.wd (weightAt k5 w i)))

/-- Momentum SGD's gradient with decay. -/
def decayed (o : UpdOp) (y : Layer) (fmt : Nat) (k5 : Bool) (x : SweepIn) (i : Nat) : Word :=
  fadd (gradAt o fmt x.used x.g i) (fmul y.wd (weightAt k5 x.w i))

/-- Momentum SGD's new moment (R310). -/
def sgdMoment (o : UpdOp) (y : Layer) (fmt n : Nat) (k5 : Bool) (x : SweepIn) : List Byte :=
  storeFirst k5 n ((List.range n).map (fun i => ffma y.mu (firstAt k5 n x.m1 i) (decayed o y fmt k5 x i)))

/-- Momentum SGD's update of element i. -/
def sgdUpdate (o : UpdOp) (y : Layer) (fmt n : Nat) (k5 : Bool) (m1 : List Byte) (x : SweepIn) (i : Nat) : Word :=
  let bh := firstAt k5 n m1 i
  let gd := decayed o y fmt k5 x i
  fmul y.lr (if o.nesterov then ffma y.mu bh gd else bh)

/-- The update exponent of R311. -/
def updateExp (us : List Word) : Int :=
  let umax := amaxOf (us.map v32)
  if umax.isZero then -128
  else
    let ue := fpLog2 umax - 14
    max (if 32767 < roundTa umax ue then ue + 1 else ue) (-128)

/-- The logical row and column of an element (R302). -/
def Shard.rowOf (d : Shard) (i : Nat) : Nat := d.row0 + i / d.cols
def Shard.colOf (d : Shard) (i : Nat) : Nat := d.col0 + i % d.cols

/-- The new bfloat16 weight of an element with a finite update (R311, pass 2). -/
def newWeight (seed : Dword) (step : Nat) (d : Shard) (ue : Int) (w u : Nat) (i : Nat) : Nat :=
  let U := clampInt (-32767) 32767 (roundTa (fpDecode f32 u) ue)
  match fpAdd (fpDecode bf16 w) (fpNeg (fpOfInt U ue)) with
  | .fin neg m e =>
    if m = 0 then (if U = 0 then w else 0)
    else srRound bf16 neg m e (rbits seed 1 step d.tensor (d.rowOf i) (d.colOf i) 0)
  | v => fpEncode bf16 v

/-- The new weights: stochastic and by the update exponent, or to nearest in K5 emulation (R311, R313). -/
def newWeights (seed : Dword) (step : Nat) (d : Shard) (k5 : Bool) (ue : Int) (w : List Byte) (us : List Word) : List Byte :=
  us.mapIdx (fun i u =>
    if nonFinite32 u then (if k5 then bytesAt w (4 * i) 4 else bytesAt w (2 * i) 2)
    else if k5 then natLe 4 (fsub (f32At w i) u).toNat
    else natLe 2 (newWeight seed step d ue (leAt w (2 * i) 2) u.toNat i)) |>.flatten

/-- A whole owner-mode sweep of one shard's bytes. -/
def sweepVals (seed : Dword) (o : UpdOp) (y : Layer) (d : Shard) (k5 : Bool) (x : SweepIn) : SweepVals :=
  let n := d.count
  let (m1, m2) := if o.mode = 0 then adamMoments o y d.gradFmt n k5 x else (sgdMoment o y d.gradFmt n k5 x, [])
  let us := (List.range n).map (fun i =>
    if o.mode = 0 then adamUpdate o y n k5 m1 m2 x.w i else sgdUpdate o y d.gradFmt n k5 m1 x i)
  let ue := updateExp (us.filter (fun u => !nonFinite32 u))
  { w := newWeights seed o.step d k5 ue x.w us, m1 := m1, m2 := m2, ue := if k5 then none else some ue,
    nonfinite := (us.filter nonFinite32).length }

/-- The outer step of R312 on an anchor shard and its inner weights: the anchor, the outer momentum, the inner weights,
and the non-finite count. -/
def outerVals (o : UpdOp) (y : Layer) (n : Nat) (k5 : Bool) (anchor mom diff w : List Byte) : List Byte × List Byte × List Byte × Nat :=
  let el := fun (i : Nat) =>
    let A := f32At anchor i
    let M := f32At mom i
    let D := f32At diff i
    let wi := weightAt k5 w i
    if nonFinite32 D then (A, M, if k5 then bytesAt w (4 * i) 4 else bytesAt w (2 * i) 2)
    else
      let M' := ffma y.outerMu M D
      let A' := ffma y.outerLr (ffma y.outerMu M' D) A
      let v := if o.keepLocal then fadd A' (fsub wi A) else A'
      (A', M', if k5 then natLe 4 v.toNat else natLe 2 (fpEncode bf16 (v32 v)))
  let es := (List.range n).map el
  (es.flatMap (fun e => natLe 4 e.1.toNat), es.flatMap (fun e => natLe 4 e.2.1.toNat), es.flatMap (·.2.2),
    ((List.range n).filter (fun i => nonFinite32 (f32At diff i))).length)

/-- The loss fields of a step's record (R309): loss_log2, clean, and whether it grew. -/
def lossNext (p : CommitRec) (flag : Bool) (grow : Nat) : Nat × Nat × Bool :=
  if flag then (p.loss - 1, 0, false)
  else if grow ≤ p.clean + 1 then (min (p.loss + 1) 24, 0, decide (p.loss < 24))
  else (p.loss, p.clean + 1, false)

end Sys2Proof.Machine
end

