-- ==== Sys2Proof/Machine/Update.lean ====
section
/-! DEFINITION. The update engine (13_training_state R307-R318, R324-R326): owner sweeps, redo, fetch and audit. -/

namespace Sys2Proof.Machine

def evStepSkipped : Ev := ⟨0x4C01, 1⟩
def evScaleGrown : Ev := ⟨0x4C02, 1⟩
def evDigestMismatch : Ev := ⟨0x4C03, 3⟩
def evRedoDone : Ev := ⟨0x4C04, 1⟩
def evRedoFailed : Ev := ⟨0x4C05, 3⟩
def evImportIncomplete : Ev := ⟨0x4C06, 3⟩
def evRecordBad : Ev := ⟨0x4C07, 3⟩

/-- A reading that may end a shard with a status and a detail. -/
abbrev Reading (α : Type) : Type := State × Except (Nat × Nat) α

/-- Go on with what was read. -/
def Reading.andThen {α β : Type} (r : Reading α) (f : State → α → Reading β) : Reading β :=
  match r.2 with
  | .ok v => f r.1 v
  | .error e => (r.1, .error e)

/-- A command of the update engine as it runs. -/
structure UpdCtx where
  q : Nat
  idx : Nat
  epoch : Nat
  o : UpdOp
  sur : Surround

/-- Read this module's own memory. -/
def updRead (c : UpdCtx) (s : State) (a n : Nat) : Reading (List Byte) := anyRead s c.sur c.q c.idx 2 .network none a n

/-- Read the owner's memory, with the answers of this reading. -/
def ownerRead (c : UpdCtx) (answers : List Answer) (s : State) (dev : Option Nat) (a n : Nat) : Reading (List Byte) :=
  anyRead s { c.sur with answers := answers } c.q c.idx 2 .network dev a n

/-- Write this module's own memory. -/
def updWrite (c : UpdCtx) (s : State) (a : Nat) (bs : List Byte) : Reading Unit :=
  match anyWrite s c.sur c.q c.idx 2 .network none a bs with
  | (s, none) => (s, .ok ())
  | (s, some r) => (s, .error r)

/-- A shard ends with a status: what it has counted stands (R324). -/
def shardEnd (v : ShardOut) (st d : Nat) : ShardOut := { v with pend := false, status := st, detail := d }

/-- A reading that ends its shard keeps what the shard has counted. -/
def Reading.orEnd (v : ShardOut) (r : Reading ShardOut) : Reading ShardOut :=
  match r.2 with
  | .ok _ => r
  | .error e => (r.1, .ok (shardEnd v e.1 e.2))

/-- What a reading comes to for its shard, which had come to v. -/
def settleShard (v : ShardOut) (r : Reading ShardOut) : State × ShardOut :=
  match r.2 with
  | .ok o => (r.1, o)
  | .error e => (r.1, shardEnd v e.1 e.2)

/-! ### Descriptors and records -/

/-- A range of local memory, 64-byte aligned. -/
def alignedIn (a n : Nat) : Bool := a % 64 == 0 && inMemory a (max 1 n)

/-- The rectangle of a descriptor is in range (R307). -/
def rectOk (d : Shard) : Bool :=
  decide (1 ≤ d.rows ∧ d.rows ≤ 16777215 ∧ d.cols % 32 = 0 ∧ 0 < d.cols ∧ d.col0 % 32 = 0 ∧ d.count ≤ 67108864)
    && decide (d.layer ≤ 1023) && d.last == 0

/-- Both slots of a descriptor lie in local memory, and the record in the cellar. -/
def ownerOk (mode : Nat) (k5 : Bool) (d : Shard) : Bool :=
  rectOk d && d.owner == 0 && decide (slotBytesOf mode k5 d.count ≤ d.slotStride)
    && alignedIn d.base (d.slotStride + slotBytesOf mode k5 d.count)
    && alignedIn d.commit 64 && regionOf d.commit == .cellar

/-- A descriptor of an owner-mode sweep. -/
def sweepOk (o : UpdOp) (k5 : Bool) (d : Shard) : Bool :=
  ownerOk o.mode k5 d && (if o.mode = 2 then d.gradFmt == 6 && alignedIn d.aux 64
      else (d.gradFmt == 6 || d.gradFmt == 7) && d.aux == 0)
    && (let n := (if d.gradFmt = 7 then 2 else 4) * d.count
        if o.mode = 2 then alignedIn d.grad n else alignedIn (d.grad + o.step % 2 * d.gradStride) n)

/-- A descriptor of a fetch. -/
def fetchOk (d : Shard) : Bool :=
  rectOk d && d.base % 64 == 0 && d.commit % 64 == 0 && alignedIn d.aux 64 && decide (d.owner < 2 ^ 14)
    && alignedIn d.grad (2 * d.count)

/-- Read a shard's own record (R305): a bad one is DAMAGED, detail 22, none at all MALFORMED, detail 19. -/
def ownRecord (c : UpdCtx) (s : State) (d : Shard) : Reading CommitRec :=
  (updRead c s d.commit 64).andThen fun s b =>
    if leAt b 0 1 = 0 then (s, .error (stMalformed, 19))
    else if commitGood b then (s, .ok (commitOf b))
    else (raiseEv s pgUPD evRecordBad [d.commit, 0xFFFF], .error (stDamaged, 22))

/-- Write a record, and show it in UPD_LOSS. -/
def writeRecord (c : UpdCtx) (s : State) (d : Shard) (r : CommitRec) : Reading Unit :=
  (updWrite c s d.commit (commitBytes { r with stamp := timeNow s })).andThen fun s _ =>
    (setF (setF s UPD_LOSS_loss_log2 r.loss) UPD_LOSS_clean r.clean, .ok ())

/-- The status of a record or a job that disagree about K5 emulation (R183, R313). -/
def k5Clash (s : State) (k5 : Bool) : Option (Nat × Nat) :=
  if k5Job s = k5 then none else some (stArithMismatch, if k5Job s then 2 else 3)

/-- The grow interval in force (R309). -/
def growSteps (s : State) : Nat :=
  if k5Job s then 2000 else let g := getF s UPD_GROW_grow_steps; if g = 0 then 1000 else g

/-- Report a skip or a growth once per step (R309). -/
def reportSkip (s : State) (step loss : Nat) : State :=
  if s.upd.skipSteps.contains step then s
  else raiseEv (satF { s with upd := { s.upd with skipSteps := step :: s.upd.skipSteps } } UPD_COUNT_skipped 1) pgUPD evStepSkipped [step, loss]
def reportGrown (s : State) (step loss : Nat) : State :=
  if s.upd.grownSteps.contains step then s
  else raiseEv (satF { s with upd := { s.upd with grownSteps := step :: s.upd.grownSteps } } UPD_COUNT_grown 1) pgUPD evScaleGrown [step, loss]

/-- The layer entry of a descriptor. -/
def readLayer (c : UpdCtx) (s : State) (d : Shard) : Reading Layer :=
  if !inMemory (c.o.layer + 32 * d.layer) 32 then (s, .error (stMalformed, 19))
  else (updRead c s (c.o.layer + 32 * d.layer) 32).andThen fun s b => (s, .ok (layerOf b))

/-! ### The owner sweep of one shard (R308-R311, R313) -/

/-- Read a slot's areas. -/
def readSlot (c : UpdCtx) (s : State) (d : Shard) (slot mode : Nat) (k5 : Bool) : Reading (List Byte × List Byte × List Byte) :=
  let a := d.slotAt slot
  let n := d.count
  (updRead c s a (weightBytes mode k5 n)).andThen fun s w =>
  (updRead c s (a + firstOff mode k5 n) (firstBytes mode k5 n)).andThen fun s m1 =>
  if secondBytes mode k5 n = 0 then (s, .ok (w, m1, []))
  else (updRead c s (a + secondOff mode k5 n) (secondBytes mode k5 n)).andThen fun s m2 => (s, .ok (w, m1, m2))

/-- An area padded with zero bytes to 64 (R304). -/
def padArea (bs : List Byte) : List Byte := bs ++ List.replicate (roundUp bs.length 64 - bs.length) 0

/-- Write a slot's areas: the moments, then the weights (R308, steps 4 and 5). -/
def writeSlot (c : UpdCtx) (s : State) (d : Shard) (slot mode : Nat) (k5 : Bool) (w m1 m2 : List Byte) : Reading Unit :=
  let a := d.slotAt slot
  let n := d.count
  (updWrite c s (a + firstOff mode k5 n) (padArea m1)).andThen fun s _ =>
  (updWrite c s (a + secondOff mode k5 n) (padArea m2)).andThen fun s _ => updWrite c s a (padArea w)

/-- Step t formed from a slot and the retained gradient, with the scale the gradient carries. -/
def formStep (c : UpdCtx) (s : State) (d : Shard) (slot used : Nat) : Reading SweepVals :=
  let k5 := k5Job s
  (readLayer c s d).andThen fun s y =>
  (readSlot c s d slot c.o.mode k5).andThen fun s x =>
  (updRead c s (d.grad + c.o.step % 2 * d.gradStride) ((if d.gradFmt = 7 then 2 else 4) * d.count)).andThen fun s g =>
    (s, .ok (sweepVals (jobSeed s) c.o y d k5 { w := x.1, m1 := x.2.1, m2 := x.2.2, g := g, used := used }))

/-- Steps 3 to 7 of R308 on a shard whose record names an older step. -/
def sweepStep (c : UpdCtx) (s : State) (d : Shard) (p : CommitRec) : Reading ShardOut :=
  let o := c.o
  let k5 := k5Job s
  let flag := stepFlag s o.step
  let (loss, clean, grown) := lossNext p flag (growSteps s)
  let next : CommitRec := { p with
    mode := o.mode, skipped := flag, suspect := false, imported := false, k5 := k5, step := o.step, epoch := c.epoch,
    loss := loss, used := p.loss, clean := clean, count := d.count, tensor := d.tensor, layer := d.layer }
  if flag then
    (writeRecord c s d next).andThen fun s _ =>
      (reportSkip (setF s UPD_STEP_step o.step) o.step loss, .ok { committed := true, skip := true, loss := loss })
  else
    (formStep c s d p.slot p.loss).andThen fun s v =>
    Reading.orEnd { nonfinite := v.nonfinite } <|
    (writeSlot c s d (1 - p.slot) o.mode k5 v.w v.m1 v.m2).andThen fun s _ =>
    (writeRecord c s d { next with
      slot := 1 - p.slot, wDigest := crc64 v.w, mDigest := crc64 (v.m1 ++ v.m2), ue := v.ue.getD 0 }).andThen fun s _ =>
      let s := setF s UPD_STEP_step o.step
      (if grown then reportGrown s o.step loss else s,
        .ok { committed := true, grown := grown, loss := loss, ue := some (v.ue.getD 0), nonfinite := v.nonfinite })

/-- A redo's digests are compared with the record's (R314). -/
def judgeRedo (c : UpdCtx) (s : State) (d : Shard) (p : CommitRec) (same : Bool) (v : ShardOut) : Reading ShardOut :=
  if same then
    (writeRecord c s d { p with suspect := false }).andThen fun s _ =>
      (raiseEv s pgUPD evRedoDone [d.tensor, d.row0, d.col0, p.step], .ok { v with committed := true, redone := true, loss := p.loss })
  else (raiseEv s pgUPD evRedoFailed [d.tensor, d.row0, d.col0, p.step], .ok (shardEnd v stDamaged 21))

/-- A sweep of a step the record already names, or that is older than it (R314, R395). -/
def sweepAgain (c : UpdCtx) (s : State) (d : Shard) (p : CommitRec) : Reading ShardOut :=
  let t := if c.o.mode = 2 then c.o.round else c.o.step
  let k5 := k5Job s
  if t < p.step then (s, .error (stMalformed, 24))
  else if !p.suspect then (s, .ok { committed := true, loss := p.loss })
  else if !c.o.redo then (s, .error (stDamaged, 21))
  else if p.skipped then
    (readSlot c s d p.slot p.mode k5).andThen fun s x =>
      judgeRedo c s d p (crc64 x.1 == p.wDigest && crc64 (x.2.1 ++ x.2.2) == p.mDigest) {}
  else if c.o.mode = 2 then
    (readLayer c s d).andThen fun s y =>
    (readSlot c s d (1 - p.slot) 2 k5).andThen fun s x =>
    (updRead c s d.grad (4 * d.count)).andThen fun s g =>
      let v := outerVals c.o y d.count k5 x.1 x.2.1 g []
      (writeSlot c s d p.slot 2 k5 v.1 v.2.1 []).andThen fun s _ =>
        judgeRedo c s d p (crc64 v.1 == p.wDigest && crc64 v.2.1 == p.mDigest) { nonfinite := v.2.2.2 }
  else
    (formStep c s d (1 - p.slot) p.used).andThen fun s v =>
    (writeSlot c s d p.slot c.o.mode k5 v.w v.m1 v.m2).andThen fun s _ =>
      judgeRedo c s d p (crc64 v.w == p.wDigest && crc64 (v.m1 ++ v.m2) == p.mDigest)
        { ue := some (v.ue.getD 0), nonfinite := v.nonfinite }

/-- The overflow decision of a step stands (R308, step 2). -/
def decided (s : State) (step : Nat) : Bool :=
  (if step % 2 = 0 then getF s COL_OVF_STEP0_step else getF s COL_OVF_STEP1_step) == step

/-! ### The outer step (R312) -/

/-- The inner shard of an anchor shard: its descriptor describes the same rectangle and it has a record. -/
def innerShard (c : UpdCtx) (s : State) (d : Shard) : Reading (Shard × CommitRec) :=
  (updRead c s d.aux 64).andThen fun s b =>
    let i := shardOf b
    if i.row0 ≠ d.row0 ∨ i.rows ≠ d.rows ∨ i.col0 ≠ d.col0 ∨ i.cols ≠ d.cols ∨ !rectOk i ∨ !alignedIn i.commit 64 then
      (s, .error (stMalformed, 19))
    else
      (ownRecord c s i).andThen fun s p =>
        if !ownerOk p.mode p.k5 i ∨ 2 ≤ p.mode then (s, .error (stMalformed, 19))
        else if p.suspect then (s, .error (stDamaged, 21))
        else if c.o.step < p.step then (s, .error (stMalformed, 24))
        else match k5Clash s p.k5 with
          | some e => (s, .error e)
          | none => (s, .ok (i, p))

/-- The outer step of one anchor shard, and the commit of its inner shard. -/
def outerStep (c : UpdCtx) (s : State) (d : Shard) (p : CommitRec) : Reading ShardOut :=
  let k5 := k5Job s
  (innerShard c s d).andThen fun s ip =>
  let (i, r) := ip
  (readLayer c s d).andThen fun s y =>
  (readSlot c s d p.slot 2 k5).andThen fun s x =>
  (readSlot c s i r.slot r.mode k5).andThen fun s z =>
  (updRead c s d.grad (4 * d.count)).andThen fun s g =>
  let v := outerVals c.o y d.count k5 x.1 x.2.1 g z.1
  (writeSlot c s d (1 - p.slot) 2 k5 v.1 v.2.1 []).andThen fun s _ =>
  (writeSlot c s i (1 - r.slot) r.mode k5 v.2.2.1 z.2.1 z.2.2).andThen fun s _ =>
  (writeRecord c s d { p with
    slot := 1 - p.slot, mode := 2, skipped := false, imported := false, k5 := k5, step := c.o.round, epoch := c.epoch,
    wDigest := crc64 v.1, mDigest := crc64 v.2.1, ue := 0, count := d.count, tensor := d.tensor, layer := d.layer }).andThen fun s _ =>
  (writeRecord c s i { r with
    slot := 1 - r.slot, skipped := false, imported := false, step := c.o.step, epoch := c.epoch,
    wDigest := crc64 v.2.2.1 }).andThen fun s _ =>
    (setF s UPD_STEP_step c.o.step, .ok { committed := true, loss := r.loss, nonfinite := v.2.2.2 })

/-- An owner-mode sweep of one descriptor (R308). -/
def sweepShard (c : UpdCtx) (s : State) (d : Shard) : State × ShardOut :=
  settleShard {} <|
    if d.gradFmt = 5 ∧ !k5Job s then (s, .error (stArithMismatch, 3))
    else if !sweepOk c.o (k5Job s) d then (s, .error (stMalformed, 19))
    else
      (ownRecord c s d).andThen fun s p =>
        match k5Clash s p.k5 with
        | some e => (s, .error e)
        | none =>
          if (if c.o.mode = 2 then c.o.round else c.o.step) ≤ p.step then sweepAgain c s d p
          else if p.suspect then (s, .error (stDamaged, 21))
          else if c.o.mode = 2 then outerStep c s d p
          else if !decided s c.o.step then (s, .error (stMalformed, 23))
          else sweepStep c s d p

/-! ### Fetch (R316) -/

/-- Where a fetch's owner is: none for this module. -/
def ownerAt (s : State) (rank : Nat) : Except (Nat × Nat) (Option Nat) :=
  match resolveRank s rank with
  | .unknown => .error (stRankUnknown, 0)
  | .offStadium => .error (stOffStadium, 0)
  | .device d => .ok (if d = myId s then none else some d)

/-- Report a digest mismatch (R326). -/
def reportMismatch (s : State) (d : Shard) (step source : Nat) : State :=
  raiseEv (satF s UPD_AUDIT_mismatches 1) pgUPD evDigestMismatch [d.tensor, d.row0, d.col0, step, source]

/-- Read the owner's record: none where it has none yet. -/
def fetchRecord (c : UpdCtx) (answers : List Answer) (s : State) (d : Shard) (dev : Option Nat) : Reading (Option CommitRec) :=
  (ownerRead c answers s dev d.commit 64).andThen fun s b =>
    if leAt b 0 1 = 0 then (s, .ok none)
    else if commitGood b then (s, .ok (some (commitOf b)))
    else (raiseEv s pgUPD evRecordBad [d.commit, d.owner], .error (stDamaged, 22))

/-- A fetch of a step must wait for a record that names an older step or is suspect (R316, step 1). -/
def mustWait (step : Nat) (p : CommitRec) : Bool := decide (p.step < step) || p.suspect

/-- One attempt of a fetch: what it came to, and the record it took. The record is read a second time with the answers of
again, and must then name the same step and slot (R316, step 4). -/
inductive Attempt where
  | wait | changed | mismatch (p : CommitRec) | proven (p : CommitRec) (bytes : List Byte)

def fetchOnce (c : UpdCtx) (first again : List Answer) (s : State) (d : Shard) (dev : Option Nat) (step : Nat) : Reading Attempt :=
  (fetchRecord c first s d dev).andThen fun s r =>
  match r.filter (fun p => !mustWait step p) with
  | none => (s, .ok .wait)
  | some p =>
    if p.count ≠ d.count then (s, .error (stMalformed, 19))
    else
      let n := weightBytes p.mode p.k5 d.count
      (ownerRead c first s dev (d.base + p.slot * d.slotStride) n).andThen fun s w =>
      (updWrite c s d.grad w).andThen fun s _ =>
      (fetchRecord c again s d dev).andThen fun s r2 =>
        match r2 with
        | some p2 =>
          if p2.step ≠ p.step ∨ p2.slot ≠ p.slot then (s, .ok .changed)
          else if crc64 w = p.wDigest then (s, .ok (.proven p w))
          else (s, .ok (.mismatch p))
        | none => (s, .ok .changed)

/-- The answers of an attempt's second reading: the last given for an address. -/
def lastAnswers (xs : List Answer) : List Answer := xs.reverse

/-- A fetch of one shard, from its first attempt or again after waiting (R316): a changed record begins it again, a first
mismatch fetches once more, a second ends it. -/
def fetchShard (c : UpdCtx) (s : State) (d : Shard) (step source : Nat) (v : ShardOut) : State × ShardOut :=
  settleShard v <|
    if !fetchOk d then (s, .error (stMalformed, 19))
    else match ownerAt s d.owner with
      | .error e => (s, .error e)
      | .ok dev =>
        let prove := fun (s : State) (p : CommitRec) (v : ShardOut) =>
          (updWrite c s d.aux (commitBytes p)).andThen fun s _ =>
            (s, .ok { v with pend := false, step := p.step, newer := decide (step < p.step) })
        let miss := fun (s : State) (p : CommitRec) (v : ShardOut) =>
          (reportMismatch s d p.step source, { v with miss := v.miss + 1, tries := v.tries + 1 })
        let later := fun (s : State) (v : ShardOut) => satF s UPD_FETCH_refetches (b2n v.refetched)
        (fetchOnce c c.sur.answers (lastAnswers c.sur.answers) s d dev step).andThen fun s a =>
          match a with
          | .wait => (s, .ok { v with pend := true })
          | .proven p _ => prove s p v
          | .changed => (later s { v with refetched := true }, .ok { v with pend := true, refetched := true })
          | .mismatch p =>
            let (s, v) := miss s p v
            if 2 ≤ v.tries then (s, .ok (shardEnd v stDamaged 20))
            else
              let v := { v with refetched := true }
              Reading.orEnd v <| (fetchOnce c c.sur.again (lastAnswers c.sur.again) (later s v) d dev step).andThen fun s a =>
                match a with
                | .wait => (s, .ok { v with pend := true })
                | .proven p _ => prove s p v
                | .changed => (later s v, .ok { v with pend := true })
                | .mismatch p => let (s, v) := miss s p v; (s, .ok (shardEnd v stDamaged 20))

/-! ### Audit (R317) -/

/-- Audit an owned shard: a failing slot marks its record suspect. -/
def auditOwn (c : UpdCtx) (s : State) (d : Shard) : State × ShardOut :=
  settleShard {} <|
    if !rectOk d ∨ !alignedIn d.commit 64 then (s, .error (stMalformed, 19))
    else
      (ownRecord c s d).andThen fun s p =>
        if !ownerOk p.mode p.k5 d then (s, .error (stMalformed, 19))
        else
          (readSlot c s d p.slot p.mode p.k5).andThen fun s x =>
            if crc64 x.1 = p.wDigest ∧ crc64 (x.2.1 ++ x.2.2) = p.mDigest then (s, .ok { step := p.step })
            else
              (writeRecord c s d { p with suspect := true }).andThen fun s _ =>
                (reportMismatch s d p.step 3, .ok { step := p.step, miss := 1 })

/-- Audit a copy: a failing one is fetched again. A copy record that fails its CRC is reported (R326). -/
def auditCopy (c : UpdCtx) (s : State) (d : Shard) (v : ShardOut) : State × ShardOut :=
  if v.refetched then fetchShard c s d v.step 2 v
  else
    let r : Reading (Option Nat) :=
      if !fetchOk d then (s, .error (stMalformed, 19))
      else
        (updRead c s d.aux 64).andThen fun s b =>
          if leAt b 0 1 = 0 then (s, .error (stMalformed, 19))
          else if !commitGood b then (raiseEv s pgUPD evRecordBad [d.aux, 0xFFFF], .error (stDamaged, 22))
          else
            let p := commitOf b
            (updRead c s d.grad (weightBytes p.mode p.k5 d.count)).andThen fun s w =>
              (s, .ok (if crc64 w = p.wDigest then none else some p.step))
    match r with
    | (s, .error e) => (s, shardEnd v e.1 e.2)
    | (s, .ok none) => (s, { v with pend := false })
    | (s, .ok (some st)) =>
      fetchShard c (reportMismatch s d st 2) d st 2 { v with step := st, miss := 1, refetched := true }

/-! ### The command -/

/-- The operand block and its tables are in range (R307). -/
def updBlockOk (b : List Byte) (o : UpdOp) : Bool :=
  decide (o.mode ≤ 4) && leAt b 25 1 / 16 == 0 && zeroAt b 26 2 && zeroAt b 44 20
    && decide (1 ≤ o.shards ∧ o.shards ≤ 65536) && alignedIn o.table (64 * o.shards)
    && (if o.mode ≤ 2 then alignedIn o.layer 32 else o.layer == 0)

/-- One descriptor of a command, by its mode; v is what it came to before, for one that waits. -/
def runShard (c : UpdCtx) (s : State) (d : Shard) (v : ShardOut) : State × ShardOut :=
  if c.o.mode ≤ 2 then sweepShard c s d
  else if c.o.mode = 3 then fetchShard c s d c.o.step 1 v
  else if c.o.copies then auditCopy c s d v
  else auditOwn c s d

/-- Run the descriptors that have not ended, in table order. -/
def runShards (c : UpdCtx) (s : State) (outs : List ShardOut) : State × List ShardOut :=
  (outs.mapIdx (fun i v => (i, v))).foldl (fun st iv =>
    let (s, done) := st
    let (i, v) := iv
    if !v.pend then (s, done ++ [v])
    else match updRead c s (c.o.table + 64 * i) 64 with
      | (s, .error e) => (s, done ++ [shardEnd v e.1 e.2])
      | (s, .ok b) => let (s, v) := runShard c s (shardOf b) v; (s, done ++ [v])) (s, [])

/-- The result bytes of R324. -/
def updResult (o : UpdOp) (outs : List ShardOut) : List Byte :=
  let ok := outs.filter (fun v => v.status == 0)
  let ues := outs.filterMap (fun v => if v.committed then v.ue else none)
  let nz := min (2 ^ 32 - 1)
  if o.mode ≤ 2 then
    let low := ues.foldl min (ues.headD 0)
    let high := ues.foldl max (ues.headD 0)
    natLe 4 (ok.filter (·.committed)).length
      ++ natLe 1 (b2n (ok.any (·.skip)) + 2 * b2n (ok.any (·.grown)) + 4 * b2n (ok.any (·.redone)))
      ++ natLe 1 ((ok.getLast?.map (·.loss)).getD 0) ++ natLe 1 (unsigned 8 low) ++ natLe 1 (unsigned 8 high)
      ++ natLe 4 (nz ((outs.map (·.nonfinite)).foldl (· + ·) 0))
  else
    natLe 4 (if o.mode = 3 then (ok.map (·.step)).foldl min ((ok.map (·.step)).headD 0) else ok.length)
      ++ natLe 1 (b2n (outs.any (·.refetched)) + 2 * b2n (ok.any (·.newer))) ++ [0, 0, 0]
      ++ natLe 4 (nz ((outs.map (·.miss)).foldl (· + ·) 0))

/-- End the command once every shard has ended: with its first failing shard's status (R325). -/
def finishUpd (s : State) (q idx : Nat) (o : UpdOp) (outs : List ShardOut) : State :=
  let drop := { s with upd := { s.upd with runs := s.upd.runs.filter (fun r => !(r.q == q && r.idx == idx)) } }
  if outs.any (·.pend) then { drop with upd := { drop.upd with runs := drop.upd.runs ++ [{ q := q, idx := idx, outs := outs }] } }
  else
    let bad := outs.find? (fun v => v.status != 0)
    endCmd drop q idx ((bad.map (·.status)).getD 0) ((bad.map (·.detail)).getD 0) (updResult o outs)

/-- A row's mode is the block's: a reserved mode is the audit row's. -/
def updMode (mode : Nat) (s : State) (e : CmdEntry) : Bool :=
  let m := blockField s e 24 1
  if mode = 4 then decide (4 ≤ m) else m == mode

/-- Dispatch UPD.SWEEP: the block is read and kept, and every shard runs. -/
def updBody (sur : Surround) (s : State) (e : CmdEntry) : State :=
  match readBlock s sur.hits e 64 64 with
  | (s, none) => let (st, d) := blockFault e 64 64 stMalformed 19; endCmd s e.q e.idx st d []
  | (s, some b) =>
    let o := updOpOf b
    let s := putCmd s { e with stage := .running, opnd := b }
    if !updBlockOk b o then endCmd s e.q e.idx stMalformed 19 []
    else
      let c : UpdCtx := ⟨e.q, e.idx, e.epoch, o, sur⟩
      let (s, outs) := runShards c s (List.replicate o.shards { pend := true })
      finishUpd s e.q e.idx o outs

/-- A row of UPD.SWEEP. A fetch or an audit waits for room for its remote requests (R104). -/
def updRow (mode q idx : Nat) (sur : Surround) (s : State) : Host.Outcome State Fault Refusal :=
  onInstance (isQueue q) (whileRunning s (onDispatch s q idx
    (fun e => e.opcode == 0x0401 && updMode mode s e && (decide (mode ≤ 2) || txnRoom s 2)) sur
    (onStages pgUPD sur (updBody sur))))

/-- UPD_SWEEP_ADAMW (R310). -/
def execUpdSweepAdamw (q idx : Nat) (sur : Surround) (s : State) : Host.Outcome State Fault Refusal := updRow 0 q idx sur s
/-- UPD_SWEEP_MOMENTUM (R310). -/
def execUpdSweepMomentum (q idx : Nat) (sur : Surround) (s : State) : Host.Outcome State Fault Refusal := updRow 1 q idx sur s
/-- UPD_SWEEP_OUTER (R312). -/
def execUpdSweepOuter (q idx : Nat) (sur : Surround) (s : State) : Host.Outcome State Fault Refusal := updRow 2 q idx sur s
/-- UPD_SWEEP_FETCH (R316). -/
def execUpdSweepFetch (q idx : Nat) (sur : Surround) (s : State) : Host.Outcome State Fault Refusal := updRow 3 q idx sur s
/-- UPD_SWEEP_AUDIT (R317); a reserved mode also comes here and is MALFORMED. -/
def execUpdSweepAudit (q idx : Nat) (sur : Surround) (s : State) : Host.Outcome State Fault Refusal := updRow 4 q idx sur s

/-- FETCH_RETRY_EXPIRY (R316): the records that were not ready are read again. -/
def fetchRetry (s : State) (q idx : Nat) (sur : Surround) : State :=
  match findCmd s q idx, s.upd.runs.find? (fun r => r.q == q && r.idx == idx) with
  | some e, some r =>
    if !txnRoom s 2 then s
    else match stageWords s pgUPD e.cmdId sur.stage with
    | (s, false) => finishUpd s q idx (updOpOf e.opnd)
        (r.outs.map (fun v => if v.pend then { v with pend := false, status := stParity, detail := 10 } else v))
    | (s, true) =>
      let o := updOpOf e.opnd
      let (s, outs) := runShards ⟨q, idx, e.epoch, o, sur⟩ s r.outs
      finishUpd s q idx o outs
  | _, _ => s

def execFetchRetryExpiry (q idx : Nat) (sur : Surround) (s : State) : Host.Outcome State Fault Refusal :=
  onInstance (isQueue q) (whileRunning s (fetchRetry s q idx sur))

/-- BACKGROUND_AUDIT_DONE (R317): the oldest background audit runs over its command's descriptors and ends, unless a copy
waits for its owner: it stays, and the next such row reads the owner's record again (R316). The audit is of no queue: 64. -/
def auditDone (s : State) (sur : Surround) : State :=
  match s.upd.audits with
  | [] => s
  | a :: rest =>
    if !txnRoom s 2 then s
    else match stageWords s pgUPD 0 sur.stage with
    | (s, false) => setF { s with upd := { s.upd with audits := rest } } UPD_AUDIT_busy (b2n (!rest.isEmpty))
    | (s, true) =>
      let o := updOpOf a.block
      let c : UpdCtx := ⟨64, 0, getF s CMD_EPOCH_current, { o with mode := 4, copies := o.mode == 3 }, sur⟩
      let (s, outs) := runShards c s (if a.outs.isEmpty then List.replicate o.shards { pend := true } else a.outs)
      let left := if outs.any (·.pend) then { a with outs := outs } :: rest else rest
      setF { s with upd := { s.upd with audits := left } } UPD_AUDIT_busy (b2n (!left.isEmpty))

def execBackgroundAuditDone (sur : Surround) (s : State) : Host.Outcome State Fault Refusal :=
  .next (whileRunning s (auditDone s sur))

end Sys2Proof.Machine
end

