-- ==== Sys2Proof/Machine/Baton.lean ====
section
/-! DEFINITION. Batons (14_milant R350, R351, R353): the header, the baton cellar, and the sending operations of BATON.SEND
(R345, R349, R358-R360). -/

namespace Sys2Proof.Machine

def evBatonComplete : Ev := ⟨0x5C05, 1⟩
def evBatonDropped : Ev := ⟨0x5C06, 2⟩
def evManifestReceived : Ev := ⟨0x5C07, 1⟩
def evFlagReceived : Ev := ⟨0x5C08, 1⟩

/-! ### The baton header (R350) -/

structure BatonHead where
  participant : Nat
  round : Nat
  base : Nat
  tensor : Nat
  layer : Nat
  row0 : Nat
  rows : Nat
  col0 : Nat
  cols : Nat
  count : Nat
  index : Nat
  total : Nat
  bytes : Nat
  digest : Nat
  deriving DecidableEq, Repr

def batonHeadBytes (h : BatonHead) : List Byte :=
  let body := natLe 1 1 ++ natLe 1 h.participant ++ [0, 0] ++ natLe 4 h.round ++ natLe 4 h.base ++ natLe 2 h.tensor
    ++ natLe 2 h.layer ++ natLe 4 h.row0 ++ natLe 4 h.rows ++ natLe 4 h.col0 ++ natLe 4 h.cols ++ natLe 4 h.count
    ++ natLe 4 h.index ++ natLe 4 h.total ++ natLe 4 h.bytes ++ natLe 8 h.digest ++ [0, 0, 0, 0]
  body ++ natLe 4 (crc32c body)

def batonHeadOf (b : List Byte) : BatonHead where
  participant := leAt b 1 1
  round := leAt b 4 4
  base := leAt b 8 4
  tensor := leAt b 12 2
  layer := leAt b 14 2
  row0 := leAt b 16 4
  rows := leAt b 20 4
  col0 := leAt b 24 4
  cols := leAt b 28 4
  count := leAt b 32 4
  index := leAt b 36 4
  total := leAt b 40 4
  bytes := leAt b 44 4
  digest := leAt b 48 8

/-- The header's CRC and the stripes' digest hold (R351). -/
def batonGood (b : List Byte) : Bool :=
  leAt b 0 1 == 1 && leAt b 60 4 == crc32c (b.take 60) && leAt b 44 4 + 64 == b.length && leAt b 48 8 == crc64 (b.drop 64)

/-! ### The baton cellar (R351) -/

def roundSlot (s : State) (k : Nat) : RoundSlot := tget (fun _ => {}) s.mil.slots k
def setRoundSlot (s : State) (k : Nat) (r : RoundSlot) : State :=
  { s with mil := { s.mil with slots := tset (fun _ => {}) s.mil.slots k r } }

/-- The bytes of a round slot, and where one begins. -/
def slotRoom (s : State) : Nat := getF s (MIL_CELLAR_SIZE_slot_mib 0) * 2 ^ 20
def slotStart (s : State) (k : Nat) : Nat := getF s (MIL_CELLAR_base_mib 0) * 2 ^ 20 + k * slotRoom s

/-- Claim the slot of a base or round: a newer one clears it; the reason it cannot be used. -/
def claimRound (s : State) (base : Nat) : State × Option Nat :=
  let r := roundSlot s (base % 8)
  match r.base with
  | some b => if base < b then (s, some 2) else if b < base then (setRoundSlot s (base % 8) { base := some base }, none) else (s, none)
  | none => (setRoundSlot s (base % 8) { base := some base }, none)

/-- Open the slot of a baton's base: not one staler than four rounds. -/
def openRound (s : State) (base : Nat) : State × Option Nat :=
  if s.mil.anyBase ∧ base + 4 < getF s (MIL_ROUND_newest 0) then (s, some 1) else claimRound s base

/-- Append bytes to a slot, 64-byte aligned: where they lie, or none where the slot is full. -/
def appendRound (s : State) (k : Nat) (bs : List Byte) : State × Option Nat :=
  let r := roundSlot s k
  let a := slotStart s k + r.used
  if slotRoom s < r.used + roundUp bs.length 64 ∨ regionOf a ≠ .cellar then (s, none)
  else match targetWrite s [] a bs false with
    | (s, true) => (setRoundSlot s k { r with used := r.used + roundUp bs.length 64 }, some a)
    | (s, false) => (s, none)

/-- Store a baton: its address, or the reason it is dropped. One already stored stays as it is. -/
def storeBaton (s : State) (b : List Byte) : State × Except Nat Nat :=
  let h := batonHeadOf b
  match openRound s h.base with
  | (s, some r) => (s, .error r)
  | (s, none) =>
    let k := h.base % 8
    match (roundSlot s k).batons.find? (fun x => x.participant == h.participant && x.index == h.index && x.tensor == h.tensor
        && x.row0 == h.row0 && x.rows == h.rows && x.col0 == h.col0 && x.cols == h.cols) with
    | some x => (s, .ok x.addr)
    | none =>
      match appendRound s k b with
      | (s, none) => (s, .error 4)
      | (s, some a) =>
        let r := roundSlot s k
        let s := setRoundSlot s k { r with batons := r.batons ++ [⟨h.participant, h.index, h.total, h.tensor, h.row0, h.rows,
          h.col0, h.cols, a, b.length⟩] }
        let s := setF s (MIL_ROUND_newest 0) (if s.mil.anyBase then max (getF s (MIL_ROUND_newest 0)) h.base else h.base)
        ({ s with mil := { s.mil with anyBase := true } }, .ok a)

/-- Report a dropped baton. -/
def dropBaton (s : State) (h : BatonHead) (reason : Nat) : State :=
  raiseEv s (pgMIL 0) evBatonDropped [h.participant, h.base, reason]

/-- Store a baton or report why not. -/
def keepBaton (s : State) (b : List Byte) : State × Option Nat :=
  match storeBaton s b with
  | (s, .ok a) => (s, some a)
  | (s, .error r) => (dropBaton s (batonHeadOf b) r, none)

/-- A baton of a sender is stored at every member that needs it (R351): when all of a base are, the gateway reports the
sender complete. Batons are told apart by their message numbers. -/
def hearBaton (s : State) (w : BatonWait) : State :=
  let k := w.base % 8
  match openRound s w.base with
  | (s, some _) => s
  | (s, none) =>
    let r := roundSlot s k
    let heard := if r.heard.contains (w.participant, w.head.seq) then r.heard else (w.participant, w.head.seq) :: r.heard
    let full := (heard.filter (fun x => x.1 == w.participant)).length == w.total && !r.complete.contains w.participant
    let s := setRoundSlot s k { r with heard := heard, complete := if full then w.participant :: r.complete else r.complete }
    if full then raiseEv s (pgMIL 0) evBatonComplete [w.participant, w.base, w.total] else s

/-! ### The operand block (R358) -/

structure BatonOp where
  op : Nat
  ovf : Bool
  stream : Nat
  round : Nat
  src : Nat
  dst : Nat
  len : Nat
  dstRank : Nat
  dest : Nat
  codec : Nat
  mask : Nat
  sigIndex : Nat
  sigAdd : Nat
  step : Nat
  deriving DecidableEq, Repr

def batonOpOf (b : List Byte) : BatonOp where
  op := leAt b 0 1
  ovf := bitOf (leAt b 1 1) 0
  stream := leAt b 2 2
  round := leAt b 4 4
  src := leAt b 8 8
  dst := leAt b 16 8
  len := leAt b 24 4
  dstRank := leAt b 28 2
  dest := leAt b 30 1
  codec := leAt b 31 1
  mask := leAt b 32 8
  sigIndex := leAt b 40 2
  sigAdd := leAt b 44 4
  step := leAt b 48 4

/-- The block's fields are in range. -/
def batonOpOk (b : List Byte) (o : BatonOp) : Bool :=
  decide (o.op ≤ 6) && leAt b 1 1 / 2 == 0 && zeroAt b 42 2 && zeroAt b 52 12 && decide (o.dstRank < 2 ^ 14 ∧ o.codec < 16)
    && (o.sigAdd == 0 || decide (o.sigIndex < 4096))
    && (if o.op = 0 ∨ o.op = 4 ∨ o.op = 5 then
          decide (o.len ≤ 67108864) && (o.len == 0 || inMemory o.src o.len) && decide (o.dest < (if o.op = 0 then 4 else 64))
        else if o.op = 1 then decide (o.dest < 16)
        else decide (1 ≤ o.len ∧ o.len ≤ 65536) && alignedIn o.src (64 * o.len)
          && (o.op != 3 || (o.dst % 8 == 0 && inMemory o.dst 512)))

/-- Why a message cannot go (R360): 29 nothing faces the destination, 30 no live association on its ports. -/
def pathFault (s : State) (p : Parcel) : Option Nat :=
  match firstHop s p with
  | .ports ns => if ns.all (fun n => (milPort s n).liveTx.isNone) then some 30 else none
  | .device _ _ => none
  | _ => some 29

/-! ### Relay, flag, transfer and manifest (R345, R349, R353, R355) -/

/-- The relay descriptor (R345). A flag carries its ovf in the address's place. -/
def relayDescriptor (dst sigIndex epoch sigAdd step len : Nat) : List Byte :=
  natLe 8 dst ++ natLe 2 sigIndex ++ natLe 2 epoch ++ natLe 4 sigAdd ++ natLe 4 step ++ natLe 4 len ++ List.replicate 8 0

/-- The header of a message to a building, and to a participant. -/
def buildingHead (s : State) (kind stream bld rank len : Nat) : Parcel :=
  { kind := kind, stream := stream, srcBld := myBuilding s, dstBld := bld, srcRank := myRank s, dstRank := rank, msgLen := len }
def participantHead (s : State) (kind q len : Nat) : Parcel :=
  { kind := kind, stream := 0xFFFF, srcBld := myParticipant s, dstBld := q, srcRank := myRank s, msgLen := len }

/-- Put a message in flight and send it; an unreachable one is given up at once. -/
def launch (s : State) (sur : Surround) (e : CmdEntry) (h : Parcel) (pre : List Byte) (src len : Nat) : State :=
  if (pathFault s h).isSome then
    { s with mil := { s.mil with sends := s.mil.sends ++ [{ q := e.q, idx := e.idx, head := h, pre := pre, src := src, len := len, dead := true }] } }
  else
    let (s, h) := numberMsg s h
    let m : MsgTx := { q := e.q, idx := e.idx, head := h, pre := pre, src := src, len := len }
    sendMsg { s with mil := { s.mil with sends := s.mil.sends ++ [m] } } sur.hits m false (allPieces m)

/-- A command of the gateway begins. -/
def beginMil (s : State) (e : CmdEntry) (o : BatonOp) : State :=
  let s := putCmd s { e with stage := .running }
  { s with mil := { s.mil with runs := s.mil.runs ++ [{ q := e.q, idx := e.idx, op := o.op, ovf := o.op == 1 && o.ovf }] } }

/-- Send messages that must all have a path. -/
def sendMust (s : State) (sur : Surround) (e : CmdEntry) (o : BatonOp) (hs : List Parcel) (pre : List Byte) (src len : Nat) : State :=
  match hs.findSome? (pathFault s) with
  | some d => endCmd s e.q e.idx stMalformed d []
  | none => settleMil (hs.foldl (fun s h => launch s sur e h pre src len) (beginMil s e o)) e.q e.idx

def sendRelay (sur : Surround) (o : BatonOp) (s : State) (e : CmdEntry) : State :=
  sendMust s sur e o [buildingHead s 1 o.stream o.dest o.dstRank (32 + o.len)]
    (relayDescriptor o.dst o.sigIndex e.epoch o.sigAdd o.step o.len) o.src o.len

def sendFlag (sur : Surround) (o : BatonOp) (s : State) (e : CmdEntry) : State :=
  let blds := (List.range 4).filter (fun b => bitOf o.dest b && b != myBuilding s)
  sendMust s sur e o (blds.map (fun b => buildingHead s 2 0xFFFE b 0 32))
    (relayDescriptor (b2n o.ovf) o.sigIndex e.epoch o.sigAdd o.step 0) 0 0

def sendTransfer (sur : Surround) (o : BatonOp) (s : State) (e : CmdEntry) : State :=
  sendMust s sur e o [participantHead s 5 o.dest (32 + o.len)]
    (relayDescriptor o.dst o.sigIndex e.epoch o.sigAdd o.step o.len) o.src o.len

/-- The participants of a mask other than this one. -/
def maskTo (s : State) (o : BatonOp) : List Nat := (List.range 64).filter (fun q => bitOf o.mask q && q != myParticipant s)

def sendManifest (sur : Surround) (o : BatonOp) (s : State) (e : CmdEntry) : State :=
  settleMil ((maskTo s o).foldl (fun s q => launch s sur e (participantHead s 4 q o.len) [] o.src o.len) (beginMil s e o)) e.q e.idx

/-! ### The baton operation (R350) -/

/-- Cut a list into pieces of at most 2,048. -/
def stripesOf {α : Type} : Nat → List α → List (List α)
  | 0, _ => []
  | k + 1, l => if l.isEmpty then [] else l.take 2048 :: stripesOf k (l.drop 2048)

/-- Code the stripes of a shard: each with its weights, anchor and residuals. -/
def codeStripes (s : State) (slot : Nat) (xs : List (Word × Word × Word)) : List Stripe :=
  let t := cbzSlot s slot
  (stripesOf xs.length xs).map (fun x =>
    encodeL2 (t.bank t.cur) slot t.curGen (x.map (·.1)) (x.map (·.2.1)) (x.map (·.2.2)))

/-- A baton of one descriptor, number i of a total: its bytes, the residual written back, and whether a block held a
non-finite difference (R252). -/
def formBaton (c : UpdCtx) (o : BatonOp) (i total : Nat) (s : State) (d : Shard) : Reading (List Byte × Bool) :=
  let k5 := k5Job s
  let n := d.count
  if !ownerOk 2 k5 d ∨ !alignedIn d.aux 64 ∨ !alignedIn d.grad (4 * n) then (s, .error (stMalformed, 28))
  else
    (ownRecord c s d).andThen fun s p =>
    (innerShard c s d).andThen fun s ir =>
    (updRead c s (d.slotAt p.slot) (4 * n)).andThen fun s anchor =>
    (updRead c s (ir.1.slotAt ir.2.slot) (weightBytes ir.2.mode k5 n)).andThen fun s w =>
    (updRead c s d.grad (4 * n)).andThen fun s resid =>
      let st := codeStripes s o.codec ((List.range n).map (fun j => (weightAt k5 w j, f32At anchor j, f32At resid j)))
      let body := st.flatMap (·.bytes)
      (updWrite c s d.grad ((st.flatMap (·.resid)).flatMap (fun e => natLe 4 e.toNat))).andThen fun s _ =>
        (st.foldl (fun s x => countEncoded s x.raw) s,
          .ok (batonHeadBytes {
            participant := myParticipant s, round := o.round, base := o.round, tensor := d.tensor, layer := d.layer,
            row0 := d.row0, rows := d.rows, col0 := d.col0, cols := d.cols, count := st.length, index := i, total := total,
            bytes := body.length, digest := crc64 body } ++ body, st.any (·.ovf)))

/-- Batons this module has formed of a base before: one command's numbers go on from there (R350). -/
def formedBefore (s : State) (base : Nat) : Nat :=
  let r := roundSlot s (base % 8)
  if r.base = some base then r.formed else 0

/-- Note the batons formed of a base. -/
def noteFormed (s : State) (base n : Nat) : State :=
  let r := roundSlot s (base % 8)
  if r.base = some base then setRoundSlot s (base % 8) { r with formed := n } else s

/-- The overflow flag of a command that has coded a non-finite difference (R252). -/
def noteOverflow (s : State) (q idx : Nat) (ovf : Bool) : State :=
  { s with mil := { s.mil with runs := s.mil.runs.map (fun r =>
    if r.q = q ∧ r.idx = idx then { r with overflow := r.overflow || ovf } else r) } }

/-- One descriptor of the baton operation: coded, stored here, and sent to every participant of the mask. -/
def sendBaton (sur : Surround) (o : BatonOp) (e : CmdEntry) (first : Nat) (s : State) (i : Nat) : State :=
  let c : UpdCtx := ⟨e.q, e.idx, e.epoch, { updOpOf [] with step := 2 ^ 32 }, sur⟩
  if !s.mil.runs.any (fun r => r.q == e.q && r.idx == e.idx) then s
  else match (updRead c s (o.src + 64 * i) 64).andThen (fun s b => formBaton c o (first + i) (first + o.len) s (shardOf b)) with
    | (s, .error r) => endMil s e.q e.idx r.1 r.2
    | (s, .ok (b, ovf)) =>
      match keepBaton (noteOverflow s e.q e.idx ovf) b with
      | (s, none) => s
      | (s, some a) => (maskTo s o).foldl (fun s q => launch s sur e (participantHead s 3 q b.length) [] a b.length) s

def sendBatons (sur : Surround) (o : BatonOp) (s : State) (e : CmdEntry) : State :=
  if slotRoom s = 0 then endCmd s e.q e.idx stMalformed 33 []
  else if !(cbzSlot s o.codec).hasCurrent then endCmd s e.q e.idx stMalformed 13 []
  else
    let first := formedBefore s o.round
    let s := (List.range o.len).foldl (sendBaton sur o e first) (beginMil s e o)
    settleMil (noteFormed s o.round (first + o.len)) e.q e.idx

/-! ### The rows -/

/-- A row's operation is the block's: a reserved operation is the relay row's. -/
def milOp (op : Nat) (s : State) (e : CmdEntry) : Bool :=
  let o := blockField s e 0 1
  o == op || (op == 0 && decide (6 < o))

/-- A row of BATON.SEND: its block is read and checked. -/
def milRow (op q idx : Nat) (sur : Surround) (body : BatonOp → State → CmdEntry → State) (s : State) : Host.Outcome State Fault Refusal :=
  onInstance (isQueue q) (whileRunning s
    (onDispatch s q idx (fun e => e.opcode == 0x0501 && milOp op s e) sur (onStages (pgMIL 0) sur (fun s e =>
      match readBlock s sur.hits e 64 64 with
      | (s, none) => let (st, d) := blockFault e 64 64 stMalformed 28; endCmd s e.q e.idx st d []
      | (s, some b) =>
        let o := batonOpOf b
        if !batonOpOk b o then endCmd s e.q e.idx stMalformed 28 [] else body o s e))))

/-- BATON_SEND_RELAY (R345). -/
def execBatonSendRelay (q idx : Nat) (sur : Surround) (s : State) : Host.Outcome State Fault Refusal := milRow 0 q idx sur (sendRelay sur) s
/-- BATON_SEND_FLAG (R349). -/
def execBatonSendFlag (q idx : Nat) (sur : Surround) (s : State) : Host.Outcome State Fault Refusal := milRow 1 q idx sur (sendFlag sur) s
/-- BATON_SEND_BATON (R350). -/
def execBatonSendBaton (q idx : Nat) (sur : Surround) (s : State) : Host.Outcome State Fault Refusal := milRow 2 q idx sur (sendBatons sur) s
/-- BATON_SEND_MANIFEST (R353). -/
def execBatonSendManifest (q idx : Nat) (sur : Surround) (s : State) : Host.Outcome State Fault Refusal := milRow 4 q idx sur (sendManifest sur) s
/-- BATON_SEND_TRANSFER (R358). -/
def execBatonSendTransfer (q idx : Nat) (sur : Surround) (s : State) : Host.Outcome State Fault Refusal := milRow 5 q idx sur (sendTransfer sur) s

end Sys2Proof.Machine
end

