-- ==== Sys2Proof/Machine/Flr.lean ====
section
/-! DEFINITION. The function-level reset (03_first_second, R58, R59). -/

namespace Sys2Proof.Machine

/-- What running commands leave behind when they are abandoned: what they were writing is unspecified, and accumulators
they were loading carry no product (R59, R113). -/
def abandonResults (s : State) : State :=
  s.cmds.table.foldl (fun s e =>
    if e.stage = .running then
      let s := scrambleAll s e.dest
      clearTags s e.arrays
    else s) s

/-- The effects of a function-level reset (R58, R59): commands abandoned, landings and program memories empty, the queue,
event and host pages at their start values, the expert areas closed. Everything else is kept, the records of the holding
log among it (log entry 88), and the link's trained rate and width go on reading as they are. -/
def flrEffects (s : State) : State :=
  let s := abandonCmds (abandonResults s)
  let s := { s with
    lanes := s.lanes.map (fun l => (l.1, { l.2 with prog := [], resident := none, loaded := false })),
    coll := { s.coll with landings := [], running := [], outbox := [] },
    upd := { s.upd with runs := [] },
    mil := { s.mil with runs := [], sends := [] },
    ev := { s.ev with rings := [] },
    fab := { s.fab with txns := s.fab.txns.filter (fun t => match t.who with | .bar2Read _ _ _ | .bar2Write _ => false | _ => true) },
    host := { s.host with flr := true, msix := [], msixPending := [], doe := none } }
  let s := closeExperts (flrPages s)
  let s := setF (setF (setF s HIF_LINK_gen s.host.gen) HIF_LINK_width s.host.width) HIF_LINK_flit_mode (b2n s.host.flitMode)
  satF (applyEventDefaults s) RST_CAUSE_flr_count 1

/-- Start-up is over (R61): step 10 is done; in profile 3, and with an invalid strap, step 6 is the last (R44). -/
def startedUp (s : State) : Bool :=
  isSet s DEV_START_fabric_ready ||
    (isSet s DEV_START_cellar_ready && (getF s DEV_START_profile == 3 || !isSet s DEV_STRAP_id_valid))

/-- FUNCTION_LEVEL_RESET: the host's PCIe FLR, the end of PERST_N, or D3hot to D0 (R58, R82). During start-up the end of
PERST_N affects only the link and endpoint (R61); a narrower request during a wider reset, or during this one, is
discarded. -/
def functionLevelReset (s : State) (c : FlrCause) : State :=
  if s.life ≠ .running ∨ !s.pins.modRstN then s
  else match c with
    | .perstEnd =>
      if s.pins.perstN then s
      else
        let s := { s with pins := { s.pins with perstN := true }, host := { s.host with d3hot := false } }
        if startedUp s then flrEffects s else s
    | .pcieFlr =>
      if s.pins.perstN ∧ s.host.linkUp ∧ !s.host.flr ∧ isSet s DEV_START_steward_ready then flrEffects s else s
    | .toD3hot =>
      if s.pins.perstN ∧ s.host.linkUp ∧ !s.host.flr ∧ (isSet s DEV_START_steward_ready ∨ isSet s DEV_START_boot_failed) then
        { s with host := { s.host with d3hot := true } }
      else s
    | .d3hotToD0 =>
      if s.pins.perstN ∧ s.host.linkUp ∧ !s.host.flr ∧ s.host.d3hot then
        flrEffects { s with host := { s.host with d3hot := false } }
      else s

def execFunctionLevelReset (cause : FlrCause) (s : State) : Host.Outcome State Fault Refusal :=
  .next (functionLevelReset s cause)

/-- FLR_COMPLETE (R59): the function answers configuration requests again. -/
def flrComplete (s : State) : State :=
  if s.life = .running ∧ s.pins.modRstN then { s with host := { s.host with flr := false } } else s

def execFlrComplete (s : State) : Host.Outcome State Fault Refusal := .next (flrComplete s)

end Sys2Proof.Machine
end

