-- ==== Sys2Proof/Machine/Blocks.lean ====
section
/-! DEFINITION. The common page controls (04_registers_host R74, R75, R78, R404; 05_commands R97, R101): writes to BLK_CTRL
and the rows that stand for them. -/

namespace Sys2Proof.Machine

/-- A page of a command queue (R72). -/
def queueOf (page : Nat) : Option Nat := if 0x040 ≤ page ∧ page < 0x080 then some (page - 0x040) else none

/-- Work a page has accepted and not finished: a queue's issued commands, or the commands placed on a unit. -/
def pageBusy (s : State) (page : Nat) : Bool :=
  match queueOf page with
  | some q => decide (queueIssued s q ≠ 0)
  | none => s.cmds.table.any (fun e => (e.stage == .placed || e.stage == .running) && (unitPages e).contains page)

/-- Enable a queue (R97, R101): the four indices go to 0; a draining queue ignores and counts the write. -/
def enableQueue (s : State) (q : Nat) : State :=
  let p := pgCmdQ q
  if blkState s p = 3 then satF s (CMD_Q_STAT_cfg_denied q) 1
  else if isSet s (BLK_CTRL_enable p) ∨ blkState s p ≠ 0 then s
  else
    let s := setF (setF s (CMD_Q_TAIL_tail q) 0) (CMD_Q_HEAD_head q) 0
    let s := setF (setF s (CMD_CQ_HEAD_cq_head q) 0) (CMD_CQ_TAIL_cq_tail q) 0
    setBlk (setF s (BLK_CTRL_enable p) 1) p 2

/-- Write enable 1 (R75, R404): an off page passes through starting to ready, a draining unit takes work again. -/
def enablePage (s : State) (page : Nat) : State :=
  match queueOf page with
  | some q => enableQueue s q
  | none =>
    let s := setF s (BLK_CTRL_enable page) 1
    if blkState s page = 0 ∨ blkState s page = 3 then setBlk s page 2 else s

/-- Write enable 0 (R75, R101): a page that serves drains; a faulted one stays in fault. -/
def disablePage (s : State) (page : Nat) : State :=
  let s := setF s (BLK_CTRL_enable page) 0
  if blkState s page = 0 ∨ blkState s page = 3 ∨ blkState s page = 4 then s else setBlk s page 3

/-- BLOCK_DRAINED (R75, R101): the accepted work has ended; so has a soft_reset that waited for it (R74). -/
def blockDrained (s : State) (page : Nat) : State :=
  if blkState s page = 3 ∧ !pageBusy s page then setF (setBlk s page 0) (BLK_CTRL_soft_reset page) 0 else s

/-- End the commands of a kind with ABORTED (R101). -/
def abortWhere (s : State) (f : CmdEntry → Bool) : State :=
  (s.cmds.table.filter f).foldl (fun s e => haltCmd s e.q e.idx stAborted) s

/-- A soft_reset of a queue page (R101): its issued commands end ABORTED, their completion records follow as they
retire, and the page then reads off with enable 0. -/
def resetQueue (s : State) (q : Nat) : State :=
  let p := pgCmdQ q
  if blkState s p = 0 then s
  else setBlk (setF (abortWhere s (fun e => e.q == q)) (BLK_CTRL_enable p) 0) p 3

/-- The Cabouz counters and damage record (R251). -/
def clearCabouz (s : State) : State :=
  ([0x100, 0x104, 0x108, 0x10C, 0x110, 0x114, 0x118] : List Nat).foldl (fun s o => setReg s (pgCBZ * 0x1000 + o) 0) s

/-- What a block's chapter gives soft_reset on a page. -/
def softEffect (s : State) (page : Nat) : State :=
  match pageOf page with
  | some ⟨0x00B, 1, q⟩ => resetQueue s q
  | some ⟨0x00D, _, l⟩ => laneReset s l
  | some ⟨0x010, _, _⟩ => setF { s with num := { s.num with slots := [] } } NUM_JOB_job_valid 0
  | some ⟨0x011, 0, _⟩ => clearCabouz s
  | some ⟨0x015, _, n⟩ => portReset s n
  | some ⟨0x012, _, _⟩ =>
    let s := abortWhere s (fun e => e.cls == 3 && e.stage == .running)
    { s with coll := { s.coll with landings := [] } }
  | some ⟨0x013, _, _⟩ => abortWhere s (fun e => e.cls == 4)
  | some ⟨0x00F, _, _⟩ =>
    if !isSet s DEV_START_cellar_ready ∧ blkState s page = 4 then setBlk s page 1 else s
  | _ => s

/-- A soft_reset has not ended yet: a lane resets, a port trains again, a queue's commands retire, the cellar trains (R74). -/
def softPending (s : State) (page : Nat) : Bool :=
  match pageOf page with
  | some ⟨0x00B, 1, _⟩ => blkState s page == 3
  | some ⟨0x00D, _, l⟩ => (lane s l).resetting
  | some ⟨0x015, _, n⟩ => (port s n).resetBusy
  | some ⟨0x00F, _, _⟩ => blkState s page == 1
  | _ => false

/-- soft_reset written 1 (R74, R75, R78): the expert area closes, the block is reset as its chapter states, a fault is left,
and the bit reads 1 until the reset is done. Discarded during a wider reset (R61). -/
def softReset (s : State) (page : Nat) : State :=
  if widerReset s then s
  else
    let s := softEffect (setF s (BLK_CTRL_expert_open page) 0) page
    let s := if blkState s page = 4 then setBlk s page (if isSet s (BLK_CTRL_enable page) then 2 else 0) else s
    setF s (BLK_CTRL_soft_reset page) (b2n (softPending s page))

/-- A 4-byte write to BLK_CTRL (R78): unlock, then enable, then soft_reset, which closes an area the same write opens. -/
def writeBlkCtrl (s : State) (page : Nat) (v : Word) : State :=
  let s := writeUnlock s page (v.extractLsb' 16 16)
  let s := if bitOf v.toNat 0 then enablePage s page else if isSet s (BLK_CTRL_enable page) then disablePage s page else s
  if bitOf v.toNat 1 then softReset s page else s

/-- The BLK_CTRL word of an unlock field, a soft_reset bit and an enable bit. -/
def ctrlWord (unlock : BitVec 16) (soft enable : Bool) : Word :=
  BitVec.ofNat 32 (unlock.toNat * 65536 + 2 * b2n soft + b2n enable)

def execBlockEnable (page : Nat) (unlock : BitVec 16) (s : State) : Host.Outcome State Fault Refusal :=
  onInstance (isPage page) (onPage s page (writeBlkCtrl s page (ctrlWord unlock false true)))

def execBlockDisable (page : Nat) (unlock : BitVec 16) (s : State) : Host.Outcome State Fault Refusal :=
  onInstance (isPage page) (onPage s page (writeBlkCtrl s page (ctrlWord unlock false false)))

/-- BLOCK_SOFT_RESET: enable is written as it reads. -/
def execBlockSoftReset (page : Nat) (unlock : BitVec 16) (s : State) : Host.Outcome State Fault Refusal :=
  onInstance (isPage page) (onPage s page (writeBlkCtrl s page (ctrlWord unlock true (isSet s (BLK_CTRL_enable page)))))

def execBlockDrained (page : Nat) (s : State) : Host.Outcome State Fault Refusal :=
  onInstance (isPage page) (whileRunning s (blockDrained s page))

end Sys2Proof.Machine
end

