-- ==== Sys2Proof/Machine/Cellar.lean ====
section
/-! DEFINITION. The cellar's own rows (09_memory R222-R230): training and repair, retraining, MR4, the patrol and the
background initialiser. -/

namespace Sys2Proof.Machine

/-- A package number the module has. -/
def isPkg (n : Nat) : Bool := decide (n < 24)

/-! ### Training and repair (R222, R223, R230) -/

/-- Take one spare of a package's bank group, if its mode registers report one. spares lists package, bank group and
count. -/
def takeSpare (pkg group : Nat) : List (Nat × Nat × Nat) → Option (List (Nat × Nat × Nat))
  | [] => none
  | (p, g, n) :: t =>
    if p = pkg ∧ g = group ∧ n ≠ 0 then some ((p, g, n - 1) :: t)
    else match takeSpare pkg group t with
      | some t' => some ((p, g, n) :: t')
      | none => none

/-- The bank, bank group and row of a candidate's row number (R221: four banks a group). -/
def rowBank (row : Nat) : Nat := row / 2 ^ 32
def rowIndex (row : Nat) : Nat := row % 2 ^ 32

/-- Apply hard PPR to one candidate; the log keeps it among the repairs made (R230). -/
def applyPpr (st : State × List (Nat × Nat × Nat)) (c : Nat × Nat × Nat) : State × List (Nat × Nat × Nat) :=
  let (s, spares) := st
  let pay := [c.1, c.2.1, rowBank c.2.2, rowIndex c.2.2]
  match takeSpare c.1 (rowBank c.2.2 / 4) spares with
  | some spares' =>
    let s := { s with flash := { s.flash with
      repairs := s.flash.repairs.filter (· != c), repaired := s.flash.repaired ++ [c] } }
    (raiseEv (satF s (CEL_PKG_STATE_ppr_used c.1) 1) pgCEL evPprApplied pay, spares')
  | none => (raiseEv s pgCEL evPprExhausted pay, spares)

/-- The registers that show a package's repairs after a start. -/
def showPkg (spares : List (Nat × Nat × Nat)) (s : State) (pkg : Nat) : State :=
  let s := setF s (CEL_PKG_STATE_ppr_avail pkg) (min 15 (((spares.filter (fun x => x.1 == pkg)).map (fun x => x.2.2)).foldl (· + ·) 0))
  setF s (CEL_PKG_STATE_candidates pkg) (s.flash.repairs.filter (fun r => r.1 == pkg)).length

/-- A package that failed twice (R223): failed lists packages with the masks of their failed channels. -/
def failPkg (s : State) (f : Nat × Nat) : State :=
  let s := setF (setF s (CEL_PKG_STATE_failed f.1) 1) (CEL_PKG_STATE_ch_trained f.1) (255 - f.2 % 256)
  raiseEv (satF s CEL_STATE_failed_pkgs 1) pgCEL evCelTrainFailed [f.1, f.2 % 256]

/-- A word of a package page's seeds: factory or user, of a channel (R385). -/
def isSeedWord (a : Nat) : Bool :=
  decide (0x081 ≤ a / 0x1000 ∧ a / 0x1000 ≤ 0x098) &&
    decide ((0xC00 ≤ a % 0x1000 ∧ a % 0x1000 < 0xC80) ∨ (0xE00 ≤ a % 0x1000 ∧ a % 0x1000 < 0xE80))

/-- The effective seed in byte k of word w of a channel, as the last training read it (R80, R385). -/
def trainingSeed (s : State) (pkg channel w k : Nat) : Nat :=
  let a := pgCelPkg pkg * 0x1000 + 0xC00 + 16 * channel + 4 * w
  let byteAt := fun a => bitsOf (tget resetWord s.mem.seeds a).toNat (8 * k) 8
  (clampInt 0 255 ((byteAt a : Int) + signed 8 (byteAt (a + 0x200)))).toNat

/-- CELLAR_TRAINING_DONE (R222, R223, R226, R230). The seeds are read at training only (R385). -/
def cellarTrainingDone (s : State) (failed : List (Nat × Nat)) (spares : List (Nat × Nat × Nat)) : State :=
  if s.life ≠ .running ∨ !isSet s DEV_START_steward_ready ∨ isSet s DEV_START_cellar_ready ∨ blkState s pgCEL = 4 then s
  else
    let s := (List.range 24).foldl (fun s p => setF s (CEL_PKG_STATE_ch_trained p) 255) s
    if failed.isEmpty then
      let (s, spares) := s.flash.repairs.foldl applyPpr (s, spares)
      let s := (List.range 24).foldl (showPkg spares) s
      let s := setF (setF s CEL_STATE_trained 1) CEL_STATE_ppr_pending (b2n (!s.flash.repairs.isEmpty))
      let s := { s with mem := { s.mem with
        cells := s.mem.cells.filter (fun c => regionOf c.1 != .cellar), regions := [], allInit := false,
        seeds := s.regs.filter (fun e => isSeedWord e.1), readyAt := elapsed s,
        damaged := s.mem.damaged.filter (fun a => regionOf a != .cellar) } }
      let s := ([pgCEL] ++ (List.range 24).map pgCelPkg).foldl (fun s p => setBlk s p 2) s
      let s := setF s (BLK_CTRL_soft_reset pgCEL) 0
      setF s DEV_START_cellar_ready 1
    else blkFault (failed.foldl failPkg s) pgCEL 1

def execCellarTrainingDone (failed : List (Nat × Nat)) (spares : List (Nat × Nat × Nat)) (s : State) : Host.Outcome State Fault Refusal :=
  onInstance (failed.all (fun f => isPkg f.1)) (cellarTrainingDone s failed spares)

/-! ### Retraining and temperature (R224, R225) -/

/-- A run of a package's interval oscillators: each channel that drifted past the limit is corrected (R224). -/
def retrain (s : State) (pkg : Nat) (drifts : List Int) : State :=
  if isSet s (CEL_PKG_TRAIN_X_freeze pkg) then s
  else satF s CEL_RETRAIN_corrections
    ((drifts.take 8).filter (fun d => decide (getF s (CEL_PKG_TRAIN_X_drift_limit pkg) < d.natAbs))).length

/-- CELLAR_RETRAIN_TICK (R224). -/
def execCellarRetrainTick (pkg : Nat) (drifts : List Int) (s : State) : Host.Outcome State Fault Refusal :=
  onInstance (isPkg pkg) (whileRunning s (if isSet s DEV_START_cellar_ready then retrain s pkg drifts else s))

/-- A write of retrain_now (R78, R224): an expert field; it clears when the run is done. -/
def retrainNow (s : State) (pkg : Nat) (drifts : List Int) : State :=
  if !expertOpen s (pgCelPkg pkg) then satF s (BLK_CTRL_expert_denied (pgCelPkg pkg)) 1
  else if isSet s DEV_START_cellar_ready then retrain s pkg drifts else s

/-- CELLAR_RETRAIN_NOW (R224). -/
def execCellarRetrainNow (pkg : Nat) (drifts : List Int) (s : State) : Host.Outcome State Fault Refusal :=
  onInstance (isPkg pkg) (onPage s (pgCelPkg pkg) (retrainNow s pkg drifts))

/-- MR4_POLL (R225, R380): the refresh rate, cel.temp.high on entering the range above, and the pacers' term. -/
def mr4Poll (s : State) (pkg rate : Nat) (above : Bool) : State :=
  let was := s.pac.celHot.contains pkg
  let s := setF s (CEL_PKG_STATE_mr4_rate pkg) rate
  let hot := if above then (if was then s.pac.celHot else pkg :: s.pac.celHot) else s.pac.celHot.filter (· != pkg)
  let s := { s with pac := { s.pac with celHot := hot } }
  let s := if above && !was then raiseEv s pgCEL evCelTempHigh [pkg, rate] else s
  setPace s PAC_STATE_cel_hold (b2n (!hot.isEmpty))

def execMr4Poll (pkg rate : Nat) (above : Bool) (s : State) : Host.Outcome State Fault Refusal :=
  onInstance (isPkg pkg) (whileRunning s (if isSet s DEV_START_cellar_ready then mr4Poll s pkg rate above else s))

/-! ### Patrol and initialiser (R226, R229) -/

/-- PATROL_READ (R229): an initialised line is read and checked; last ends a pass. -/
def patrolRead (s : State) (line : Nat) (hits : List Hit) (last : Bool) : State :=
  if isSet s DEV_START_cellar_ready ∧ isSet s CEL_SCRUB_patrol_en then
    let a := lineOf line
    let s := if regionOf a = .cellar ∧ initialised s a then (memRead s hits a 64 .patrol none).1 else s
    if last then satF s CEL_SCRUB_passes 1 else s
  else s

def execPatrolRead (line : Nat) (hits : List Hit) (last : Bool) (s : State) : Host.Outcome State Fault Refusal :=
  .next (whileRunning s (patrolRead s line hits last))

/-- The lowest region of a channel whose bit is clear. -/
def nextRegion (s : State) (ch : Nat) : Nat :=
  ((List.range (s.mem.regions.length + 1)).find? (fun r => !tget (fun _ => false) s.mem.regions (ch * 0x400000 + r))).getD 0

/-- CELLAR_INIT_REGION (R226): the initialiser zeroes the channel's next region and sets its bit; the last bit of all
sets init_done. ms is the time since cellar_ready. -/
def initRegion (s : State) (ch ms : Nat) : State :=
  let r := nextRegion s ch
  if isSet s DEV_START_cellar_ready ∧ !s.mem.allInit then
    setInit s (if r < channelRegions then [ch * 0x400000 + r] else []) ms
  else s

def execCellarInitRegion (channel ms : Nat) (s : State) : Host.Outcome State Fault Refusal :=
  onInstance (decide (channel < 192)) (whileRunning s (initRegion s channel ms))

end Sys2Proof.Machine
end

