-- ==== Sys2Proof/Machine/Keys.lean ====
section
/-! DEFINITION. MACsec associations and scheduled key changes (14_milant R335-R339). -/

namespace Sys2Proof.Machine

def evKeyInstalled : Ev := ⟨0x6401, 1⟩
def evUnwrapFailed : Ev := ⟨0x6402, 3⟩
def evKeySwitched : Ev := ⟨0x6403, 1⟩
def evKeyRetired : Ev := ⟨0x6404, 1⟩
def evSchedRefused : Ev := ⟨0x6406, 2⟩

/-- The association numbers of a list, as a mask. -/
def anMask (as : List Assoc) : Nat := ((List.range 4).map (fun n => if as.any (fun a => a.an == n) then 2 ^ n else 0)).foldl (· + ·) 0

/-- Show the associations and the armed changes in MIL_PORT_STATE and KEY_STATE. -/
def showKeys (s : State) : State :=
  let one := fun (s : State) (n : Nat) =>
    let p := milPort s n
    let s := setF (setF s (MIL_PORT_STATE_tx_live n) (b2n p.live.isSome)) (MIL_PORT_STATE_tx_an n) (p.live.getD 0)
    setF s (MIL_PORT_STATE_rx_an n) (anMask p.rx)
  let s := one (one s 0) 1
  let s := setF (setF s KEY_STATE_tx0 (anMask (milPort s 0).tx)) KEY_STATE_rx0 (anMask (milPort s 0).rx)
  let s := setF (setF s KEY_STATE_tx1 (anMask (milPort s 1).tx)) KEY_STATE_rx1 (anMask (milPort s 1).rx)
  setF s KEY_STATE_pending (b2n (milPort s 0).armTx.isSome + 2 * b2n (milPort s 0).armRx.isSome
    + 4 * b2n (milPort s 1).armTx.isSome + 8 * b2n (milPort s 1).armRx.isSome)

/-- The associations of a port and direction. -/
def assocsOf (s : State) (n : Nat) (rx : Bool) : List Assoc := if rx then (milPort s n).rx else (milPort s n).tx

/-- The number the wrapped words and the key-encryption key spell: what the strongroom unwraps. -/
def keyNumber (s : State) : Nat :=
  leNat ((List.range 14).flatMap (fun w => natLe 4 (reg s (0xF100 + 4 * w)).toNat)) + 2 ^ 448 * s.stw.kekCount

/-- Take the port, direction and AN of a write to KEY_INSTALL. -/
def keyFields (s : State) (v : Word) : State :=
  setF (setF (setF s KEY_INSTALL_port (bitsOf v.toNat 0 1)) KEY_INSTALL_dir (bitsOf v.toNat 1 1)) KEY_INSTALL_an (bitsOf v.toNat 2 2)

/-- KEY_INSTALL (R335): the strongroom unwraps the association, or the install fails with nothing installed. The unwrap is
tried first, so that without a key-encryption key every install fails with result 1 (R374; log entry 103). -/
def keyInstall (s : State) (v : Word) (unwraps : Bool) : State :=
  let s := keyFields s v
  let n := bitsOf v.toNat 0 1
  let rx := bitOf v.toNat 1
  let an := bitsOf v.toNat 2 2
  let p := milPort s n
  let as := assocsOf s n rx
  if !unwraps ∨ s.stw.kek.isNone then raiseEv (setF s KEY_INSTALL_result 1) pgKEY evUnwrapFailed [n, b2n rx, an]
  else if (if rx then as.any (fun a => a.an == an) else p.live == some an) then setF s KEY_INSTALL_result 2
  else if 2 ≤ (as.filter (fun a => a.an != an)).length then setF s KEY_INSTALL_result 3
  else
    let key := keyNumber s
    let s := if rx then setMilPort s n { p with rx := as ++ [⟨an, key, 0⟩] }
      else setMilPort s n { p with
        tx := as.filter (fun a => a.an != an) ++ [⟨an, key, 1⟩],
        live := (if p.live.isNone then some an else p.live), exhausted := p.exhausted && p.live.isSome }
    raiseEv (showKeys (setF s KEY_INSTALL_result 0)) pgKEY evKeyInstalled [n, b2n rx, an]

def execKeyInstall (v : Word) (unwraps : Bool) (s : State) : Host.Outcome State Fault Refusal :=
  .next (onPage s pgKEY (keyInstall s v unwraps))

/-- KEY_ERASE (R335): refused while the AN is live for transmit, or not installed. -/
def keyErase (s : State) (v : Word) : State :=
  let s := keyFields s v
  let n := bitsOf v.toNat 0 1
  let rx := bitOf v.toNat 1
  let an := bitsOf v.toNat 2 2
  let p := milPort s n
  if !(assocsOf s n rx).any (fun a => a.an == an) then setF s KEY_INSTALL_result 4
  else if !rx ∧ p.live = some an then setF s KEY_INSTALL_result 2
  else
    let s := setMilPort s n (if rx then { forgetAn p an with grace := p.grace.filter (· != an) }
      else { p with tx := p.tx.filter (fun a => a.an != an), oldTx := if p.oldTx = some an then none else p.oldTx })
    showKeys (setF s KEY_INSTALL_result 0)

def execKeyErase (v : Word) (s : State) : Host.Outcome State Fault Refusal := .next (onPage s pgKEY (keyErase s v))

/-! ### Scheduled changes (R337, R338) -/

/-- The instant in KEY_AT. -/
def keyAt (s : State) : Nat := getF s KEY_AT_LO_at + 2 ^ 32 * getF s KEY_AT_HI_at

/-- KEY_SCHED_ARM (R337): armed, or refused for the first reason that holds. -/
def keySched (s : State) (v : Word) : State :=
  let n := bitsOf v.toNat 0 1
  let rx := bitOf v.toNat 1
  let an := bitsOf v.toNat 2 2
  let s := setF (setF (setF s KEY_SCHED_port n) KEY_SCHED_dir (b2n rx)) KEY_SCHED_an an
  let s := setF s KEY_SCHED_grace_ms (bitsOf v.toNat 16 16)
  let p := milPort s n
  let t := keyAt s
  let refuse := fun (r : Nat) => raiseEv (setF s KEY_SCHED_refused 1) pgKEY evSchedRefused [n, b2n rx, r]
  if !isSet s DEV_START_time_valid then refuse 1
  else if t < s.deviceTime + 1000000 then refuse 2
  else if !rx ∧ !p.tx.any (fun a => a.an == an) then refuse 3
  else
    let s := setMilPort s n (if rx then { p with armRx := some (an, t, max 1 (bitsOf v.toNat 16 16)) } else { p with armTx := some (an, t) })
    showKeys (setF s KEY_SCHED_refused 0)

def execKeySchedArm (v : Word) (s : State) : Host.Outcome State Fault Refusal := .next (onPage s pgKEY (keySched s v))

/-- KEY_CHANGE_INSTANT (R338): at T the transmitter closes its open group under the old association and goes over to the
new one; a receiver's old AN enters its grace. -/
def keyInstant (s : State) (n : Nat) (receive : Bool) : State :=
  if receive then
    match (milPort s n).armRx with
    | none => s
    | some (an, _, _) => showKeys (setMilPort s n { milPort s n with armRx := none, grace := an :: (milPort s n).grace })
  else
    match (milPort s n).armTx with
    | none => s
    | some (an, t) =>
      let s := closeGroup s n
      let p := milPort s n
      if !p.tx.any (fun a => a.an == an) then showKeys (setMilPort s n { p with armTx := none })
      else
        let old := p.live
        let s := setMilPort s n { p with armTx := none, live := some an, exhausted := false, oldTx := if old = some an then none else old }
        raiseEv (showKeys s) pgKEY evKeySwitched [n, old.getD an, an, t]

def execKeyChangeInstant (port : Nat) (receive : Bool) (s : State) : Host.Outcome State Fault Refusal :=
  onInstance (isMilPort port) (whileRunning s (keyInstant s port receive))

/-- OLD_TX_ASSOC_ERASE (R338): its last frame has left. -/
def eraseOldTx (s : State) (n : Nat) : State :=
  let p := milPort s n
  match p.oldTx with
  | none => s
  | some an => showKeys (setMilPort s n { p with tx := p.tx.filter (fun a => a.an != an), oldTx := none })

def execOldTxAssocErase (port : Nat) (s : State) : Host.Outcome State Fault Refusal :=
  onInstance (isMilPort port) (whileRunning s (eraseOldTx s port))

/-- KEY_GRACE_EXPIRY (R338): the old receive AN is erased. -/
def graceExpiry (s : State) (n : Nat) : State :=
  let p := milPort s n
  match p.grace.reverse with
  | [] => s
  | an :: _ =>
    let s := setMilPort s n { forgetAn p an with grace := p.grace.dropLast }
    raiseEv (showKeys s) pgKEY evKeyRetired [n, an]

def execKeyGraceExpiry (port : Nat) (s : State) : Host.Outcome State Fault Refusal :=
  onInstance (isMilPort port) (whileRunning s (graceExpiry s port))

end Sys2Proof.Machine
end

