-- ==== Sys2Proof/Machine/Steward.lean ====
section
/-! DEFINITION. The Steward (15_steward_security R362-R372, R379): watchdogs, trickle update, and the trial of a bank. -/

namespace Sys2Proof.Machine

def evWatchdog : Ev := ⟨0x1C01, 4⟩
def evManifestRefused : Ev := ⟨0x2001, 2⟩
def evPieceRefused : Ev := ⟨0x2002, 2⟩
def evFwuReady : Ev := ⟨0x2003, 1⟩
def evApplyFailed : Ev := ⟨0x2004, 3⟩

/-- The Steward serves: it has come up and is not restarting or held. -/
def stewardUp (s : State) : Bool := s.life == .running && isSet s DEV_START_steward_ready && !s.stw.restarting

/-! ### Watchdogs (R362, R363, R367) -/

/-- An hour in nanoseconds. -/
def hourNs : Nat := 3600000000000

/-- A watchdog that expires before the Steward is ready in a trial start: the bank in trial is marked failed and the old one
is active again, so that the next start falls back (R367). In the trial's first start the record still names it as pending. -/
def lapseTrial (s : State) : State :=
  let b := s.flash.boot
  let lapse := fun (r : BootRec) => writeBoot { s with flash := { s.flash with lapsed := true } } r
  if isSet s DEV_START_steward_ready then s
  else match b.pending with
    | some p => lapse { markBank b p true with pending := none, trial := false }
    | none => if b.trial then lapse { markBank b b.active true with active := !b.active, trial := false } else s

/-- WATCHDOG_EXPIRY (R362, steps 1 and 2; R363): 0 to 3 a core, 4 the supervisor, 5 an SRAM parity failure. -/
def watchdogExpiry (s : State) (which : Nat) : State :=
  if s.life ≠ .running ∨ !isSet s DEV_START_fuses_done ∨ isSet s STW_STATE_held then s
  else
    let near := s.stw.expiries.filter (fun t => decide (elapsed s ≤ t + hourNs)) ++ [elapsed s]
    let s := satF { s with stw := { s.stw with expiries := near } } STW_STATE_expiries 1
    let s := { s with flash := { s.flash with
      watchdogs := s.flash.watchdogs ++ [(which, timeNow s)],
      crashes := if which < 4 then s.flash.crashes ++ [(which, timeNow s)] else s.flash.crashes } }
    let s := raiseEv s pgSTW evWatchdog [which, near.length]
    let s := lapseTrial s
    let running := s.cmds.table.filter (fun e => e.cls == 7 && e.stage == .running)
    let s := running.foldl (fun s e => endCmd s e.q e.idx stUnitFault 0 []) s
    let s := setBlk { s with stw := { s.stw with restarting := true, applying := false, downAt := elapsed s } } pgSTW 1
    if 3 ≤ near.length then
      blkFault (setF { s with pins := { s.pins with faultN := true } } STW_STATE_held 1) pgSTW evWatchdog.code
    else s

def execWatchdogExpiry (which : Nat) (s : State) : Host.Outcome State Fault Refusal :=
  onInstance (decide (which < 6)) (watchdogExpiry s which)

/-- STEWARD_RESTARTED (R362, steps 3 and 4): the boot ROM reads the image of boot_bank right, it verifies, and services resume. A DOE object that came
meanwhile is discarded, and an application that was under way begins again (R371, R375). -/
def stewardRestarted (s : State) (readOk : Bool) : State :=
  let bank := bankBytes s.flash (isSet s DEV_START_boot_bank)
  if s.life ≠ .running ∨ !s.stw.restarting ∨ isSet s STW_STATE_held ∨ !isSet s DEV_START_steward_ready
      ∨ !readOk ∨ !bankOk s.fuses (getF s DEV_INFO_arith_rev) bank then s
  else
    let s := serveAgain s
    let s := if s.host.doe.isSome then emit { s with host := { s.host with doe := none } } .doeAborted else s
    maybeApply s

def execStewardRestarted (readOk : Bool) (s : State) : Host.Outcome State Fault Refusal := .next (stewardRestarted s readOk)

/-! ### Records (R370) -/

/-- A data object the mailbox accepts: up to 128 KiB with its 8-byte header (R85). -/
def doeFits (bytes : List Byte) : Bool := decide (bytes.length + 8 ≤ 131072)

/-- A DOE request the Steward cannot take now stands in the mailbox (R375); one too large is aborted with an error response
(R85). -/
def doeWait (s : State) (protocol : Nat) (bytes : List Byte) : State :=
  if !isSet s DEV_START_steward_ready ∨ s.life ≠ .running then s
  else if !doeFits bytes then emit s (.doeError protocol)
  else { s with host := { s.host with doe := some (protocol, bytes) } }

/-- The record of a delivery: the DOE object, or what stands at the address in FWU_SUBMIT. -/
def readRecord (s : State) (record : Option (List Byte)) (hi : Word) (hits : List Hit) : State × Option (List Byte) :=
  match record with
  | some b => (s, some b)
  | none =>
    let s := setF s FWU_SUBMIT_HI_addr hi.toNat
    let a := getF s FWU_SUBMIT_LO_addr + 2 ^ 32 * hi.toNat
    if !inMemory a 32 then (s, none)
    else match memRead s hits a 32 .network none with
      | (s, none) => (s, none)
      | (s, some h) =>
        let n := leAt h 16 4
        if n = 0 then (s, some h)
        else if 65536 < n ∨ !inMemory (a + 32) n then (s, none)
        else match memRead s hits (a + 32) n .network none with
          | (s, none) => (s, none)
          | (s, some bs) => (s, some (h ++ bs))

/-- A record's header is well formed, and as many bytes follow as it says. -/
def recordOk (r : List Byte) : Bool :=
  zeroAt r 9 3 && zeroAt r 20 12 && decide (leAt r 16 4 ≤ 65536 ∧ r.length = 32 + leAt r 16 4)

/-- The answer to a record: its result code (0 taken, 1 refused), the count of pieces held and what follows. -/
def answerRecord (s : State) (record : Option (List Byte)) (code : Nat) (more : List Byte) : State :=
  if record.isSome then emit s (.doe 2 (natLe 4 code ++ natLe 4 s.flash.pieces.length ++ more)) else s

/-- The bitmap of staging. -/
def pieceMap (s : State) : List Byte :=
  (List.range 64).map (fun i => BitVec.ofNat 8 (((List.range 8).map (fun b =>
    if s.flash.pieces.any (fun p => p.1 == 8 * i + b) then 2 ^ b else 0)).foldl (· + ·) 0))

/-- The data object of a delivery through the mailbox; a delivery by FWU_SUBMIT has none (R370). -/
def byMailbox (mailbox : Bool) (record : List Byte) : Option (List Byte) := if mailbox then some record else none

/-- Run a row on a record of its kind. -/
def recordRow (ok : Nat → Bool) (s : State) (record : Option (List Byte)) (hi : Word) (hits : List Hit)
    (body : State → List Byte → State) : State :=
  if !stewardUp s then (match record with | some b => doeWait s 2 b | none => s)
  else if record.any (fun b => !doeFits b) then emit s (.doeError 2)
  else match readRecord s record hi hits with
    | (s, none) => s
    | (s, some r) => if ok (leAt r 8 1) then body s r else s

/-! ### The manifest (R369) -/

/-- The id and the staged manifest's fields. -/
def updateId (s : State) : Nat := leAt s.flash.manifest 8 8
def digestOf (m : List Byte) (i : Nat) : List Byte := bytesAt m (7424 + 32 * i) 32

/-- Format, key and signature (reason 1). -/
def manifestOk (f : FuseSt) (m : List Byte) : Bool :=
  leAt m 0 4 == 0x4B375550 && leAt m 4 1 == 1 && decide (leAt m 7 1 ≤ 64) && bytesAt m 8 8 == (sha3 (bytesAt m 16 4080)).take 8
    && decide (1 ≤ leAt m 80 2 ∧ leAt m 80 2 ≤ 512) && zeroAt m 82 2 && decide (leAt m 84 4 ≤ 65536 * leAt m 80 2)
    && zeroAt m 88 296 && zeroAt m 2336 1760 && decide (7424 + 32 * leAt m 80 2 ≤ m.length) && keyOk f m

/-- Why a manifest is refused (R369). -/
def manifestFault (s : State) (m : List Byte) : Option Nat :=
  if !manifestOk s.fuses m then some 1
  else if bytesAt m 16 32 ≠ sha3 (flashRead (bankBytes s.flash s.flash.boot.active) 0 4096) then some 2
  else if leAt m 7 1 < s.fuses.counter then some 3
  else if s.flash.manifest ≠ [] ∧ s.flash.journal ≠ 3 then some 4
  else if s.flash.boot.trial then some 5
  else none

/-- UPDATE_MANIFEST (R369, R370): staged with an empty bitmap, or refused. -/
def updateManifest (record : Option (List Byte)) (s : State) (r : List Byte) : State :=
  let m := r.drop 32
  match (if recordOk r then manifestFault s m else some 1) with
  | some why => answerRecord (raiseEv s pgFWU evManifestRefused [leAt m 8 8, why]) record 1 []
  | none =>
    let s := showUpdate { s with flash := { s.flash with manifest := m, pieces := [], journal := 0 } }
    answerRecord s record 0 []

def execUpdateManifest (mailbox : Bool) (record : List Byte) (hi : Word) (hits : List Hit) (s : State) :
    Host.Outcome State Fault Refusal :=
  .next (whileRunning s (recordRow (· == 1) s (byMailbox mailbox record) hi hits (updateManifest (byMailbox mailbox record))))

/-! ### Pieces (R370) -/

/-- A piece fits the staged manifest. -/
def pieceOk (s : State) (r : List Byte) : Bool :=
  let i := leAt r 12 4
  let n := updPieces s
  recordOk r && leAt r 0 8 == updateId s && decide (i < n) && (leAt r 16 4 == 65536 || i + 1 == n)
    && sha3 (r.drop 32) == digestOf s.flash.manifest i

/-- UPDATE_PIECE (R370): stored and marked, acknowledged again, or refused. -/
def updatePiece (record : Option (List Byte)) (s : State) (r : List Byte) : State :=
  let i := leAt r 12 4
  if !pieceOk s r then answerRecord (raiseEv s pgFWU evPieceRefused [leAt r 0 8, i]) record 1 []
  else
    let held := s.flash.pieces.any (fun p => p.1 == i)
    let t := if held then s else maybeApply { s with flash := { s.flash with pieces := tput i (r.drop 32) s.flash.pieces } }
    answerRecord t record 0 []

def execUpdatePiece (mailbox : Bool) (record : List Byte) (hi : Word) (hits : List Hit) (s : State) :
    Host.Outcome State Fault Refusal :=
  .next (whileRunning s (recordRow (· == 2) s (byMailbox mailbox record) hi hits (updatePiece (byMailbox mailbox record))))

/-- UPDATE_STATUS (R370): the bitmap is returned; a record of a reserved kind is refused. -/
def updateStatus (record : Option (List Byte)) (s : State) (r : List Byte) : State :=
  if leAt r 8 1 = 3 then answerRecord s record 0 (pieceMap s) else answerRecord s record 1 []

def execUpdateStatus (mailbox : Bool) (record : List Byte) (hi : Word) (hits : List Hit) (s : State) :
    Host.Outcome State Fault Refusal :=
  .next (whileRunning s (recordRow (fun k => k != 1 && k != 2) s (byMailbox mailbox record) hi hits (updateStatus (byMailbox mailbox record))))

/-! ### Application (R371) -/

/-- What a patch stream comes to: the output, or the offset at which it fails. -/
def runPatch (active : List Byte) : Nat → Nat → List Byte → List Byte → Except Nat (List Byte)
  | 0, off, _, _ => .error off
  | k + 1, off, st, out =>
    let op := leAt st 0 1
    let n := leAt st 4 4
    if st.length < 16 ∨ !zeroAt st 2 2 then .error off
    else if op = 0 then (if (st.drop 16).all (· == 0) then .ok out else .error off)
    else if 3 < op ∨ bankSize < out.length + n then .error off
    else if op = 1 then
      (if bankSize < leAt st 8 8 + n then .error off else runPatch active k (off + 16) (st.drop 16) (out ++ flashRead active (leAt st 8 8) n))
    else if op = 2 then
      (if st.length < 16 + roundUp n 16 then .error off
       else runPatch active k (off + 16 + roundUp n 16) (st.drop (16 + roundUp n 16)) (out ++ bytesAt st 16 n))
    else runPatch active k (off + 16) (st.drop 16) (out ++ List.replicate n (BitVec.ofNat 8 (leAt st 1 1)))

/-- The patch stream: the pieces in index order, as long as the manifest says. -/
def patchStream (s : State) : List Byte := ((s.flash.pieces.flatMap (·.2))).take (leAt s.flash.manifest 84 4)

/-- A bank passes R366 and R368, and its manifest is the target. -/
def builtOk (s : State) (bank : List Byte) : Bool :=
  bankOk s.fuses (getF s DEV_INFO_arith_rev) bank && imagesOk bank
    && sha3 (flashRead bank 0 4096) == bytesAt s.flash.manifest 48 32

/-- Application fails (R371): the bank stays marked failed, and the pieces stay. -/
def applyFails (s : State) (off : Nat) : State :=
  raiseEv (showUpdate { s with flash := { s.flash with journal := 2 } }) pgFWU evApplyFailed [updateId s, off]

/-- UPDATE_APPLY_DONE (R371, steps 3 to 5): flashFails is the offset in the stream at which the flash fails to take a write, if
it does. -/
def applyDone (s : State) (flashFails : Option Nat) : State :=
  if !stewardUp s ∨ !s.stw.applying then s
  else
    let b := !s.flash.boot.active
    let st := patchStream s
    let s := { s with stw := { s.stw with applying := false } }
    match flashFails, runPatch (bankBytes s.flash s.flash.boot.active) (st.length / 16 + 1) 0 st [] with
    | some off, _ => applyFails s off
    | none, .error off => applyFails s off
    | none, .ok bank =>
      let s := { s with flash := if b then { s.flash with bankB := bank } else { s.flash with bankA := bank } }
      if !builtOk s bank then applyFails s st.length
      else
        let s := writeBoot s { markBank s.flash.boot b false with pending := some b }
        let s := showUpdate { s with flash := { s.flash with journal := 3 } }
        raiseEv (setF s STW_STATE_pending 1) pgFWU evFwuReady [updateId s, b2n b]

def execUpdateApplyDone (flashFails : Option Nat) (s : State) : Host.Outcome State Fault Refusal :=
  .next (applyDone s flashFails)

/-! ### The trial and the controls (R369, R371, R372) -/

/-- Discard staging and the manifest. -/
def dropStaging (s : State) : State :=
  showUpdate { s with flash := { s.flash with manifest := [], pieces := [], journal := 0 } }

/-- FWU_CONFIRM (R372): ignored unless trial. The burns wait for both blades above 41 V. -/
def fwuConfirm (s : State) : State :=
  if !stewardUp s ∨ !s.flash.boot.trial then s
  else
    let s := writeBoot s { s.flash.boot with trial := false }
    let bank := s.flash.boot.active
    let s := dropStaging (setF { s with fuses := { s.fuses with confirmDue := some bank } } STW_STATE_trial 0)
    if 41000 < s.pins.bladeA ∧ 41000 < s.pins.bladeB then confirmBurn s bank else s

def execFwuConfirm (s : State) : Host.Outcome State Fault Refusal := .next (onPage s pgFWU (fwuConfirm s))

/-- FWU_REVERT (R372): the trial ends, and the old bank becomes pending. -/
def fwuRevert (s : State) : State :=
  if !stewardUp s ∨ !s.flash.boot.trial then s
  else
    let s := writeBoot s { s.flash.boot with trial := false, pending := some (!s.flash.boot.active) }
    dropStaging (setF (setF s STW_STATE_trial 0) STW_STATE_pending 1)

def execFwuRevert (s : State) : Host.Outcome State Fault Refusal := .next (onPage s pgFWU (fwuRevert s))

/-- FWU_ABANDON: refused while applying. -/
def fwuAbandon (s : State) : State := if !stewardUp s ∨ s.stw.applying then s else dropStaging s

def execFwuAbandon (s : State) : Host.Outcome State Fault Refusal := .next (onPage s pgFWU (fwuAbandon s))

/-- FWU_APPLY: a complete update is applied while hold_apply is 1. -/
def fwuApply (s : State) : State :=
  if stewardUp s && isSet s FWU_CTRL_hold_apply && updComplete s && !s.stw.applying && s.flash.journal != 3 then beginApply s else s

def execFwuApply (s : State) : Host.Outcome State Fault Refusal := .next (onPage s pgFWU (fwuApply s))

end Sys2Proof.Machine
end

