-- ==== Sys2Proof/Machine/Identity.lean ====
section
/-! DEFINITION. The strongroom (15_steward_security R373-R378), the DOE mailbox (04_registers_host R85) and the
management service over SMBus (02_module R48, R49). -/

namespace Sys2Proof.Machine

def evKekSet : Ev := ⟨0x1801, 1⟩
def evDebugUnlocked : Ev := ⟨0x1802, 4⟩
def evDebugRefused : Ev := ⟨0x1803, 2⟩

/-- A request of protocol 0x01: answered by a serving Steward, else it stands in the mailbox (R85, R375). -/
def attestRow (s : State) (request : List Byte) (t : State) : State :=
  if !stewardUp s then doeWait s 1 request else if doeFits request then t else emit s (.doeError 1)

/-- A request's first four bytes. -/
def attestHead (type : Nat) : List Byte := natLe 1 type ++ [0, 0, 0]

/-! ### Reports (R376, R378) -/

/-- The bytes of an ASCII string. -/
def ascii (t : String) : List Byte := t.toList.map (fun c => BitVec.ofNat 8 c.toNat)

/-- The seeds of the identity key pair and of the key-establishment pair (R373). -/
def idSeed (s : State) : List Byte := shake256 (s.fuses.seed ++ ascii "km7-id") 32
def kemSeed (s : State) : List Byte := shake256 (s.fuses.seed ++ ascii "km7-kem") 64

/-- The identity public key and the encapsulation key (R373). -/
def idKey (s : State) : List Byte := bytesAt (Config.publicKey 44 (idSeed s)) 0 1312
def kemKey (s : State) : List Byte := bytesAt (Config.publicKey 768 (kemSeed s)) 0 1184

/-- The measurement of an image type as loaded. A type the booted bank does not hold has bytes the spec does not state. -/
def measure (s : State) (type : Nat) : List Byte :=
  match tget (fun _ => []) s.stw.loaded type with
  | b :: bs => b :: bs
  | [] => (List.range 32).map (fun k => Config.freeByte (s.freeCtr + 32 * type + k))

/-- The active profile's record; that of profile 3 is the factory's, of which the spec gives fields only. -/
def activeRecord (s : State) : List Byte :=
  let n := getF s PRF_ACTIVE_profile
  let r := tget (fun _ => []) s.flash.profiles n
  if n = 3 ∧ r = [] then (List.range 64).map (fun k => Config.freeByte (s.freeCtr + 320 + k)) else r

/-- Bytes 0 to 1,599 of a report. -/
def reportBody (s : State) (nonce : List Byte) : List Byte :=
  let bank := bankBytes s.flash s.stw.booted
  natLe 1 1
    ++ natLe 1 (b2n (isSet s SEC_STATE_debug) + 2 * b2n s.flash.boot.trial + 4 * b2n (isSet s STW_STATE_boot_fallback)
      + 8 * b2n (isSet s SEC_STATE_kek_set))
    ++ natLe 1 (getF s PRF_ACTIVE_profile) ++ natLe 1 (b2n s.stw.booted)
    ++ natLe 1 (getF s DEV_INFO_stepping) ++ natLe 1 (getF s DEV_INFO_arith_rev) ++ natLe 1 (getF s DEV_INFO_variant) ++ [0]
    ++ natLe 8 s.fuses.serial ++ bytesAt nonce 0 32 ++ natLe 8 (timeNow s) ++ natLe 1 s.fuses.counter ++ natLe 1 s.fuses.revoked
    ++ natLe 1 (leAt bank 6 1) ++ natLe 1 (b2n s.fuses.subUsed) ++ List.replicate 4 0
    ++ sha3 (flashRead bank 0 4096) ++ sha3 (activeRecord s) ++ sha3 (idKey s)
    ++ (List.range 8).flatMap (fun t => measure s (t + 1)) ++ kemKey s

/-- ATTEST_REPORT (R376). -/
def attestReport (s : State) (nonce : List Byte) : State :=
  let body := reportBody s nonce
  emit { s with freeCtr := s.freeCtr + 385 } (.doe 1 (body ++ bytesAt (Config.signature (idSeed s) (sha3 body) s.freeCtr) 0 2420))

def execAttestReport (nonce : List Byte) (s : State) : Host.Outcome State Fault Refusal :=
  .next (attestRow s (attestHead 1 ++ nonce) (attestReport s nonce))

/-- ATTEST_ENDORSEMENT (R378): the serial, the identity key and the manufacturer's signature over them, from the flash's factory
area. -/
def attestEndorsement (s : State) : State :=
  emit s (.doe 1 (natLe 8 s.fuses.serial ++ idKey s ++ bytesAt s.flash.endorsement 0 3309))

def execAttestEndorsement (s : State) : Host.Outcome State Fault Refusal :=
  .next (attestRow s (attestHead 2) (attestEndorsement s))

/-! ### The key-encryption key (R374) -/

/-- SET_KEK: refused while debug is unlocked. -/
def setKek (s : State) (ct : List Byte) : State :=
  if isSet s SEC_STATE_debug ∨ ct.length ≠ 1088 then emit s (.doeError 1)
  else
    let s := { s with stw := { s.stw with
      kek := some (bytesAt (Config.decapsulated (kemSeed s) ct) 0 32), kekCount := s.stw.kekCount + 1 } }
    emit (raiseEv (setF s SEC_STATE_kek_set 1) pgSEC evKekSet [s.stw.kekCount]) (.doe 1 [])

def execSetKek (ct : List Byte) (s : State) : Host.Outcome State Fault Refusal :=
  .next (attestRow s (attestHead 3 ++ ct) (setKek s ct))

/-! ### Debug (R377) -/

/-- DEBUG_CHALLENGE: a fresh challenge replaces the last. -/
def debugChallenge (s : State) : State :=
  let c := natLe 32 (Config.freshBits s.freeCtr).toNat
  emit { s with freeCtr := s.freeCtr + 1, stw := { s.stw with challenge := some c } } (.doe 1 c)

def execDebugChallenge (s : State) : Host.Outcome State Fault Refusal := .next (attestRow s (attestHead 4) (debugChallenge s))

/-- Why a token is refused: 1 signature, 2 serial, 3 challenge. -/
def tokenFault (s : State) (key : List Byte) (serial : Nat) (challenge : List Byte) (scope : Nat) (sig : List Byte) : Option Nat :=
  let token := natLe 8 serial ++ challenge ++ natLe 1 scope
  if !sigVerifies s.fuses 65 key token sig ∨ sha3 key ≠ s.fuses.debugHash then some 1
  else if serial ≠ s.fuses.serial then some 2
  else if s.stw.challenge ≠ some challenge then some 3
  else none

/-- Every association of a port is erased. -/
def eraseAssocs (s : State) (n : Nat) : State :=
  setMilPort s n { milPort s n with tx := [], rx := [], live := none, oldTx := none, grace := [], recent := [], groups := [] }

/-- DEBUG_UNLOCK: the challenge serves one token only; one that verifies erases the associations and the key-encryption
key and opens the instruments. -/
def debugUnlock (s : State) (key : List Byte) (serial : Nat) (challenge : List Byte) (scope : Nat) (sig : List Byte) : State :=
  let why := tokenFault s key serial challenge scope sig
  let s := { s with stw := { s.stw with challenge := none } }
  match why with
  | some r => emit (raiseEv s pgSEC evDebugRefused [r]) (.doeError 1)
  | none =>
    let s := showKeys (eraseAssocs (eraseAssocs { s with stw := { s.stw with kek := none } } 0) 1)
    let s := setF (setF s SEC_STATE_kek_set 0) SEC_STATE_debug 1
    emit (raiseEv s pgSEC evDebugUnlocked [scope]) (.doe 1 [])

def execDebugUnlock (key : List Byte) (serial : Nat) (challenge : List Byte) (scope : Nat) (sig : List Byte) (s : State) : Host.Outcome State Fault Refusal :=
  .next (attestRow s (attestHead 5 ++ key ++ natLe 8 serial ++ challenge ++ natLe 1 scope ++ sig)
    (debugUnlock s key serial challenge scope sig))

/-! ### The DOE mailbox (R85) -/

/-- DOE_DISCOVERY (R85): PCI-SIG's entry 0, then the two vendor-defined protocols: vendor, protocol and the next index. -/
def doeDiscovery (s : State) (index : Nat) : State :=
  if index < 3 then
    emit s (.doe 0 (natLe 2 (if index = 0 then 1 else Config.vendorId) ++ natLe 1 index ++ natLe 1 ((index + 1) % 3)))
  else emit s (.doeError 0)

def execDoeDiscovery (index : Nat) (s : State) : Host.Outcome State Fault Refusal :=
  .next (if stewardUp s then doeDiscovery s index else doeWait s 0 (natLe 1 index))

/-- DOE_ABORT (R85): the object in transfer is discarded. -/
def execDoeAbort (s : State) : Host.Outcome State Fault Refusal :=
  .next (whileRunning s (if isSet s DEV_START_steward_ready then emit { s with host := { s.host with doe := none } } .doeAborted else s))

/-! ### Management over SMBus (R48, R49) -/

/-- The address this module acknowledges (R48). -/
def smbusAddr (s : State) : Nat := if isSet s DEV_STRAP_id_valid then 0x40 + getF s DEV_STRAP_pos_slot else 0x5F

/-- MANAGEMENT_REQUEST (R48, R49): acknowledged only at the module's address, by a serving Steward. -/
def management (s : State) (addr : Nat) (req : MgmtReq) : State :=
  if !stewardUp s ∨ addr ≠ smbusAddr s then s
  else match req with
    | .read n => match sensor s n with | some v => emit s (.smbus addr n v) | none => s
    | .threshold n limit =>
      if (sensor s n).isNone then s
      else
        let t := match limit with | some v => tput n v s.host.thresholds | none => tdel n s.host.thresholds
        settleAlert { s with host := { s.host with thresholds := t } }

def execManagementRequest (addr : Nat) (req : MgmtReq) (s : State) : Host.Outcome State Fault Refusal :=
  .next (management s addr req)

end Sys2Proof.Machine
end

