-- ==== Sys2Proof/Machine/Pacers.lean ====
section
/-! DEFINITION. The pacers and the profile rows (16_pacers R380-R390): droop, voltage, power cap and thermal loops, profile
writes and the profile switch. -/

namespace Sys2Proof.Machine

def evThrottleOn : Ev := ⟨0x1001, 2⟩
def evThrottleOff : Ev := ⟨0x1002, 1⟩
def evCapActive : Ev := ⟨0x1003, 1⟩
def evVoltLimit : Ev := ⟨0x1004, 2⟩
def evPrfSwitched : Ev := ⟨0x1402, 1⟩
def evPrfWritten : Ev := ⟨0x1403, 1⟩

/-- The effective value of a calibration field of w bits (R385): factory plus the user's signed offset, clamped. -/
def effective (s : State) (w : Nat) (factory user : Fld) (lo hi : Int) : Int :=
  clampInt lo hi ((getF s factory : Int) + signed w (getF s user))

def vMin (s : State) (d : Nat) : Int := effective s 16 (PAC_CAL_V_F_v_min d) (PAC_CAL_V_U_v_min d) 600 900
def vMax (s : State) (d : Nat) : Int := effective s 16 (PAC_CAL_V_F_v_max d) (PAC_CAL_V_U_v_max d) 600 900
def droopMv (s : State) (d : Nat) : Int := effective s 8 (PAC_CAL_DROOP_F_droop_mv d) (PAC_CAL_DROOP_U_droop_mv d) 10 80
def hystMv (s : State) (d : Nat) : Int := effective s 8 (PAC_CAL_DROOP_F_hyst_mv d) (PAC_CAL_DROOP_U_hyst_mv d) 2 20
def roTarget (s : State) (d : Nat) : Int := effective s 16 (PAC_CAL_RO_F_ro_target d) (PAC_CAL_RO_U_ro_target d) 0 65535
def roMargin (s : State) (d : Nat) : Int := effective s 8 (PAC_CAL_RO_F_ro_margin d) (PAC_CAL_RO_U_ro_margin d) 1 10

/-- The throttle's sensor trim: factory plus user, the user's within 8 K of the factory's. -/
def tjTrim (s : State) (d : Nat) : Int :=
  signed 8 (getF s (PAC_CAL_TJ_F_tj_offset d)) + clampInt (-32) 32 (signed 8 (getF s (PAC_CAL_TJ_U_tj_offset d)))

/-! ### Droop (R381) -/

/-- The die of a logical lane. -/
def dieOf (s : State) (l : Nat) : Nat := physLane s l / 25

/-- DROOP_DETECT: the local voltage falls below setpoint - droop_mv. -/
def droopDetect (s : State) (l mv : Nat) : State :=
  let d := dieOf s l
  let sp := getF s (PAC_VOLT_setpoint_mv d)
  if isSet s (PAC_LOOP_X_droop_off d) ∨ (lane s l).droop ∨ (sp : Int) - droopMv s d ≤ mv then s
  else satF (setLane s l { lane s l with droop := true }) (PAC_DROOP_droops d) 1

def execDroopDetect (lane mv : Nat) (s : State) : Host.Outcome State Fault Refusal :=
  onInstance (decide (lane < 96)) (whileRunning s (droopDetect s lane mv))

/-- DROOP_RELEASE: after 64 consecutive slots above setpoint - droop_mv + hyst_mv the lane returns to level L; mv is the
lowest voltage of those slots, and slots is how many the episode stretched. -/
def droopRelease (s : State) (l slots mv : Nat) : State :=
  let d := dieOf s l
  if !(lane s l).droop ∨ (mv : Int) ≤ (getF s (PAC_VOLT_setpoint_mv d) : Int) - droopMv s d + hystMv s d then s
  else
    let n := tget (fun _ => 0) s.pac.stretch d + slots
    let s := setLane s l { lane s l with droop := false }
    let s := { s with pac := { s.pac with stretch := tset (fun _ => 0) s.pac.stretch d (n % 1024) } }
    satF s (PAC_DROOP_stretched d) (n / 1024)

def execDroopRelease (lane : Nat) (x : DroopEnd) (s : State) : Host.Outcome State Fault Refusal :=
  onInstance (decide (lane < 96)) (whileRunning s (droopRelease s lane x.slots x.mv))

/-! ### The voltage loop (R381) -/

/-- VOLTAGE_LOOP_TICK: one step of a die's loop on its ring-oscillator count. -/
def voltageTick (s : State) (d count : Nat) : State :=
  if !stewardUp s ∨ isSet s (PAC_LOOP_X_freeze_volt d) then s
  else
    let l : Int := getF s (PAC_STATE_level 0)
    let sp : Int := getF s (PAC_VOLT_setpoint_mv d)
    let step : Int := max 1 (getF s (PAC_LOOP_X_step_mv d))
    let have' : Int := (count : Int) * (16 + l)
    let need : Int := 16 * roTarget s d
    let low := decide (have' < need)
    let high := decide (need * (100 + roMargin s d) < have' * 100)
    let sp' := max (vMin s d) (min (vMax s d) (if low then sp + step else if high then sp - step else sp))
    let s := setF s (PAC_VOLT_setpoint_mv d) sp'.toNat
    let n := if sp' = vMax s d ∧ low then tget (fun _ => 0) s.pac.atMax d + 1 else 0
    let s := { s with pac := { s.pac with atMax := tset (fun _ => 0) s.pac.atMax d n } }
    if n = 100 then raiseEv s (pgPAC d) evVoltLimit [d, sp'.toNat] else s

def execVoltageLoopTick (die count : Nat) (s : State) : Host.Outcome State Fault Refusal :=
  onInstance (decide (die < 4)) (voltageTick s die count)

/-! ### The power cap (R382) -/

/-- CAP_LOOP_TICK: the module's power of this millisecond, and the mean of the last ten. -/
def capTick (s : State) (mvA maA mvB maB : Nat) : State :=
  if !stewardUp s then s
  else
    let mw := (mvA * maA + mvB * maB) / 1000
    let xs := (mw :: s.pac.power).take 10
    let sum := xs.foldl (· + ·) 0
    let cap := getF s (PAC_CAP_cap_w 0) * 1000 * xs.length
    let level := getF s (PAC_STATE_cap_level 0)
    let s := { s with
      pins := { s.pins with bladeA := mvA, bladeB := mvB }
      pac := { s.pac with power := xs, mAmpA := maA, mAmpB := maB } }
    let mean := sum / (1000 * xs.length)
    let s := setF (setF s DEV_SUPPLY_blade_a (mvA / 20)) DEV_SUPPLY_blade_b (mvB / 20)
    let s := setF s (PAC_CAP_power_w 0) (min 4095 mean)
    let below := if sum * 100 < cap * 97 then s.pac.capBelow + 1 else 0
    let s := { s with pac := { s.pac with capBelow := if 10 ≤ below then 0 else below } }
    let s := if cap < sum then
        (let s := if level = 0 then raiseEv s (pgPAC 0) evCapActive [getF s (PAC_CAP_cap_w 0), mean] else s
         setPace s PAC_STATE_cap_level (min 16 (level + 1)))
      else if 10 ≤ below then setPace s PAC_STATE_cap_level (level - 1) else s
    settleAlert s

def execCapLoopTick (mvA maA mvB maB : Nat) (s : State) : Host.Outcome State Fault Refusal := .next (capTick s mvA maA mvB maB)

/-! ### The thermal loop (R383) -/

/-- The place and value of the greatest of a list. -/
def hottestOf (xs : List Int) : Nat × Int :=
  (xs.mapIdx (fun i x => (i, x))).foldl (fun b x => if b.2 < x.2 then x else b) (0, xs.headD 0)

/-- THERMAL_SAMPLE: the junctions of every die and the cold plate's sensors (R49). Ten samples make a millisecond. -/
def thermalSample (s : State) (x : ThermalReading) : State :=
  let s := { s with pac := { s.pac with inlet := x.inlet, outlet := x.outlet } }
  let xs := x.junctions.mapIdx (fun d t => if d < 4 then t + tjTrim s d else t)
  let (die, hot) := hottestOf xs
  let s := (List.range 4).foldl (fun s d => setF s (PAC_TEMP_tj d) (clampInt 0 4095 (xs.getD d 0)).toNat) s
  let level := getF s (PAC_STATE_therm_level 0)
  let s := { s with pac := { s.pac with
    hottest := hot, hotSamples := if 400 ≤ hot then s.pac.hotSamples + 1 else 0,
    coolSamples := if hot < 388 then s.pac.coolSamples + 1 else 0, throttled := if level = 0 then 0 else s.pac.throttled + 1 } }
  let s := if 10 ≤ s.pac.hotSamples then
      (let s := { s with pac := { s.pac with hotSamples := 0 } }
       let s := if level = 0 then
           raiseEv { s with pins := { s.pins with thermWarn := true } } (pgPAC (min die 3)) evThrottleOn [die, unsigned 32 hot] else s
       setPace s PAC_STATE_therm_level (min 16 (level + 1)))
    else if 100 ≤ s.pac.coolSamples ∧ 0 < level then
      (let s := setPace { s with pac := { s.pac with coolSamples := 0 } } PAC_STATE_therm_level (level - 1)
       if level = 1 then
         raiseEv { s with pins := { s.pins with thermWarn := false } } (pgPAC (min die 3)) evThrottleOff [die, s.pac.throttled / 10]
       else s)
    else s
  settleAlert s

def execThermalSample (x : ThermalReading) (s : State) : Host.Outcome State Fault Refusal :=
  .next (if isSet s DEV_START_steward_ready then whileRunning s (thermalSample s x) else s)

/-! ### Writing a profile (R388) -/

/-- PROFILE_WRITE: a write to PRF_WRITE. The record is read, and checked before the slot is erased. -/
def profileWrite (s : State) (v : Word) (hits : List Hit) : State :=
  let slot := bitsOf v.toNat 0 2
  if isSet s PRF_WRITE_busy then s
  else
    let s := setF s PRF_WRITE_slot slot
    if !bitOf v.toNat 2 ∨ !stewardUp s then s
    else
      let a := getF s PRF_SRC_LO_addr + 2 ^ 32 * getF s PRF_SRC_HI_addr
      let (s, r) : State × Option (List Byte) :=
        if a % 64 ≠ 0 ∨ !inMemory a 64 then (s, none)
        else match memRead s hits a 64 .network none with
          | (s, none) => (s, none)
          | (s, some h) =>
            let n := 64 + 520 * leAt h 6 2
            if !inMemory a n then (s, none) else memRead s hits a n .network none
      let bytes := r.getD []
      let code := if slot = 3 then 2 else if profOk slot bytes then 0 else 1
      setF { s with stw := { s.stw with profileWrite := some (slot, bytes, code) } } PRF_WRITE_busy 1

def execProfileWrite (v : Word) (hits : List Hit) (s : State) : Host.Outcome State Fault Refusal :=
  .next (onPage s pgPRF (profileWrite s v hits))

/-- PROFILE_WRITE_DONE: the write ends, after any update application, and prf.written reports the result. -/
def profileWriteDone (s : State) (flashOk : Bool) : State :=
  match s.stw.profileWrite with
  | none => s
  | some (slot, bytes, code) =>
    if !stewardUp s ∨ s.stw.applying then s
    else
      let code := if code = 0 ∧ !flashOk then 3 else code
      let s := { s with stw := { s.stw with profileWrite := none } }
      let put := fun (r : List Byte) => { s with flash := { s.flash with profiles := tset (fun _ => []) s.flash.profiles slot r } }
      let s := if code = 0 then put bytes else if code = 3 then put [] else s
      raiseEv (setF (setF s PRF_WRITE_busy 0) PRF_WRITE_result code) pgPRF evPrfWritten [slot, code]

def execProfileWriteDone (flashOk : Bool) (s : State) : Host.Outcome State Fault Refusal := .next (profileWriteDone s flashOk)

/-! ### The switch (R389) -/

/-- A port leaves the enable set: it drains, its destinations are rerouted, and it is dark. -/
def darken (s : State) (n : Nat) : State :=
  let p := port s n
  let s := { s with
    pac := { s.pac with ports := s.pac.ports - (if bitOf s.pac.ports n then 2 ^ n else 0) }
    fab := { s.fab with queue := s.fab.queue.filter (· != n) } }
  let s := portDown (drainPort s n 2) n 6
  setF (setPort s n { lostLink p with train := .idle, resetBusy := false }) (PORT_STATE_state n) 0

/-- An axis whose ring ports leave is released (R54): the drive goes low. -/
def releaseForSwitch (s : State) (axisY : Bool) : State :=
  let held := isSet s (holdF axisY)
  let s := if isSet s (allowF axisY) then releaseAxis s axisY else s
  if held then wantKeeper s axisY false else s

/-- The ports that leave: the axis of a leaving ring port is released first. -/
def leavePorts (s : State) (ports : Nat) : State :=
  let going := (List.range 20).filter (fun n => bitOf s.pac.ports n && !bitOf ports n)
  let s := if going.any (fun n => n = 16 ∨ n = 17) then releaseForSwitch s false else s
  let s := if going.any (fun n => 18 ≤ n) then releaseForSwitch s true else s
  going.foldl darken s

/-- The pages profile 3 holds follow the profile (R75, R404): ports it held start and are ready once they have trained. -/
def holdPages (s : State) (three : Bool) : State :=
  (((List.range 20).map pgPORT) ++ [pgMIL 0, pgMIL 1]).foldl (fun s p =>
    if three ∧ (blkState s p = 1 ∨ blkState s p = 2) then setBlk s p 5 else if !three ∧ blkState s p = 5 then setBlk s p 1 else s) s

/-- The keeper permissions of the profile take effect once the module is in fabric-ready (R52). -/
def allowAxes (s : State) : State :=
  if !isSet s DEV_START_fabric_ready then s
  else
    let one := fun (s : State) (axisY : Bool) (on : Bool) =>
      if on then setF s (allowF axisY) 1 else if isSet s (allowF axisY) then releaseAxis s axisY else s
    one (one s false s.pac.allowX) true s.pac.allowY

/-- Steps 3 to 6 of R389. -/
def switchTo (s : State) (n : Nat) (p : Prof) (keepCal : Bool) : State :=
  let old := getF s PRF_ACTIVE_profile
  let ports := p.ports % 2 ^ 20 &&& portMask s
  let mil := p.ports / 2 ^ 20 % 4
  let s := leavePorts s ports
  let s := [0, 1].foldl (fun s k => if bitOf s.pac.milPorts k && !bitOf mil k then milLink s k false else s) s
  let before := s.pac.ports
  let s := holdPages (applyProfile s p keepCal) (decide (n = 3))
  let s := setF (setF (setF s DEV_START_profile n) PRF_ACTIVE_profile n) PRF_ACTIVE_builtin 0
  let s := ((List.range 20).filter (fun k => bitOf s.pac.ports k && !bitOf before k)).foldl queuePort s
  let s := if s.pac.ports = 0 then setF (setF s DEV_START_fabric_ready 0) DEV_START_ports_done 0 else s
  let s := allowAxes s
  raiseEv (satF s PRF_ACTIVE_switches 1) pgPRF evPrfSwitched [old, n]

/-- The command's body: alone, with good operands and a good record. -/
def profileSwitch (s : State) (e : CmdEntry) : State :=
  let n := bitsOf (leAt e.bytes 44 1) 0 2
  if 1 < s.cmds.table.length then endCmd s e.q e.idx stProfileBusy 0 []
  else if leAt e.bytes 44 1 / 4 ≠ 0 ∨ leAt e.bytes 45 1 / 2 ≠ 0 ∨ !zeroAt e.bytes 46 18 then endCmd s e.q e.idx stMalformed 35 []
  else match slotProfile s n with
    | none => endCmd s e.q e.idx stMalformed 34 []
    | some p => endCmd (switchTo (putCmd s { e with stage := .running }) n p (bitOf (leAt e.bytes 45 1) 0)) e.q e.idx stOK 0 []

/-- PROFILE_SWITCH (R389). -/
def execProfileSwitch (q idx : Nat) (sur : Surround) (s : State) : Host.Outcome State Fault Refusal :=
  onInstance (isQueue q) (whileRunning s (onDispatch s q idx (fun e => e.opcode == 0x0701) sur profileSwitch))

/-! ### Equalisation (R384) -/

/-- A stadium port, or a Milant port n - 20, is up and its taps are not frozen. -/
def adapts (s : State) (n : Nat) : Bool :=
  if n < 20 then getF s (PORT_STATE_state n) == 3 && !bitOf (getF s FAB_EQ_freeze) n
  else getF s (MIL_PORT_STATE_link (n - 20)) == 2 && !isSet s (MIL_EQ_freeze (n - 20))

/-- Every port that is up adapts its taps, unless they are frozen. -/
def adaptTaps (s : State) : State := ((List.range 22).filter (adapts s)).foldl freshTaps s

end Sys2Proof.Machine
end

