-- ==== Sys2Proof/Machine/Time.lean ====
section
/-! DEFINITION. Device time (14_milant R340-R343; 03_first_second R70): exchanges over a stadium port and over Milant, the
servo, and the site master. Times of an exchange are picoseconds. -/

namespace Sys2Proof.Machine

def evSourceLost : Ev := ⟨0x6002, 2⟩
def evTimeStep : Ev := ⟨0x6003, 2⟩

/-- The clock in picoseconds. -/
def nowPs (s : State) : Nat := s.deviceTime * 1000 + s.tim.frac * 1000 / 2 ^ 16

/-- Set the clock to a time in picoseconds. -/
def setPs (s : State) (t : Int) : State :=
  let t := t.toNat
  { s with deviceTime := t / 1000, tim := { s.tim with frac := t % 1000 * 2 ^ 16 / 1000 } }

/-- The effective PHY delays and asymmetry of a Milant port (R80, R385): factory plus the user's signed trim. -/
def txDelay (s : State) (n : Nat) : Int :=
  clampInt 0 65535 ((getF s (TIM_CAL_PHY_F_tx_delay n) : Int) + signed 16 (getF s (TIM_CAL_PHY_U_tx_delay n)))
def rxDelay (s : State) (n : Nat) : Int :=
  clampInt 0 65535 ((getF s (TIM_CAL_PHY_F_rx_delay n) : Int) + signed 16 (getF s (TIM_CAL_PHY_U_rx_delay n)))
def asymOf (s : State) (n : Nat) : Int :=
  clampInt (-(2 ^ 31)) (2 ^ 31 - 1) (signed 32 (getF s (TIM_CAL_ASYM_F_asym n)) + signed 32 (getF s (TIM_CAL_ASYM_U_asym n)))

/-! ### The servo (R342) -/

/-- The interval between two kept offsets: four exchanges of 2^−4 s, in nanoseconds (R341, R342). -/
def servoInterval : Nat := 250000000

/-- One nanosecond of the clock (R342): the frequency term, and for one interval the phase term, are the picoseconds an
interval removes, evenly. -/
def tickClock (s : State) : State :=
  let rate := s.tim.freq + (if 0 < s.tim.phaseLeft then s.tim.phase else 0)
  let due := s.tim.slew + rate * 2 ^ 16
  let unit : Int := 1000 * servoInterval
  let whole := due / unit
  let s := { s with tim := { s.tim with slew := due % unit, phaseLeft := s.tim.phaseLeft - 1 } }
  if whole = 0 then { s with deviceTime := s.deviceTime + 1 }
  else
    let t := (((s.deviceTime + 1) * 2 ^ 16 + s.tim.frac : Nat) - whole).toNat
    { s with deviceTime := t / 2 ^ 16, tim := { s.tim with frac := t % 2 ^ 16 } }

/-- Record an offset in TIM_SERVO: a count of those below 10 ns in a row, and the offset in sixteenths of a nanosecond. -/
def noteOffset (s : State) (theta : Int) : State :=
  let s := if theta.natAbs < 10000 then satF s TIM_SERVO_lock_count 1 else setF s TIM_SERVO_lock_count 0
  setF s TIM_SERVO_offset (unsigned 16 (clampInt (-32768) 32767 (theta * 16 / 1000)))

/-- Set time_valid after 16 kept offsets in a row below 10 ns (R70, R342). -/
def settleTime (s : State) : State :=
  if getF s TIM_SERVO_lock_count < 16 then s
  else
    let s := setF s TIM_SERVO_state 2
    if isSet s DEV_START_time_valid then s
    else
      let count := timeNow s
      raiseEv (setF s DEV_START_time_valid 1) pgTIM evTimeValid [count, s.deviceTime]

/-- Act on a kept offset: one step while acquiring and beyond the threshold, else the frequency and phase terms. -/
def applyOffset (s : State) (theta : Int) : State :=
  if getF s TIM_SERVO_state = 1 ∧ getF s TIM_GAIN_step_ns * 1000 < theta.natAbs then
    let before := s.deviceTime
    let s := setPs s ((nowPs s : Int) - theta)
    let s := { s with tim := { s.tim with stepped := s.tim.stepped + ((s.deviceTime : Int) - before) } }
    raiseEv (noteOffset s theta) pgTIM evTimeStep [unsigned 64 (theta / 1000)]
  else
    let s := { s with tim := { s.tim with
      freq := s.tim.freq + theta / 2 ^ getF s TIM_GAIN_ki_log2,
      phase := theta / 2 ^ getF s TIM_GAIN_kp_log2, phaseLeft := servoInterval } }
    settleTime (noteOffset s theta)

/-- An exchange has succeeded: of each four, the one of the smallest round trip is kept. In holdover the servo acquires
again. -/
def takeExchange (s : State) (t1 t2 t3 t4 a : Int) : State :=
  let s := if getF s TIM_SERVO_state = 3 then setF (setF s TIM_SERVO_state 1) TIM_SERVO_lock_count 0 else s
  let rtt := (t4 - t1) - (t3 - t2)
  let theta := ((t2 - t1) - (t4 - t3) - a).tdiv 2
  let xs := s.tim.exch ++ [(rtt, theta)]
  if xs.length < 4 then { s with tim := { s.tim with exch := xs } }
  else
    let best := xs.foldl (fun b x => if x.1 < b.1 then x else b) (xs.headD (0, 0))
    applyOffset { s with tim := { s.tim with exch := [] } } best.2

/-! ### The source (R340) -/

/-- A write to TIM_SRC. -/
def writeTimSrc (s : State) (v : Word) : State := applyTimSrc s (bitsOf v.toNat 0 5) (bitsOf v.toNat 8 8)

/-- STADIUM_TIME_EXCHANGE (R340): this end asks its source, serves a request on a port it serves, or takes the answer of its
source. The requester is the slave: its message leaves at t3 and reaches the master at t4, the answer leaves at t1 and
arrives at t2. -/
def stadiumTime (s : State) (n : Nat) (m : Option LinkMsg) (stamp : Nat) : State :=
  if (port s n).train ≠ .trained then s
  else match m with
    | none => if getF s TIM_SRC_source = n then sendCtl s n (.timeRequest (nowPs s)) else s
    | some (.timeRequest t3) => if bitOf (getF s TIM_SERVE_stadium) n then sendCtl s n (.timeAnswer t3 stamp (nowPs s)) else s
    | some (.timeAnswer t3 t4 t1) => if getF s TIM_SRC_source = n then takeExchange s t1 stamp t3 t4 0 else s
    | some _ => s

def execStadiumTimeExchange (n : Nat) (m : Option LinkMsg) (stamp : Nat) (s : State) : Host.Outcome State Fault Refusal :=
  onInstance (isPort n) (whileRunning s (stadiumTime s n m stamp))

/-! ### PTP over Milant (R341) -/

/-- The destination of PTP frames: 01-80-C2-00-00-0E. -/
def ptpAddr : Nat := 0x0180C200000E

/-- Send a PTP message on a port, in TIM_SRC's domain: it takes a packet number of the live association. -/
def sendPtp (s : State) (n : Nat) (m : PtpMsg) : State :=
  match (milPort s n).liveTx with
  | none => s
  | some a =>
    if milUp s n ∧ a.pn < 2 ^ 62 then
      takePn (emit s (.ptp n (addressed s n ptpAddr) a.an a.pn (getF s TIM_SRC_domain) m)) n a
    else s

/-- A PTP message that has passed its ICV: the slave's and the master's parts of two-step Sync and Delay_Req. -/
def ptpIn (s : State) (n : Nat) (m : PtpMsg) (stamp : Nat) : State :=
  let slave := getF s TIM_SRC_source == 20 + n
  let master := bitOf (getF s TIM_SERVE_milant) n
  let rx := ((stamp : Int) - rxDelay s n).toNat
  match m with
  | .sync q => if slave then { s with tim := { s.tim with sync := some (q, rx) } } else s
  | .followUp q t1 =>
    match s.tim.sync with
    | some (q', t2) =>
      if slave ∧ q = q' then
        let k := s.tim.seqOut % 2 ^ 16
        let t3 := ((nowPs s : Int) + txDelay s n).toNat
        sendPtp { s with tim := { s.tim with sync := none, asked := some (k, t1, t2, t3), seqOut := k + 1 } } n (.delayReq k)
      else s
    | none => s
  | .delayReq q => if master then sendPtp s n (.delayResp q rx) else s
  | .delayResp q t4 =>
    match s.tim.asked with
    | some (k, t1, t2, t3) =>
      if slave ∧ q = k then takeExchange { s with tim := { s.tim with asked := none } } t1 t2 t3 t4 (asymOf s n) else s
    | none => s
  | .other => s

/-- PTP_MESSAGE (R341): used only after its ICV has passed, and in TIM_SRC's domain. -/
def ptpMessage (s : State) (n an pn : Nat) (icv : Bool) (domain : Nat) (m : PtpFrame) (stamp : Nat) : State :=
  if !milUp s n then s
  else match takeWire s n m.wire 48 with
    | (s, false) => s
    | (s, true) =>
      match verifyFrame s n { an := an, pn := pn, icv := icv, parcel := { kind := 0 } } with
      | (s, false) => s
      | (s, true) => if domain = getF s TIM_SRC_domain then ptpIn s n m.msg stamp else s

def execPtpMessage (port an pn : Nat) (icv : Bool) (domain : Nat) (m : PtpFrame) (stamp : Nat) (s : State) :
    Host.Outcome State Fault Refusal :=
  onInstance (isMilPort port) (whileRunning s (ptpMessage s port an pn icv domain m stamp))

/-- PTP_SYNC_TIMER (R341): a served port sends Sync and Follow_Up. -/
def ptpSync (s : State) (n : Nat) : State :=
  if bitOf (getF s TIM_SERVE_milant) n then
    let k := s.tim.seqOut % 2 ^ 16
    let t1 := ((nowPs s : Int) + txDelay s n).toNat
    sendPtp (sendPtp { s with tim := { s.tim with seqOut := k + 1 } } n (.sync k)) n (.followUp k t1)
  else s

def execPtpSyncTimer (port : Nat) (s : State) : Host.Outcome State Fault Refusal :=
  onInstance (isMilPort port) (whileRunning s (ptpSync s port))

/-- TIME_SOURCE_LOST (R342): no exchange for 1 s, and holdover begins. -/
def sourceLost (s : State) : State :=
  if getF s TIM_SRC_source < 22 ∧ (getF s TIM_SERVO_state = 1 ∨ getF s TIM_SERVO_state = 2) then
    raiseEv (setF { s with tim := { s.tim with exch := [], sync := none, asked := none } } TIM_SERVO_state 3) pgTIM evSourceLost
      [getF s TIM_SRC_source]
  else s

def execTimeSourceLost (s : State) : Host.Outcome State Fault Refusal := .next (whileRunning s (sourceLost s))

/-! ### The site master (R343) -/

/-- A write to TIM_SET_HI arms the seconds of the next edge. -/
def armSeconds (s : State) (v : Word) : State :=
  let s := setF s TIM_SET_HI_seconds (v.toNat % 2 ^ 16)
  { s with tim := { s.tim with armed := some (getF s TIM_SET_LO_seconds + 2 ^ 32 * (v.toNat % 2 ^ 16)) } }

def execTimSetArm (v : Word) (s : State) : Host.Outcome State Fault Refusal := .next (onPage s pgTIM (armSeconds s v))

/-- PPS_EDGE (R343): the nanosecond count goes to 0, and armed seconds are taken; the first of them makes the time valid. -/
def ppsEdge (s : State) : State :=
  if getF s TIM_SRC_source ≠ 30 then s
  else
    let before := s.deviceTime
    let count := timeNow s
    let secs := match s.tim.armed with | some x => x | none => (s.deviceTime + 500000000) / 1000000000
    let s := { s with
      deviceTime := secs * 1000000000,
      tim := { s.tim with frac := 0, stepped := s.tim.stepped + ((secs * 1000000000 : Nat) - (before : Int)) } }
    match s.tim.armed with
    | none => s
    | some _ =>
      let s := setF { s with tim := { s.tim with armed := none } } TIM_SERVO_state 2
      if isSet s DEV_START_time_valid then s
      else raiseEv (setF s DEV_START_time_valid 1) pgTIM evTimeValid [count, s.deviceTime]

def execPpsEdge (s : State) : Host.Outcome State Fault Refusal := .next (whileRunning s (ppsEdge s))

end Sys2Proof.Machine
end

