-- ==== Sys2Proof/Machine/Bus.lean ====
section
/-! DEFINITION. The register bus (04_registers_host R71-R81): what every register reads as, and what a 4-byte write to it
does, whoever writes. -/

namespace Sys2Proof.Machine

/-! ### Reads -/

/-- BLK_CAP (R74, R403 and each chapter's block_caps): the capabilities, remote_write_ok, has_user_cal, has_expert. -/
def blkCap (p : Page) : Nat :=
  let caps := match p.type, p.role with
    | 0x00D, _ => 0xF | 0x010, _ => 7 | 0x011, 0 => 3 | 0x012, _ => 0xF | 0x013, _ => 7 | _, _ => 0
  let remote := ([0x00D, 0x010, 0x011, 0x012, 0x013, 0x00C, 0x00E, 0x00F, 0x015] : List Nat).contains p.type
  let userCal := p.type == 0x004 || (p.type == 0x00F && p.role == 1) || p.type == 0x018
  let expert := userCal || p.type == 0x00D || p.type == 0x014
  caps + 2 ^ 29 * b2n remote + 2 ^ 30 * b2n userCal + 2 ^ 31 * b2n expert

/-- BLK_ID (R72, R74). -/
def blkId (p : Page) : Nat := p.type * 2 ^ 20 + p.inst * 2 ^ 12 + p.role * 2 ^ 8 + 1

/-- The wake ramp of a lane (R152). -/
def rampInForce (s : State) (l : Nat) : Nat :=
  match getF s (LANE_POWER_ramp_intent l) with
  | 0 => 48 | 1 => 96 | 2 => 24 | _ => max 24 (min 96 (getF s (LANE_RAMP_ramp_cycles l)))

/-- The lane's dispatched commands, fence, clocks and running command, as LANE_STATE shows them. -/
def laneStateWord (s : State) (l : Nat) : Nat :=
  let ln := lane s l
  let run := (ln.queue.filterMap (fun x => findCmd s x.1 x.2)).find? (fun e => e.stage == .running)
  min 4 ln.queue.length + 8 * b2n ln.fenced + 16 * b2n ln.leftOn + 32 * b2n ln.rightOn + 64 * b2n run.isSome
    + 2 ^ 16 * (match run with | some e => e.cmdId | none => 0)

/-- LANE_VEC_STATE. -/
def vecStateWord (s : State) (l : Nat) : Nat :=
  let ln := lane s l
  ln.pc % 2 ^ 13 + 2 ^ 13 * b2n ln.resident.isSome + 2 ^ 14 * b2n ln.vecRun.isSome
    + 2 ^ 16 * (match ln.resident with | some r => r.2.1 % 2 ^ 13 | none => 0)

/-- A lap word of the selected counter: 0 while it is held failed (R391). -/
def lapWord (s : State) (hi : Bool) : Nat :=
  let n := getF s LAP_SEL_index
  if lapHeld s n then 0 else bitsOf (lapVal s n) (if hi then 32 else 0) 32

/-- The primary descriptor, first port, reachability and alternate of a destination (RTE_ROUTE). -/
def routeWord (s : State) (d : Nat) : Nat :=
  match primaryRoute s d with
  | none => 0
  | some r =>
    let own := d == myId s
    r + 2 ^ 8 * (if own then 31 else nextPort s d ((routeTo s d).getD r)) + 2 ^ 13 * b2n (own || (routeTo s d).isSome)
      + 2 ^ 14 * b2n (s.fab.onAlt.contains d)

/-- The landing shown in COL_LAND_STATE. -/
def landWord (s : State) : Nat :=
  let l := tget (fun _ => ({} : Landing)) s.coll.landings (getF s COL_LAND_SEL_landing)
  l.state + 2 ^ 4 * l.chunks + 2 ^ 17 * l.usable.length

/-- The parts of a register that are computed from the rest of the state: lowest bit, width and value. -/
def computedParts (s : State) (p : Page) (o : Nat) : List (Nat × Nat × Nat) :=
  let n := p.inst
  if o = 0x000 then [(0, 32, blkId p)]
  else if o = 0x004 then [(0, 32, blkCap p)]
  else match p.type, p.role with
  | 0x002, _ => []
  | 0x003, _ => if o = 0x108 then [(10, 1, b2n (let t := getF s RST_PORT_port; s.fab.queue.contains t && (port s t).resetBusy))] else []
  | 0x00A, _ => if o = 0x504 then [(0, 9, s.ev.hold.length)] else []
  | 0x00B, 0 => if o = 0x104 then [(0, 11, s.cmds.table.length)] else []
  | 0x00B, _ => if o = 0x124 then [(0, 11, queueIssued s n)] else []
  | 0x00C, _ =>
    if o = 0x100 then [(12, 1, b2n (lapHeld s (getF s LAP_SEL_index)))]
    else if o = 0x108 then [(0, 32, lapWord s false)] else if o = 0x10C then [(0, 32, lapWord s true)]
    else if o = 0x114 then [(0, 11, s.laps.watches.length)] else []
  | 0x00D, _ =>
    if o = 0x100 then [(0, 7, physLane s n), (16, 1, b2n (s.fuses.loadedSub.contains n))]
    else if o = 0x104 then [(0, 32, laneStateWord s n)]
    else if o = 0x120 then [(0, 32, match (lane s n).resident with | some r => r.2.2 | none => 0)]
    else if o = 0x124 then [(0, 32, vecStateWord s n)] else if o = 0x128 then [(0, 32, min (lane s n).retired (2 ^ 32 - 1))]
    else if o = 0x600 then [(16, 7, rampInForce s n)] else []
  | 0x010, _ =>
    if o = 0x10C then [(0, 13, (s.num.slots.filter (fun e => e.2.used && decide (e.2.count < 16))).length)]
    else if 0x140 ≤ o ∧ o < 0x190 then [(0, 32, leAt (slotBytes (slotRec s (getF s NUM_SLOT_SEL_slot))) (o - 0x140) 4)] else []
  | 0x011, 1 =>
    if 0x100 ≤ o ∧ o < 0x500 then
      let sl := 4 * n + (o - 0x100) / 0x100
      let t := cbzSlot s sl
      let r := (o - 0x100) % 0x100
      if r < 0x80 then [(0, 32, (tableLenRead s sl (r / 4)).toNat)]
      else if r = 0x84 then [(0, 2, t.state), (4, 4, t.curGen), (8, 4, t.oldGen)]
      else if r = 0x88 then [(0, 16, t.oldRefs), (16, 16, t.curRefs)] else []
    else []
  | 0x012, _ =>
    if o = 0x100 then [(0, 5, s.coll.running.length), (8, 9, s.coll.held.length), (17, 1, b2n (hurdleOpen s && !s.coll.running.isEmpty))]
    else if o = 0x124 then [(0, 32, landWord s)] else []
  | 0x014, _ =>
    if o = 0x10C then [(0, 13, s.fab.txns.length)] else if o = 0x11C then [(0, 14, s.fab.onAlt.length)] else []
  | 0x015, _ => if o = 0x100 then [(7, 1, b2n (isDateline s n))] else []
  | 0x016, 1 => if 0x100 ≤ o ∧ o < 0x300 then [(0, 32, routeWord s (128 * n + (o - 0x100) / 4))] else []
  | 0x016, 2 =>
    if 0x100 ≤ o ∧ o < 0x500 then [(0, 32, (tget (fun _ => (0 : Word)) s.fab.roles (256 * n + (o - 0x100) / 4)).toNat)] else []
  | 0x017, _ => if n = 1 ∧ 0x140 ≤ o ∧ o < 0x160 then [(0, 32, 0)] else []
  | 0x018, _ =>
    if o = 0x108 then [(0, 32, bitsOf (timeNow s) 0 32)] else if o = 0x10C then [(0, 32, bitsOf (timeNow s) 32 32)]
    else if o = 0x110 then [(0, 32, s.tim.frac % 2 ^ 16)] else []
  | 0x008, _ => if o = 0x114 then [(0, 32, leAt (pieceMap s) (4 * getF s FWU_MAP_SEL_word) 4)] else []
  | 0x004, _ => if o = 0x110 ∧ n ≠ 0 then [(0, 32, 0)] else []
  | _, _ => []

/-- The word at a BAR0 byte offset (R71, R73, R74): 0 where no register stands; write-only fields read 0. -/
def readReg (s : State) (a : Nat) : Word :=
  match pageOf (a / 0x1000), regAt a with
  | some p, some r =>
    (computedParts s p (a % 0x1000)).foldl (fun w x => insertBits w x.1 x.2.1 x.2.2) (reg s a &&& ~~~(BitVec.ofNat 32 r.wo))
  | _, _ => 0

/-! ### Writes -/

/-- A write of a table slot's page (R248): the length window, or CBZ_TBL_CTRL. -/
def writeCbzTbl (s : State) (n o : Nat) (v : Word) : State :=
  if o < 0x100 ∨ 0x500 ≤ o then s
  else
    let sl := 4 * n + (o - 0x100) / 0x100
    let r := (o - 0x100) % 0x100
    if r < 0x80 then tableLenWrite s sl (r / 4) v else if r = 0x80 then tableCtrlWrite s sl v else s

/-- A write to CMD_Q_CFG while the queue is off (R97, R103): size codes 11 to 15 and max_issued codes outside 1 to 256
are ignored and counted. -/
def writeQueueCfg (s : State) (q : Nat) (v : Word) : State :=
  let size := bitsOf v.toNat 0 4
  let issued := bitsOf v.toNat 23 9
  let badSize := decide (11 ≤ size)
  let badIssued := decide (issued = 0 ∨ 256 < issued)
  let w := if badSize then insertBits v 0 4 (getF s (CMD_Q_CFG_size_code q)) else v
  let w := if badIssued then insertBits w 23 9 (getF s (CMD_Q_CFG_max_issued_div4 q)) else w
  let s := if badSize || badIssued then satF s (CMD_Q_STAT_cfg_denied q) 1 else s
  setReg s (CMD_Q_CFG_size_code q).addr w

/-- A write of a queue page (R97, R98): the bases and the configuration only while enable is 0. -/
def writeQueue (s : State) (q a o : Nat) (v : Word) : State :=
  if o = 0x10C then doorbell s q v
  else if ([0x100, 0x104, 0x108, 0x114, 0x118] : List Nat).contains o then
    if isSet s (BLK_CTRL_enable (pgCmdQ q)) then satF s (CMD_Q_STAT_cfg_denied q) 1
    else if o = 0x108 then writeQueueCfg s q v else plainWrite s a v
  else plainWrite s a v

/-- A write of the event page (R89, R91): a ring's base only while its enable is 0. -/
def writeEvq (s : State) (a o : Nat) (v : Word) : State :=
  if o < 0x100 ∨ 0x500 ≤ o then plainWrite s a v
  else
    let n := (o - 0x100) / 0x40
    let r := (o - 0x100) % 0x40
    if r = 0x08 then writeEvqCfg s n v
    else if r = 0x10 then writeEvqHead s n v
    else if (r = 0x00 ∨ r = 0x04) ∧ ringOn s n then satF s (EVQ_STAT_cfg_denied n) 1
    else plainWrite s a v

/-- Writes to RST_LANE and RST_PORT: a lane above 95 or a port above 19 is ignored and counted; start resets (R60). -/
def writeRst (s : State) (o : Nat) (v : Word) : State :=
  if o = 0x104 then
    let l := bitsOf v.toNat 0 7
    if 95 < l then satF s RST_LANE_bad_writes 1
    else if bitOf v.toNat 8 then startLaneReset s l else setF s RST_LANE_lane l
  else if o = 0x108 then
    let n := bitsOf v.toNat 0 5
    if 19 < n then satF s RST_PORT_bad_writes 1
    else if bitOf v.toNat 8 then startPortReset s n else setF s RST_PORT_port n
  else s

/-- Writes of the NUM page (R172, R173). -/
def writeNum (s : State) (a o : Nat) (v : Word) : State :=
  if o = 0x100 then declareJob s v
  else if o = 0x104 ∨ o = 0x108 then (if isSet s NUM_JOB_job_valid then denyJob s else plainWrite s a v)
  else if o = 0x110 then selectSlot s v
  else if o = 0x18C then commitWindow s v
  else if 0x140 ≤ o ∧ o < 0x18C then stageWord s ((o - 0x140) / 4) v
  else plainWrite s a v

/-- Writes of the KEY page (R335, R337); the wrapped key is write-only. -/
def writeKey (s : State) (a o : Nat) (v : Word) (x : BusSur) : State :=
  if 0x100 ≤ o ∧ o < 0x138 then setReg s a v
  else if o = 0x138 then
    if bitOf v.toNat 4 then keyInstall s v x.unwraps else if bitOf v.toNat 5 then keyErase s v else keyFields s v
  else if o = 0x140 ∧ bitOf v.toNat 4 then keySched s v
  else plainWrite s a v

/-- An update record submitted from memory (R370): it acts by its kind. -/
def submitRecord (s : State) (hi : Word) (x : BusSur) : State :=
  let s := setF s FWU_SUBMIT_HI_addr hi.toNat
  if !stewardUp s then s
  else match readRecord s none hi x.hits with
    | (s, none) => s
    | (s, some r) =>
      if leAt r 8 1 = 1 then updateManifest none s r
      else if leAt r 8 1 = 2 then updatePiece none s r else s

/-- A write to FWU_CTRL (R372): hold_apply, then the one request it makes; confirm with revert, or either with abandon, is
ignored. -/
def writeFwuCtrl (s : State) (a : Nat) (v : Word) : State :=
  let confirm := bitOf v.toNat 0
  let revert := bitOf v.toNat 1
  let abandon := bitOf v.toNat 2
  if (confirm && revert) || ((confirm || revert) && abandon) then s
  else
    let s := plainWrite s a v
    let s := if confirm then fwuConfirm s else if revert then fwuRevert s else if abandon then fwuAbandon s else s
    let s := if bitOf v.toNat 4 then fwuApply s else s
    if stewardUp s then maybeApply s else s

/-- A write to CEL_PKG_TRAIN_X: the settings, and retrain_now, which clears itself (R224). -/
def writePkgTrain (s : State) (a pkg : Nat) (v : Word) (x : BusSur) : State :=
  let s' := setF (plainWrite s a v) (CEL_PKG_TRAIN_X_retrain_now pkg) 0
  if bitOf v.toNat 0 ∧ expertOpen s (pgCelPkg pkg) then retrainNow s' pkg x.drifts else s'

/-- A 4-byte write to the register at a BAR0 byte offset (R71-R80). Writes to the expert area while it is closed are
ignored and counted, whatever stands there (R78). -/
def busWrite (s : State) (a : Nat) (v : Word) (x : BusSur) : State :=
  let page := a / 0x1000
  let o := a % 0x1000
  match pageOf page with
  | none => bar0UnmappedWrite s a
  | some p =>
    if o = 0x008 then writeBlkCtrl s page v
    else if o = 0x010 then eventClear s page v []
    else if o = 0x018 then eventInject s page v
    else if o < 0x100 then plainWrite s a v
    else if 0x600 ≤ o ∧ o < 0xC00 ∧ !expertOpen s page then satF s (BLK_CTRL_expert_denied page) 1
    else match p.type, p.role with
    | 0x003, _ => writeRst s o v
    | 0x005, _ => if o = 0x104 then profileWrite s v x.hits else plainWrite s a v
    | 0x008, _ => if o = 0x104 then writeFwuCtrl s a v else if o = 0x10C then submitRecord s v x else plainWrite s a v
    | 0x00A, _ => writeEvq s a o v
    | 0x00B, 1 => writeQueue s p.inst a o v
    | 0x00C, _ => if o = 0x104 then hostLapAdd s v x.counterFails else plainWrite s a v
    | 0x010, _ => writeNum s a o v
    | 0x011, 1 => writeCbzTbl s p.inst o v
    | 0x00F, 1 => if o = 0x600 then writePkgTrain s a p.inst v x else plainWrite s a v
    | 0x014, _ => if o = 0x180 then writeKeep s v else plainWrite s a v
    | 0x015, _ => if o = 0x114 then writePortLane s p.inst v else plainWrite s a v
    | 0x017, _ => if p.inst = 1 ∧ 0x140 ≤ o ∧ o < 0x160 then s else plainWrite s a v
    | 0x018, _ => if o = 0x100 then writeTimSrc s v else if o = 0x11C then armSeconds s v else plainWrite s a v
    | 0x019, _ => writeKey s a o v x
    | _, _ => plainWrite s a v

/-- A write of 4 or 8 bytes at an aligned BAR0 offset (R71): one register, or two in ascending order. -/
def busWriteN (s : State) (a size : Nat) (v : Nat) (x : BusSur) : State :=
  let s := busWrite s a (BitVec.ofNat 32 v) x
  if size = 8 then busWrite s (a + 4) (BitVec.ofNat 32 (v / 2 ^ 32)) x else s

/-- The bytes a read of BAR0 returns (R71): both words of an 8-byte read from one state. -/
def busRead (s : State) (a size : Nat) : List Byte :=
  bytesAt ((List.range (size / 4 + 2)).flatMap (fun i => natLe 4 (readReg s (a / 4 * 4 + 4 * i)).toNat)) (a % 4) size

/-- A host write of BAR0 (R62, R71, R73): Unsupported Request before the Steward is ready; a refused size or alignment is
counted; an 8-byte access acts as two 4-byte ones in ascending order, on pages and outside them. -/
def bar0Write (s : State) (off size v : Nat) (x : BusSur) : State :=
  bar0Early s (
    if badAccess off size true then onPage s pgHIF (bar0BadAccess s off size true)
    else if unmapped s off then
      onPage s 0 (if size = 8 then bar0UnmappedWrite (bar0UnmappedWrite s off) (off + 4) else bar0UnmappedWrite s off)
    else onPage s (off / 0x1000) (busWriteN s off size v x))

/-- The word at a BAR4 offset (R84): the MSI-X table of 128 entries, the pending-bit array at 0x2000, 0 elsewhere. -/
def bar4Word (s : State) (off : Nat) : Word :=
  if off < 0x800 then msixWord s (off / 4)
  else if 0x2000 ≤ off ∧ off < 0x2010 then pendingWord s ((off - 0x2000) / 4) else 0

/-- A write of BAR4 (R84): the MSI-X table's words at 0x0000 to 0x07FF; the pending bits are read-only. -/
def bar4Write (s : State) (off size v : Nat) : State :=
  if badAccess off size true ∨ 0x800 < off + size then s
  else
    let s := storeMsix s (off / 4) (BitVec.ofNat 32 v)
    if size = 8 then storeMsix s (off / 4 + 1) (BitVec.ofNat 32 (v / 2 ^ 32)) else s

/-- REGISTER_WRITE (R79): a host write through BAR0 or BAR4. -/
def execRegisterWrite (bar off size : Nat) (v : Dword) (x : BusSur) (s : State) : Host.Outcome State Fault Refusal :=
  onInstance (bar == 0 || bar == 4) (if bar = 0 then bar0Write s off size v.toNat x
    else bar0Early s (onPage s pgHIF (bar4Write s off size v.toNat)))

end Sys2Proof.Machine
end

