-- ==== Sys2Proof/Machine/Export.lean ====
section
/-! DEFINITION. Export and import (13_training_state R319-R323): the record stream, its formats, and the commit of what an
an import covers. -/

namespace Sys2Proof.Machine

/-- The operand block of R319: of an export, or of an import (whose later fields are reserved). -/
structure ExpOp where
  table : Nat
  addr : Nat
  shards : Nat
  units : Nat
  mode : Nat
  kinds : Nat
  wFmt : Nat
  m1Fmt : Nat
  m2Fmt : Nat
  slotFirst : Nat
  slotCount : Nat
  deriving DecidableEq, Repr

def expOpOf (b : List Byte) : ExpOp where
  table := leAt b 0 8
  addr := leAt b 8 8
  shards := leAt b 16 4
  units := leAt b 20 4
  mode := leAt b 24 1
  kinds := leAt b 25 1
  wFmt := leAt b 26 1
  m1Fmt := leAt b 27 1
  m2Fmt := leAt b 28 1
  slotFirst := leAt b 30 2
  slotCount := leAt b 32 2

/-- A record's header (R320). -/
structure RecHead where
  kind : Nat
  fmt : Nat
  k5 : Bool
  skipped : Bool
  step : Nat
  epoch : Nat
  layer : Nat
  tensor : Nat
  row0 : Nat
  rows : Nat
  col0 : Nat
  cols : Nat
  digest : Nat
  bytes : Nat
  loss : Nat
  used : Nat
  clean : Nat
  deriving DecidableEq, Repr

/-- The 64 bytes of a header, its CRC formed. -/
def recBytes (h : RecHead) : List Byte :=
  let body := natLe 1 1 ++ natLe 1 h.kind ++ natLe 1 h.fmt ++ natLe 1 (b2n h.k5 + 2 * b2n h.skipped) ++ natLe 4 h.step
    ++ natLe 2 h.epoch ++ natLe 2 h.layer ++ natLe 2 h.tensor ++ [0, 0] ++ natLe 4 h.row0 ++ natLe 4 h.rows ++ natLe 4 h.col0
    ++ natLe 4 h.cols ++ natLe 8 h.digest ++ natLe 8 h.bytes ++ natLe 1 h.loss ++ natLe 1 h.used ++ natLe 2 h.clean
    ++ List.replicate 8 0
  body ++ natLe 4 (crc32c body)

def recHeadOf (b : List Byte) : RecHead where
  kind := leAt b 1 1
  fmt := leAt b 2 1
  k5 := bitOf (leAt b 3 1) 0
  skipped := bitOf (leAt b 3 1) 1
  step := leAt b 4 4
  epoch := leAt b 8 2
  layer := leAt b 10 2
  tensor := leAt b 12 2
  row0 := leAt b 16 4
  rows := leAt b 20 4
  col0 := leAt b 24 4
  cols := leAt b 28 4
  digest := leAt b 32 8
  bytes := leAt b 40 8
  loss := leAt b 48 1
  used := leAt b 49 1
  clean := leAt b 50 2

/-- The kinds a mode has, and requires (R319, R323). -/
def modeKinds (mode : Nat) : List Nat := if mode = 0 then [0, 1, 2] else if mode = 1 then [0, 1] else [3, 4]

/-- The formats of R321. -/
def fmtOk (kind : Nat) (k5 : Bool) (f : Nat) : Bool :=
  if k5 ∨ kind = 3 ∨ kind = 4 then f == 6
  else if kind = 0 then f == 4 || f == 6 || f == 9 || f == 10 || f == 11
  else if kind = 1 then f == 0 || f == 6 || f == 9
  else f == 8 || f == 6

/-- The value of element i of a stored area of n elements. -/
def storedAt (kind : Nat) (k5 : Bool) (n : Nat) (b : List Byte) (i : Nat) : Fp :=
  if k5 ∨ kind = 3 ∨ kind = 4 then v32 (f32At b i)
  else if kind = 0 then fpDecode bf16 (leAt b (2 * i) 2)
  else if kind = 1 then elemAt 0 n 0 b i
  else ul8Decode (leAt b i 1)

/-- Row r of a stored BS8 area of n elements, its codes before its shifts (R159). -/
def bs8At (n cols : Nat) (b : List Byte) (r : Nat) : List Byte :=
  padRow 0 cols (bytesAt b (r * cols) cols ++ bytesAt b (n + r * cols / 32) (cols / 32))

/-- The payload of a kind in a format (R320, R321): block formats row by row as R159 lays down, the others as one run of
elements; BS8 keeps its codes and shifts, in MXINT8 as R174 lays down. -/
def payloadOf (kind : Nat) (k5 : Bool) (f rows cols : Nat) (b : List Byte) : List Byte :=
  let n := rows * cols
  if f = 0 then (List.range rows).flatMap (bs8At n cols b)
  else if f = 9 ∧ kind = 1 then (List.range rows).flatMap (fun r => (mxint8Row cols (bs8At n cols b r)).bytes)
  else if isBlocked f then
    (List.range rows).flatMap (fun r =>
      (encodeRow f none ((List.range cols).map (fun c => storedAt kind k5 n b (r * cols + c)))).bytes)
  else if f = 6 then (List.range n).flatMap (fun i => natLe 4 (e32 (storedAt kind k5 n b i)).toNat)
  else b

/-! ### Export (R322) -/

/-- What an export has written. -/
structure ExpAcc where
  pos : Nat := 0
  records : Nat := 0
  deriving DecidableEq

/-- Write one record at the stream's end: past dst_limit it is MALFORMED, detail 25. -/
def putRec (c : UpdCtx) (x : ExpOp) (s : State) (acc : ExpAcc) (h : RecHead) (payload : List Byte) : Reading ExpAcc :=
  let bs := recBytes { h with digest := crc64 payload, bytes := payload.length } ++ padArea payload
  if 64 * x.units < acc.pos + bs.length then (s, .error (stMalformed, 25))
  else
    let (dev, a) := deviceOf s x.addr
    match anyWrite s c.sur c.q c.idx 5 .network dev (a + acc.pos) bs with
    | (s, some e) => (s, .error e)
    | (s, none) => (s, .ok { pos := acc.pos + bs.length, records := acc.records + 1 })

/-- The header a shard's records share. -/
def shardHead (d : Shard) (p : CommitRec) (kind fmt : Nat) : RecHead :=
  { kind := kind, fmt := fmt, k5 := p.k5, skipped := p.skipped, step := p.step, epoch := p.epoch, layer := d.layer,
    tensor := d.tensor, row0 := d.row0, rows := d.rows, col0 := d.col0, cols := d.cols, digest := 0, bytes := 0,
    loss := 0, used := 0, clean := 0 }

/-- Go through a list, each element from where the one before left off. -/
def goOn {α β : Type} (f : State → β → α → Reading β) : List α → State → β → Reading β
  | [], s, b => (s, .ok b)
  | a :: t, s, b => (f s b a).andThen fun s b => goOn f t s b

/-- Export one descriptor: its record and slot are read and proven, then its kinds go out in ascending order. -/
def exportShard (c : UpdCtx) (x : ExpOp) (s : State) (acc : ExpAcc) (d : Shard) : Reading ExpAcc :=
  if !rectOk d ∨ !alignedIn d.commit 64 then (s, .error (stMalformed, 19))
  else
    (ownRecord c s d).andThen fun s p =>
    match k5Clash s p.k5 with
    | some e => (s, .error e)
    | none =>
      if !ownerOk x.mode p.k5 d then (s, .error (stMalformed, 19))
      else if p.suspect then (s, .error (stDamaged, 21))
      else
        (readSlot c s d p.slot x.mode p.k5).andThen fun s v =>
          if crc64 v.1 ≠ p.wDigest ∨ crc64 (v.2.1 ++ v.2.2) ≠ p.mDigest then (s, .error (stDamaged, 20))
          else
            goOn (fun s acc k =>
              let f := if k = 0 ∨ k = 3 then x.wFmt else if k = 1 ∨ k = 4 then x.m1Fmt else x.m2Fmt
              if !fmtOk k p.k5 f then (s, .error (stMalformed, 25))
              else
                let area := if k = 0 ∨ k = 3 then v.1 else if k = 1 ∨ k = 4 then v.2.1 else v.2.2
                let pay := payloadOf k p.k5 f d.rows d.cols area
                putRec c x s acc (shardHead d p k f) pay)
              ((modeKinds x.mode).filter (bitOf x.kinds)) s acc

/-- The loss-state record, from the first descriptor's record. -/
def exportLoss (c : UpdCtx) (x : ExpOp) (ds : List Shard) (s : State) (acc : ExpAcc) : Reading ExpAcc :=
  match (if bitOf x.kinds 6 then ds.head? else none) with
  | none => (s, .ok acc)
  | some d =>
    if !alignedIn d.commit 64 then (s, .error (stMalformed, 19))
    else (ownRecord c s d).andThen fun s p =>
      putRec c x s acc { shardHead d p 6 0 with row0 := 0, rows := 0, col0 := 0, cols := 0, loss := p.loss, used := p.used, clean := p.clean } []

/-- The slot records. -/
def exportSlots (c : UpdCtx) (x : ExpOp) (s : State) (acc : ExpAcc) : Reading ExpAcc :=
  goOn (fun s acc n =>
    let r := slotRec s n
    putRec c x s acc
      { kind := 5, fmt := 0, k5 := k5Job s, skipped := false, step := r.step, epoch := c.epoch, layer := 0, tensor := r.tensor,
        row0 := n, rows := 1, col0 := 0, cols := 0, digest := 0, bytes := 0, loss := 0, used := 0, clean := 0 } (slotBytes r))
    (if bitOf x.kinds 5 then (List.range x.slotCount).map (· + x.slotFirst) else []) s acc

/-- Read the descriptors of a table. -/
def readShards (c : UpdCtx) (s : State) (table n : Nat) : Reading (List Shard) :=
  goOn (fun s ds i => (updRead c s (table + 64 * i) 64).andThen fun s b => (s, .ok (ds ++ [shardOf b]))) (List.range n) s []

/-- The fields the two blocks share are in range. -/
def expBlockOk (x : ExpOp) : Bool :=
  decide (x.mode ≤ 2) && decide (1 ≤ x.shards ∧ x.shards ≤ 65536) && alignedIn x.table (64 * x.shards)

/-- The export's own fields. -/
def exportOk (b : List Byte) (x : ExpOp) : Bool :=
  expBlockOk x && !bitOf x.kinds 7 && leAt b 29 1 == 0 && zeroAt b 34 30 && decide (x.slotFirst + x.slotCount ≤ 4096)
    && (let a := if isGlobal x.addr then localPart x.addr else x.addr; alignedIn a (64 * x.units))

/-- EXPORT's result bytes (R324). -/
def exportResult (acc : ExpAcc) : List Byte := natLe 4 (acc.pos / 64) ++ [0, 0, 0, 0] ++ natLe 4 acc.records

/-- The stream: kind 6 first, the descriptors in order, the slot records last. What was written before a failure stands. -/
def exportRun (c : UpdCtx) (x : ExpOp) (s : State) : State × ExpAcc × Option (Nat × Nat) :=
  match readShards c s x.table x.shards with
  | (s, .error e) => (s, {}, some e)
  | (s, .ok ds) =>
    match exportLoss c x ds s {} with
    | (s, .error e) => (s, {}, some e)
    | (s, .ok acc) =>
      let r := ds.foldl (fun st d =>
        match st.2.2 with
        | some _ => st
        | none => match exportShard c x st.1 st.2.1 d with
          | (s, .ok acc) => (s, acc, none)
          | (s, .error e) => (s, st.2.1, some e)) (s, acc, (none : Option (Nat × Nat)))
      match r.2.2 with
      | some _ => r
      | none => match exportSlots c x r.1 r.2.1 with
        | (s, .ok acc) => (s, acc, none)
        | (s, .error e) => (s, r.2.1, some e)

/-- The operand block of an update-class command that is no sweep. -/
def plainUpd (e : CmdEntry) (sur : Surround) : UpdCtx := ⟨e.q, e.idx, e.epoch, updOpOf [], sur⟩

def exportBody (sur : Surround) (s : State) (e : CmdEntry) : State :=
  match readBlock s sur.hits e 64 64 with
  | (s, none) => let (st, d) := blockFault e 64 64 stMalformed 19; endCmd s e.q e.idx st d []
  | (s, some b) =>
    let x := expOpOf b
    let s := putCmd s { e with stage := .running }
    if !exportOk b x then endCmd s e.q e.idx stMalformed 19 []
    else if !k5Job s ∧ [x.wFmt, x.m1Fmt, x.m2Fmt].contains 5 then endCmd s e.q e.idx stArithMismatch 3 []
    else
      let (s, acc, r) := exportRun (plainUpd e sur) x s
      endCmd s e.q e.idx ((r.map (·.1)).getD 0) ((r.map (·.2)).getD 0) (exportResult acc)

/-- An export to a partner waits for room for its remote writes (R104). -/
def exportMayRun (s : State) (e : CmdEntry) : Bool := (deviceOf s (blockField s e 8 8)).1.isNone || txnRoom s 5

/-- EXPORT (R319-R322). -/
def execExportCmd (q idx : Nat) (sur : Surround) (s : State) : Host.Outcome State Fault Refusal :=
  onInstance (isQueue q) (whileRunning s
    (onDispatch s q idx (fun e => e.opcode == 0x0410 && exportMayRun s e) sur
      (onStages pgUPD sur (exportBody sur))))

/-! ### Import (R323) -/

/-- What an import has met: the intersections written (descriptor, kind, elements, step), the loss fields, the records. -/
structure ImpAcc where
  cover : List (Nat × Nat × Nat × Nat) := []
  loss : Nat × Nat × Nat := (16, 16, 0)
  records : Nat := 0

/-- A target: its descriptor, its record if it has one, and its idle slot. -/
structure Target where
  d : Shard
  p : Option CommitRec
  idle : Nat

/-- Read the targets of an import. -/
def readTargets (c : UpdCtx) (x : ExpOp) (s : State) : Reading (List Target) :=
  (readShards c s x.table x.shards).andThen fun s ds =>
    goOn (fun s ts d =>
      if !ownerOk x.mode (k5Job s) d then (s, .error (stMalformed, 19))
      else (updRead c s d.commit 64).andThen fun s b =>
        if leAt b 0 1 = 0 then (s, .ok (ts ++ [⟨d, none, 0⟩]))
        else if commitGood b then (s, .ok (ts ++ [⟨d, some (commitOf b), 1 - (commitOf b).slot⟩]))
        else (raiseEv s pgUPD evRecordBad [d.commit, 0xFFFF], .error (stDamaged, 22))) ds s []

/-- The values of 32 elements of a payload from a column of a row, and its block as it stands for block formats. -/
def payloadBlock (h : RecHead) (pay : List Byte) (r col : Nat) : List Byte × List Fp :=
  if isBlocked h.fmt then
    let row := bytesAt pay (r * rowSize h.fmt h.cols) (rowSize h.fmt h.cols)
    (row, (List.range 32).map (fun k => elemAt h.fmt h.cols 0 row (col + k)))
  else
    let i := r * h.cols + col
    let w := if h.fmt = 6 then 4 else if h.fmt = 8 then 1 else 2
    let bs := bytesAt pay (w * i) (32 * w)
    (bs, (List.range 32).map (fun k =>
      if h.fmt = 6 then v32 (f32At bs k) else if h.fmt = 8 then ul8Decode (leAt bs k 1) else fpDecode bf16 (leAt bs (2 * k) 2)))

/-- Write one block of 32 elements of a kind into a slot at element i. -/
def importBlock (c : UpdCtx) (x : ExpOp) (h : RecHead) (pay : List Byte) (t : Target) (s : State) (r col i : Nat) : Reading Unit :=
  let n := t.d.count
  let k5 := k5Job s
  let a := t.d.slotAt t.idle
  let (raw, vs) := payloadBlock h pay r col
  if h.kind = 0 ∨ h.kind = 3 then
    if x.mode = 2 ∨ k5 then updWrite c s (a + 4 * i) (vs.flatMap (fun v => natLe 4 (e32 v).toNat))
    else updWrite c s (a + 2 * i) (if h.fmt = 4 then raw else vs.flatMap (fun v => natLe 2 (fpEncode bf16 v)))
  else if h.kind = 1 ∨ h.kind = 4 then
    let m := a + firstOff x.mode k5 n
    if x.mode = 2 ∨ k5 then updWrite c s (m + 4 * i) (vs.flatMap (fun v => natLe 4 (e32 v).toNat))
    else
      let (codes, sh) : List Byte × Byte :=
        if h.fmt = 0 then (bytesAt raw col 32, (raw[h.cols + col / 32]?).getD 0)
        else
          let b := if h.fmt = 9 then bs8OfMxint8 raw (col / 32) else let e := encBlock 0 none vs; (e.1, e.2.1)
          (packCodes 0 b.2, BitVec.ofNat 8 (unsigned 8 b.1))
      (updWrite c s (m + i) codes).andThen fun s _ => updWrite c s (m + n + i / 32) [sh]
  else
    let m := a + secondOff x.mode k5 n
    if k5 then updWrite c s (m + 4 * i) (vs.flatMap (fun v => natLe 4 (e32 v).toNat))
    else updWrite c s (m + i) (if h.fmt = 8 then raw else vs.map (fun v => BitVec.ofNat 8 (ul8Encode (e32 v)).1))

/-- Write the intersection of a record with one target. -/
def importInto (c : UpdCtx) (x : ExpOp) (h : RecHead) (pay : List Byte) (s : State) (acc : ImpAcc) (jt : Nat × Target) : Reading ImpAcc :=
  let (j, t) := jt
  let d := t.d
  let r0 := max h.row0 d.row0
  let r1 := min (h.row0 + h.rows) (d.row0 + d.rows)
  let c0 := max h.col0 d.col0
  let c1 := min (h.col0 + h.cols) (d.col0 + d.cols)
  if d.tensor ≠ h.tensor ∨ r1 ≤ r0 ∨ c1 ≤ c0 then (s, .ok acc)
  else
    let blocks := (List.range (r1 - r0)).flatMap (fun r => (List.range ((c1 - c0) / 32)).map (fun b => (r0 + r, c0 + 32 * b)))
    (goOn (fun s _ rc =>
      importBlock c x h pay t s (rc.1 - h.row0) (rc.2 - h.col0) ((rc.1 - d.row0) * d.cols + (rc.2 - d.col0))) blocks s ()).andThen
      fun s _ => (s, .ok { acc with cover := acc.cover ++ [(j, h.kind, (r1 - r0) * (c1 - c0), h.step)] })

/-- A slot record goes to its NUM slot, through the staging of the window (R173). -/
def importSlot (c : UpdCtx) (s : State) (n : Nat) (pay : List Byte) : State :=
  let words : Table Word := (List.range 20).map (fun w => (w, wordAt pay (4 * w)))
  if n < 4096 then
    commitSlot s { slot := n, words := words, before := s.cmds.table.map (fun e => (e.q, e.idx)), window := false, own := some (c.q, c.idx) }
  else s

/-- One record of the stream. -/
def importRecord (c : UpdCtx) (x : ExpOp) (ts : List Target) (s : State) (acc : ImpAcc) (head pay : List Byte) : Reading ImpAcc :=
  let h := recHeadOf head
  let acc := { acc with records := acc.records + 1 }
  if leAt head 0 1 ≠ 1 ∨ leAt head 60 4 ≠ crc32c (head.take 60) ∨ crc64 pay ≠ h.digest then (s, .error (stDamaged, 27))
  else if 7 ≤ h.kind then (s, .error (stMalformed, 26))
  else if h.k5 ≠ k5Job s then (s, .error (stArithMismatch, if k5Job s then 2 else 3))
  else if h.kind = 6 then (s, .ok { acc with loss := (h.loss, h.used, h.clean) })
  else if h.kind = 5 then (importSlot c s h.row0 pay, .ok acc)
  else if h.fmt = 5 ∧ !k5Job s then (s, .error (stArithMismatch, 3))
  else if !fmtOk h.kind (k5Job s) h.fmt then (s, .error (stMalformed, 25))
  else if !(modeKinds x.mode).contains h.kind then (s, .ok acc)
  else goOn (importInto c x h pay) (ts.mapIdx (fun j t => (j, t))) s acc

/-- The records of a stream, from an offset; fuel is their greatest number. -/
def importStream (c : UpdCtx) (x : ExpOp) (ts : List Target) : Nat → Nat → State → ImpAcc → State × ImpAcc × Option (Nat × Nat)
  | 0, _, s, acc => (s, acc, none)
  | k + 1, pos, s, acc =>
    if 64 * x.units ≤ pos then (s, acc, none)
    else match updRead c s (x.addr + pos) 64 with
      | (s, .error e) => (s, acc, some e)
      | (s, .ok head) =>
        let n := leAt head 40 8
        if 64 * x.units < pos + 64 + n then (s, acc, some (stDamaged, 27))
        else match (if n = 0 then (s, .ok []) else updRead c s (x.addr + pos + 64) n) with
          | (s, .error e) => (s, acc, some e)
          | (s, .ok pay) =>
            match importRecord c x ts s acc head pay with
            | (s, .error e) => (s, { acc with records := acc.records + 1 }, some e)
            | (s, .ok acc) => importStream c x ts k (pos + 64 + roundUp n 64) s acc

/-- The elements of a kind that an import covered of a target. -/
def coveredOf (acc : ImpAcc) (j kind : Nat) : Nat :=
  ((acc.cover.filter (fun x => x.1 == j && x.2.1 == kind)).map (·.2.2.1)).foldl (· + ·) 0

/-- Commit a covered target with imported set, or report it incomplete. -/
def importCommit (c : UpdCtx) (x : ExpOp) (acc : ImpAcc) (st : State × Nat × Option (Nat × Nat)) (jt : Nat × Target) :
    State × Nat × Option (Nat × Nat) :=
  let (s, done, bad) := st
  let (j, t) := jt
  let d := t.d
  let k5 := k5Job s
  let steps := (acc.cover.filter (fun v => v.1 == j)).map (·.2.2.2)
  let full := (modeKinds x.mode).all (fun k => coveredOf acc j k == d.count) && steps.all (· == steps.headD 0)
  let lacking := (((modeKinds x.mode).map (coveredOf acc j)).find? (· != d.count)).getD d.count
  if !full then
    (raiseEv s pgUPD evImportIncomplete [d.tensor, d.row0, d.col0, lacking], done,
      if bad.isNone then some (stMalformed, 26) else bad)
  else
    let r : Reading Unit :=
      (readSlot c s d t.idle x.mode k5).andThen fun s v =>
      (writeSlot c s d t.idle x.mode k5 v.1 v.2.1 v.2.2).andThen fun s _ =>
      writeRecord c s d {
        version := 1, slot := t.idle, mode := x.mode, skipped := false, suspect := false, imported := true, k5 := k5,
        step := steps.headD 0, wDigest := crc64 v.1, mDigest := crc64 (v.2.1 ++ v.2.2), epoch := c.epoch,
        loss := acc.loss.1, used := acc.loss.2.1, clean := acc.loss.2.2, ue := 0, count := d.count, tensor := d.tensor,
        layer := d.layer, stamp := 0 }
    match r with
    | (s, .ok _) => (s, done + 1, bad)
    | (s, .error e) => (s, done, if bad.isNone then some e else bad)

/-- The import's own fields. -/
def importOk (b : List Byte) (x : ExpOp) : Bool := expBlockOk x && zeroAt b 25 39 && alignedIn x.addr (64 * x.units)

/-- The whole import. -/
def importRun (c : UpdCtx) (x : ExpOp) (s : State) : State × Nat × Nat × Option (Nat × Nat) :=
  match readTargets c x s with
  | (s, .error e) => (s, 0, 0, some e)
  | (s, .ok ts) =>
    match importStream c x ts x.units 0 s {} with
    | (s, acc, some e) => (s, 0, acc.records, some e)
    | (s, acc, none) =>
      let (s, done, bad) := (ts.mapIdx (fun j t => (j, t))).foldl (importCommit c x acc) (s, 0, none)
      (s, done, acc.records, bad)

def importBody (sur : Surround) (s : State) (e : CmdEntry) : State :=
  match readBlock s sur.hits e 64 64 with
  | (s, none) => let (st, d) := blockFault e 64 64 stMalformed 19; endCmd s e.q e.idx st d []
  | (s, some b) =>
    let x := expOpOf b
    let s := putCmd s { e with stage := .running }
    if !importOk b x then endCmd s e.q e.idx stMalformed 19 []
    else
      let (s, done, records, r) := importRun (plainUpd e sur) x s
      endCmd s e.q e.idx ((r.map (·.1)).getD 0) ((r.map (·.2)).getD 0) (natLe 4 done ++ [0, 0, 0, 0] ++ natLe 4 records)

/-- IMPORT (R323). -/
def execImportCmd (q idx : Nat) (sur : Surround) (s : State) : Host.Outcome State Fault Refusal :=
  onInstance (isQueue q) (whileRunning s (onDispatch s q idx (fun e => e.opcode == 0x0411) sur
    (onStages pgUPD sur (importBody sur))))

end Sys2Proof.Machine
end

