-- ==== Sys2Proof/Machine/Jtag.lean ====
section
/-! DEFINITION. The JTAG port (02_module R50): the IEEE 1149.1 controller and the boundary scan of the low-speed pins. The
instruction length and codes are PRESUMED from IEEE 1149.1's common practice; log entry 27. -/

namespace Sys2Proof.Machine

/-- The next state of the controller (IEEE 1149.1). -/
def tapNext : Tap → Bool → Tap
  | .testLogicReset, tms => if tms then .testLogicReset else .runTestIdle
  | .runTestIdle, tms => if tms then .selectDr else .runTestIdle
  | .selectDr, tms => if tms then .selectIr else .captureDr
  | .captureDr, tms => if tms then .exit1Dr else .shiftDr
  | .shiftDr, tms => if tms then .exit1Dr else .shiftDr
  | .exit1Dr, tms => if tms then .updateDr else .pauseDr
  | .pauseDr, tms => if tms then .exit2Dr else .pauseDr
  | .exit2Dr, tms => if tms then .updateDr else .shiftDr
  | .updateDr, tms => if tms then .selectDr else .runTestIdle
  | .selectIr, tms => if tms then .testLogicReset else .captureIr
  | .captureIr, tms => if tms then .exit1Ir else .shiftIr
  | .shiftIr, tms => if tms then .exit1Ir else .shiftIr
  | .exit1Ir, tms => if tms then .updateIr else .pauseIr
  | .pauseIr, tms => if tms then .exit2Ir else .pauseIr
  | .exit2Ir, tms => if tms then .updateIr else .shiftIr
  | .updateIr, tms => if tms then .selectDr else .runTestIdle

/-- The instructions: EXTEST 0, SAMPLE and PRELOAD 1, access to the IEEE 1687 network 2; every other code is BYPASS. -/
def jtagExtest : Nat := 0
def jtagSample : Nat := 1
def jtagNetwork : Nat := 2
def scansBoundary (ins : Nat) : Bool := ins == jtagExtest || ins == jtagSample

/-- The instruction reaches the IEEE 1687 instruments, which a debug unlock has opened (R50, R377). -/
def scansNetwork (s : State) (ins : Nat) : Bool := ins == jtagNetwork && isSet s SEC_STATE_debug

/-- The level of each boundary position, H1 to H30 and then E65, before EXTEST drives it. -/
def pinLevels (s : State) (tms tdi : Bool) (x : BoardPins) : List Bool :=
  let strap := x.straps.toNat
  [s.pins.modRstN, s.pins.perstN, bitOf strap 16, bitOf strap 17, false, !faultDriven s, !thermWarnN s,
    x.smbClk, x.smbDat, !s.pins.smbAlert]
  ++ (List.range 13).map (bitOf strap)
  ++ [isSet s FAB_KEEP_hold_x, isSet s FAB_KEEP_hold_y, true, tms, tdi, false, true, x.ppsIn]

/-- Store the port's state. -/
def setJtag (s : State) (j : JtagSt) : State := { s with stw := { s.stw with jtag := j } }

/-- A rising edge of TCK: capture or shift in the present state, then the next state. -/
def tckRise (s : State) (tms tdi : Bool) (x : BoardPins) : State :=
  let j := s.stw.jtag
  let next := tapNext j.tap tms
  match j.tap with
  | .captureIr => setJtag s { j with tap := next, ir := [true, false, false, false] }
  | .shiftIr => setJtag s { j with tap := next, ir := j.ir.drop 1 ++ [tdi] }
  | .captureDr =>
    if scansBoundary j.ins then setJtag s { j with tap := next, dr := pinLevels s tms tdi x }
    else if scansNetwork s j.ins then
      setJtag { s with freeCtr := s.freeCtr + 1 } { j with tap := next, dr := [Config.instrumentBit s.freeCtr] }
    else setJtag s { j with tap := next, dr := [false] }
  | .shiftDr => setJtag s { j with tap := next, dr := j.dr.drop 1 ++ [tdi] }
  | _ => setJtag s { j with tap := next }

/-- The number a shift register spells, first bit lowest. -/
def bitsNat : List Bool → Nat
  | [] => 0
  | b :: t => b2n b + 2 * bitsNat t

/-- The falling edge: TDO shows the register being shifted, and the update states take effect. -/
def tckFall (s : State) : State :=
  let j := s.stw.jtag
  match j.tap with
  | .testLogicReset => setJtag s { j with ins := 15 }
  | .shiftIr => emit s (.tdo (j.ir.headD false))
  | .shiftDr => emit s (.tdo (j.dr.headD false))
  | .updateIr => setJtag s { j with ins := bitsNat j.ir }
  | .updateDr =>
    if scansBoundary j.ins then setJtag s { j with latch := j.dr }
    else if scansNetwork s j.ins then setJtag s { j with instruments := j.dr } else s
  | _ => s

/-- The levels the module's outputs show: the output latch under EXTEST, its own levels otherwise. -/
def shownLevels (s : State) (tms tdi : Bool) (x : BoardPins) : List Bool :=
  if s.stw.jtag.ins = jtagExtest ∧ s.stw.jtag.latch ≠ [] then s.stw.jtag.latch else pinLevels s tms tdi x

/-- One cycle of TCK; TRST_N low resets the port. -/
def jtagAccess (s : State) (trstN tms tdi : Bool) (x : BoardPins) : State :=
  if s.life = .off then s
  else if !trstN then setJtag s {}
  else tckFall (tckRise s tms tdi x)

/-- JTAG_ACCESS (R50). -/
def execJtagAccess (trstN tms : Bool) (x : BoardPins) (s : State) : Host.Outcome State Fault Refusal :=
  .next (jtagAccess s trstN tms x.tdi x)

end Sys2Proof.Machine
end

