-- ==== Sys2Proof/Machine/Window.lean ====
section
/-! DEFINITION. The BAR2 window (04_registers_host R83; 03_first_second R64; 05_commands R114; 17_recovery R391). -/

namespace Sys2Proof.Machine

/-- The size of BAR2 (R82). -/
def bar2Size : Nat := 2 ^ 36

/-- The 50-bit address a BAR2 offset reaches (R83); a sum beyond 50 bits wraps (log entry 87). -/
def bar2Addr (s : State) (off : Nat) : Nat := (getF s HIF_WIN_base_gib * 2 ^ 30 + off) % 2 ^ 50

/-- The stadium device a BAR2 access goes to; none where the window is local or names this device. -/
def bar2Dev (s : State) : Option Nat :=
  if isSet s HIF_WIN_DEV_global ∧ getF s HIF_WIN_DEV_dev_id ≠ myId s then some (getF s HIF_WIN_DEV_dev_id) else none

/-- The function answers memory requests: the Steward is ready, both banks have not failed, and no function-level reset
runs (R59, R62). -/
def hostServes (s : State) : Bool :=
  s.life == .running && isSet s DEV_START_steward_ready && !widerReset s && !s.host.d3hot

/-- A range lies in the cellar before it is ready (R64). -/
def early (s : State) (a n : Nat) : Bool := inMemory a n && regionOf a == .cellar && !isSet s DEV_START_cellar_ready

/-- The register offset a local address reaches, where a range lies in the register pages (R71). -/
def pageRange (a n : Nat) : Option Nat :=
  if regionOf a = .pages ∧ regionOf (a + (n - 1)) = .pages then some (a - 0x110000000000) else none

/-- The lap counter an aligned 8-byte range reaches (R114). -/
def lapOf (a n : Nat) : Option Nat := if a % 8 = 0 ∧ n = 8 then some ((a - 0x120000000000) / 8) else none

def abort (s : State) : State := emit s (.pcie .completerAbort)

/-- A read of local addresses (R64, R83, R114, R391). -/
def bar2Local (s : State) (off a n : Nat) (x : BusSur) : State :=
  if regionOf a = .laps then
    match lapOf a n with
    | none => abort s
    | some k =>
      let s := if x.counterFails then failLap s k else s
      if lapHeld s k then abort s else emit s (.pcie (.data (natLe 8 (lapVal s k))))
  else match pageRange a n with
  | some o =>
    if badAccess o n false then abort (bar0BadAccess s o n false)
    else emit s (.pcie (.data (busRead s o n)))
  | none =>
    if early s a n then abort (raiseEv s pgHIF evBar2Early [off])
    else if !inMemory a n then abort (bar2Unmapped s off a)
    else match stageWords s pgHIF (myId s) x.stage with
      | (s, false) => abort (bar2Parity s a)
      | (s, true) =>
        match memRead s x.hits a n .network none with
        | (s, none) => abort (bar2Parity s a)
        | (s, some bs) => emit s (.pcie (.data bs))

/-- BAR2_READ (R83). -/
def bar2Read (s : State) (off n : Nat) (x : BusSur) : State :=
  if !hostServes s then emit s (.pcie .unsupportedRequest)
  else
    let a := bar2Addr s off
    if isSet s HIF_WIN_DEV_global ∧ !isSet s DEV_START_fabric_ready then
      abort (bar2Unmapped s off (globalAddr (getF s HIF_WIN_DEV_dev_id) a))
    else match bar2Dev s with
    | none => bar2Local s off a n x
    | some d =>
      if !txnRoom s 2 then s
      else match sendReq s 2 d 1 (a / 4 * 4) ((a % 4 + n + 3) / 4 * 4) 0 [] (.bar2Read off (a % 4) n) with
        | (s, true) => s
        | (s, false) => abort s

def execBar2Read (off size : Nat) (x : BusSur) (s : State) : Host.Outcome State Fault Refusal :=
  onInstance (decide (0 < size ∧ size ≤ 4096 ∧ off + size ≤ bar2Size)) (if s.host.linkUp then bar2Read s off size x else s)

/-- A write of local addresses (R64, R83, R114). -/
def bar2Store (s : State) (off a : Nat) (data : List Byte) (x : BusSur) : State :=
  let n := data.length
  if regionOf a = .laps then
    match lapOf a n with
    | none => s
    | some k => lapStore s k (leNat data)
  else match pageRange a n with
  | some o => bar0Write s o n (leNat data) x
  | none =>
    if early s a n then raiseEv s pgHIF evBar2Early [off]
    else if !inMemory a n then bar2Unmapped s off a
    else match stageWords s pgHIF (myId s) x.stage with
      | (s, false) => bar2Parity s a
      | (s, true) =>
        match targetWrite s x.hits a data true with
        | (s, true) => s
        | (s, false) => bar2Parity s a

/-- The requests of a global write: one write of whole words, or a masked write of each line (R266). -/
def writeParts (a : Nat) (data : List Byte) : List (Nat × Nat × Nat × List Byte) :=
  if wholeWords a data.length then [(2, a, 0, data)]
  else (linesOf a data.length).map (fun l =>
    let on := fun (i : Nat) => decide (a ≤ l + i ∧ l + i < a + data.length)
    (3, l, ((List.range 64).map (fun i => if on i then 2 ^ i else 0)).foldl (· + ·) 0,
      (List.range 64).map (fun i => if on i then (data[l + i - a]?).getD 0 else 0)))

/-- BAR2_WRITE (R83): posted; dropped where it reaches nothing. -/
def bar2Write (s : State) (off : Nat) (data : List Byte) (x : BusSur) : State :=
  if !hostServes s then s
  else
    let a := bar2Addr s off
    if isSet s HIF_WIN_DEV_global ∧ !isSet s DEV_START_fabric_ready then
      bar2Unmapped s off (globalAddr (getF s HIF_WIN_DEV_dev_id) a)
    else match bar2Dev s with
    | none => bar2Store s off a data x
    | some d =>
      let parts := writeParts a data
      if 4064 < (s.fab.txns.filter (fun t => t.pkt.vc != 6)).length + parts.length then s
      else parts.foldl (fun s p => (sendReq s 2 d p.1 p.2.1 p.2.2.2.length p.2.2.1 p.2.2.2 (.bar2Write off)).1) s

def execBar2Write (off : Nat) (data : List Byte) (x : BusSur) (s : State) : Host.Outcome State Fault Refusal :=
  onInstance (decide (0 < data.length ∧ data.length ≤ 4096 ∧ off + data.length ≤ bar2Size))
    (if s.host.linkUp then bar2Write s off data x else s)

end Sys2Proof.Machine
end

