-- ==== Sys2Proof/Machine/Serve.lean ====
section
/-! DEFINITION. Serving the fabric (11_stadium_fabric R265-R270, R275; 04_registers_host R81; 05_commands R114, R116;
17_recovery R391, R393): packets that stand whole in a receive buffer are performed in order, answered or forwarded. -/

namespace Sys2Proof.Machine

def evEarlyDiscarded : Ev := ⟨0x5008, 2⟩

/-! ### The receive buffer (R263) -/

/-- Count flits freed in a buffer; the total travels with the next flit sent (R260). -/
def freeBuffer (s : State) (n b k : Nat) : State :=
  let p := port s n
  setPort s n { p with
    freed := tset (fun _ => 0) p.freed b ((tget (fun _ => 0) p.freed b + k) % 4096),
    changed := if p.changed.contains b then p.changed else p.changed ++ [b] }

/-- Remove the first held packet that matches. -/
def dropHeldPacket (n : Nat) (p : Packet) : List Held → List Held
  | [] => []
  | h :: t => if h.port = n ∧ h.pkt = p then t else h :: dropHeldPacket n p t

/-- Take a packet out of a port's receive buffer, freeing its flits unless they came over a link that has gone down since:
its class and the state; none where it is not there. -/
def takePacket (s : State) (n : Nat) (p : Packet) : Option (Nat × State) :=
  match s.fab.inbox.find? (fun h => h.port == n && h.pkt == p) with
  | none => none
  | some h =>
    let s := { s with fab := { s.fab with inbox := dropHeldPacket n p s.fab.inbox } }
    some (h.cls, if h.flits = 0 then s else sendNull (freeBuffer s n (p.vc * 2 + h.cls) h.flits) n false)

/-! ### Requests on memory (R266, R267) -/

/-- A read or write obeys R266: whole words, 4 to 4,096 bytes. -/
def rangeOk (p : Packet) : Bool := wholeWords p.addr p.length && decide (4 ≤ p.length ∧ p.length ≤ 4096)

/-- Refuse a request. -/
def refuse (s : State) (p : Packet) : State := respond s p 1 []

/-- Refuse a register access and count it (R81). -/
def refuseReg (s : State) (p : Packet) : State := refuse (satF s HIF_REMOTE_refused 1) p

def serveRead (s : State) (p : Packet) (x : Meet) : State :=
  if !rangeOk p then refuse s p
  else match targetRead s x.hits p.addr p.length with
    | (s, none) => refuse s p
    | (s, some bs) => respond s p 0 bs

def serveWrite (s : State) (p : Packet) (x : Meet) : State :=
  if !rangeOk p then refuse s p
  else match targetWrite s x.hits p.addr (bytesAt p.data 0 p.length) (isSet s LAP_CFG_allow_remote_store) with
    | (s, true) => respond s p 0 []
    | (s, false) => refuse s p

def serveMasked (s : State) (p : Packet) (x : Meet) : State :=
  match maskedLine s x.hits p.addr p.operand (bytesAt p.data 0 64) with
  | (s, true) => respond s p 0 []
  | (s, false) => refuse s p

/-- An atomic (R266, R267): its result is kept for a duplicate (R269). -/
def serveAtomic (s : State) (p : Packet) (x : Meet) : State :=
  match targetAtomic s x.hits p.op p.addr p.operand (leNat (bytesAt p.data 0 8)) 2 x.counterFails .network none with
  | (s, none) => refuse s p
  | (s, some old) =>
    let rs := s.fab.results ++ [⟨p.src, p.vc, p.seq, old⟩]
    respond { s with fab := { s.fab with results := rs.drop (rs.length - 8192) } } p 0 (natLe 8 old)

/-- A watch (R116): answered at once, held, or answered busy; refused on a counter held failed (R391). -/
def serveWatch (s : State) (p : Packet) (x : Meet) : State :=
  if regionOf p.addr ≠ .laps ∨ p.addr % 8 ≠ 0 then refuse s p
  else
    let n := (p.addr - 0x120000000000) / 8
    let s := if x.counterFails then failLap s n else s
    if lapHeld s n then refuse s p
    else if lapReached s n p.operand then respond s p 0 []
    else if s.laps.watches.length < 1024 then
      { s with laps := { s.laps with watches := s.laps.watches ++ [{ pkt := p, counter := n, value := p.operand }] } }
    else
      let (r, s) := match rankOf s p.src with
        | some r => (r, s)
        | none => let (b, s) := freshBytes s 2; (leNat b, s)
      respond (raiseEv (satF s LAP_WATCH_busy_answers 1) pgLAP evWatchBusy [n, r]) p 3 []

/-! ### Requests on registers (R81) -/

/-- A partner may write a register: allowed on the page, and not through the unlock field. -/
def partnerMayWrite (s : State) (o n : Nat) : Bool :=
  match pageOf (o / 0x1000) with
  | none => false
  | some pg => isSet s HIF_REMOTE_allow_remote_write && bitOf (blkCap pg) 29
      && !(o % 0x1000 == 0x008 || (n == 8 && o % 0x1000 == 0x008 - 4))

/-- A register access on VC6: 4 bytes, or 8 aligned bytes. -/
def serveReg (s : State) (p : Packet) (x : Meet) : State :=
  match pageRange p.addr p.length with
  | none => refuse s p
  | some o =>
    if (p.length ≠ 4 ∧ p.length ≠ 8) ∨ o % p.length ≠ 0 then refuseReg s p
    else if p.op = 1 then
      if isSet s HIF_REMOTE_allow_remote_read then respond s p 0 (busRead s o p.length) else refuseReg s p
    else if p.op = 2 ∧ partnerMayWrite s o p.length then
      respond (busWriteN s o p.length (leNat (bytesAt p.data 0 p.length))
        { counterFails := x.counterFails, hits := x.hits, drifts := x.drifts }) p 0 []
    else refuseReg s p

/-! ### Performing a request -/

/-- The request is one of the insertion messages (R266, R275). -/
def isInsertion (p : Packet) : Bool := p.vc == 6 && (p.op == 8 || p.op == 9)

/-- Perform a request on memory or a counter (R266, R267). -/
def performMem (s : State) (p : Packet) (x : Meet) : State :=
  if p.op = 1 then serveRead s p x
  else if p.op = 2 then serveWrite s p x
  else if p.op = 3 then serveMasked s p x
  else if p.op = 4 ∨ p.op = 5 ∨ p.op = 6 then serveAtomic s p x
  else if p.op = 7 then serveWatch s p x
  else refuse s p

/-- Perform a request (R267): collective writes on VC1, of which one with a reserved msg is discarded and counted (R281), registers and insertion on VC6, memory and counters on the other
request channels; anything else is refused. A word of it that fails in the receive buffer is not performed and answered
refused, but on VC1 it fails the chunk's check instead (R393). -/
def perform (s : State) (p : Packet) (x : Meet) : State :=
  if p.vc = 1 then
    if p.op ≠ 2 then refuse s p
    else if leAt p.data 0 1 = 0 ∨ 8 < leAt p.data 0 1 then respond (mismatched s) p 0 []
    else respond { s with coll := { s.coll with staged := s.coll.staged ++ [p] } } p 0 []
  else if x.bad then refuse s p
  else if p.vc = 6 then
    if p.op = 8 then serveInsert s p else if p.op = 9 then serveForward s p else serveReg s p x
  else if regionOf p.addr = .pages then refuseReg s p
  else match stageWords s pgFAB p.src x.stage with
  | (s, false) => refuse s p
  | (s, true) => performMem s p x

/-- Answer a duplicate (R269). -/
def performAgain (s : State) (p : Packet) (x : Meet) : State :=
  let s := satF s FAB_DUP_duplicates 1
  if p.op = 2 ∨ p.op = 3 then respond s p 0 []
  else if p.op = 4 ∨ p.op = 5 ∨ p.op = 6 then
    match s.fab.results.reverse.find? (fun r => r.src == p.src && r.vc == p.vc && r.seq == p.seq) with
    | some r => respond s p 0 (natLe 8 r.value)
    | none => refuse s p
  else perform s p x

/-- The key of a source and request channel. -/
def chanKey (p : Packet) : Nat := p.src * 8 + p.vc

/-- Perform the early arrivals that are now in order (R269). -/
def performEarly : Nat → State → Nat → State
  | 0, s, _ => s
  | k + 1, s, key =>
    match s.fab.early.find? (fun e => chanKey e.1 == key && e.1.seq == tget (fun _ => 0) s.fab.inSeq key) with
    | none => s
    | some e =>
      let s := { s with fab := { s.fab with
        early := s.fab.early.filter (fun f => !(chanKey f.1 == key && f.1.seq == e.1.seq)),
        inSeq := tput key ((e.1.seq + 1) % 2 ^ 32) s.fab.inSeq } }
      performEarly k (perform s e.1 e.2) key

/-- A request arrives at its destination (R68, R269). -/
def arrive (s : State) (p : Packet) (x : Meet) : State :=
  let key := chanKey p
  let known := s.fab.inSeq.any (fun e => e.1 == key)
  let d := (p.seq + 2 ^ 32 - tget (fun _ => 0) s.fab.inSeq key) % 2 ^ 32
  if p.vc ≠ 6 ∧ !isSet s DEV_START_fabric_ready then respond s p 2 []
  else if !known ∨ (p.first ∧ !p.reissue) ∨ d = 0 then
    let s := { s with fab := { s.fab with inSeq := tput key ((p.seq + 1) % 2 ^ 32) s.fab.inSeq } }
    performEarly 64 (perform s p x) key
  else if d < 4096 then
    if s.fab.early.length < 64 then { s with fab := { s.fab with early := s.fab.early ++ [(p, x)] } }
    else raiseEv (satF s FAB_DUP_early_discarded 1) pgFAB evEarlyDiscarded [p.src, p.vc, p.seq]
  else performAgain s p x

/-- The channels that carry requests on memory: VC1, VC2, VC4 and VC5. -/
def memChannel (vc : Nat) : Bool := vc == 1 || vc == 2 || vc == 4 || vc == 5

/-- A row on a packet that stands in a receive buffer and is addressed here. -/
def onPacket (s : State) (n : Nat) (p : Packet) (ok : Bool) (act : State → State) : Host.Outcome State Fault Refusal :=
  onInstance (isPort n) (whileRunning s (
    if p.dst = myId s ∧ ok then (match takePacket s n p with | some (_, t) => act t | none => s) else s))

def execFabricRead (port : Nat) (p : Packet) (x : Meet) (s : State) : Host.Outcome State Fault Refusal :=
  onPacket s port p (memChannel p.vc && p.op == 1) (fun t => arrive t p x)

def execFabricWrite (port : Nat) (p : Packet) (x : Meet) (s : State) : Host.Outcome State Fault Refusal :=
  onPacket s port p (memChannel p.vc && p.op == 2) (fun t => arrive t p x)

def execFabricMaskedWrite (port : Nat) (p : Packet) (x : Meet) (s : State) : Host.Outcome State Fault Refusal :=
  onPacket s port p (memChannel p.vc && p.op == 3) (fun t => arrive t p x)

def execFabricAtomicAdd (port : Nat) (p : Packet) (x : Meet) (s : State) : Host.Outcome State Fault Refusal :=
  onPacket s port p (memChannel p.vc && p.op == 4) (fun t => arrive t p x)

def execFabricAtomicSwap (port : Nat) (p : Packet) (x : Meet) (s : State) : Host.Outcome State Fault Refusal :=
  onPacket s port p (memChannel p.vc && p.op == 5) (fun t => arrive t p x)

def execFabricCompareAndSwap (port : Nat) (p : Packet) (x : Meet) (s : State) : Host.Outcome State Fault Refusal :=
  onPacket s port p (memChannel p.vc && p.op == 6) (fun t => arrive t p x)

def execFabricWatch (port : Nat) (p : Packet) (x : Meet) (s : State) : Host.Outcome State Fault Refusal :=
  onPacket s port p (memChannel p.vc && p.op == 7) (fun t => arrive t p x)

/-- PARTNER_REGISTER_ACCESS (R81): a load or store on VC6. -/
def execPartnerRegisterAccess (port : Nat) (p : Packet) (x : Meet) (s : State) : Host.Outcome State Fault Refusal :=
  onPacket s port p (p.vc == 6 && (p.op == 1 || p.op == 2)) (fun t => arrive t p x)

def execInsertRequest (port : Nat) (p : Packet) (x : Meet) (s : State) : Host.Outcome State Fault Refusal :=
  onPacket s port p (p.vc == 6 && p.op == 8) (fun t => arrive t p x)

def execInsertForward (port : Nat) (p : Packet) (x : Meet) (s : State) : Host.Outcome State Fault Refusal :=
  onPacket s port p (p.vc == 6 && p.op == 9) (fun t => arrive t p x)

/-- FABRIC_RESPONSE (R268). -/
def execFabricResponse (port : Nat) (p : Packet) (bad : Bool) (s : State) : Host.Outcome State Fault Refusal :=
  onPacket s port p (p.vc == 3) (fun t => takeResponse t p bad)

/-! ### Transit (R270, R272) -/

/-- Forward a packet by its route descriptor on the class of the next hop. Before fabric-ready a request on VC1 to VC5 is
answered not-ready (R68). -/
def forwardPacket (s : State) (n cls : Nat) (p : Packet) : State :=
  let next := nextPort s p.dst p.route
  if memChannel p.vc ∧ !isSet s DEV_START_fabric_ready then respond s p 2 []
  else if portState s next = 3 then enqueue s next (flitsOf p (hopClass s p.dst p.route next (some (n, cls))))
  else routeDown s p

/-- PACKET_FORWARD (R270). -/
def execPacketForward (port : Nat) (p : Packet) (s : State) : Host.Outcome State Fault Refusal :=
  onInstance (isPort port) (whileRunning s (
    if p.dst ≠ myId s then (match takePacket s port p with | some (c, t) => forwardPacket t port c p | none => s) else s))

end Sys2Proof.Machine
end

