-- ==== Sys2Proof/Machine/Link.lean ====
section
/-! DEFINITION. The link layer of a stadium port (11_stadium_fabric R259-R263; 17_recovery R393): flits received, replay,
and the packets they make. -/

namespace Sys2Proof.Machine

/-! ### The transmitter -/

/-- Replays that may follow one another without the acknowledgement advancing (R261). -/
def replayLimit (s : State) (n : Nat) : Nat :=
  let k := getF s (PORT_REPLAY_replay_limit n)
  if k = 0 then 8 else k

/-- The sequence number before the oldest flit that is not acknowledged. -/
def lastAcked (p : PortSt) : Nat :=
  match p.replay with
  | f :: _ => (f.seq + 65535) % 65536
  | [] => (p.txSeq + 65535) % 65536

/-- Send one flit of the replay buffer again: its sequence number, and the acknowledgement and credits of now. -/
def resendFlit (n : Nat) (s : State) (f : Flit) : State :=
  let (f, p) := stampFlit (port s n) f
  emit (setPort s n p) (.flit n (sealFlit f))

/-- Replay everything after a (R261). A buffer word that fails takes the port down (R393), as replays that reach the
limit do. -/
def replay (s : State) (n a : Nat) (bufBad : Bool) : State :=
  let p := port s n
  if p.replay.isEmpty then s
  else if bufBad then portDown s n 1
  else
    let s := satF (setPort s n { p with replayRun := p.replayRun + 1, replayFrom := some a }) (PORT_REPLAY_replays n) 1
    if replayLimit s n ≤ p.replayRun + 1 then
      portDown (raiseEv s pgFAB evReplayExhausted [n, lastAcked p]) n 1
    else p.replay.foldl (resendFlit n) s

/-- Take a flit's acknowledgement: it frees every flit up to and including it (R261). -/
def takeAck (s : State) (n a : Nat) : State :=
  let p := port s n
  let keep := p.replay.filter (fun f => decide (32768 ≤ (a + 65536 - f.seq) % 65536))
  if keep.length = p.replay.length then s
  else setPort s n { p with replay := keep, replayRun := 0, replayFrom := none }

/-- Take a flit's credit fields (R260, R263). -/
def takeCredit (s : State) (n sel total : Nat) : State :=
  setPort s n { port s n with peerFreed := tset (fun _ => 0) (port s n).peerFreed sel total }

/-- Take acknowledgement, credits and nak of a flit, and send what may go. -/
def takeFields (s : State) (n : Nat) (f : Flit) (bufBad : Bool) : State :=
  let s := takeCredit (takeAck s n f.ackSeq) n f.crdSel f.crdTotal
  let s := if f.nak && (port s n).replayFrom != some f.ackSeq then replay s n f.ackSeq bufBad else s
  pump s n

/-! ### The receiver -/

/-- Ask for a replay (R261), once while naking. -/
def sendNak (s : State) (n : Nat) : State :=
  let p := port s n
  if p.naking then s else sendNull (setPort s n { p with naking := true }) n true

/-- A packet of which a row performs the arrival. -/
def hasRow (p : Packet) : Bool :=
  p.vc == 3 || (memChannel p.vc && decide (1 ≤ p.op ∧ p.op ≤ 7))
    || (p.vc == 6 && (p.op == 1 || p.op == 2 || p.op == 8 || p.op == 9))

/-- A packet stands whole in the receive buffer: it waits there for its row; an unassigned op addressed here is answered
refused at once (R266); a port in loopback or going down passes nothing on (R262, R274). -/
def packetDone (s : State) (n cls : Nat) (vc : Nat) (bytes : List Byte) : State :=
  let k := max 1 (ceilDiv bytes.length 240)
  let p := packetOfBytes vc bytes
  let p := { p with data := p.data.take p.length }
  if portState s n ≠ 3 ∧ portState s n ≠ 4 then freeBuffer s n (vc * 2 + cls) k
  else if p.dst = myId s ∧ !hasRow p then arrive (freeBuffer s n (vc * 2 + cls) k) p {}
  else { s with fab := { s.fab with inbox := s.fab.inbox ++ [{ port := n, cls := cls, flits := k, pkt := p }] } }

/-- Deliver a flit's payload (R261, R263, R265): VC0 and VC7 are link-local, the others make packets. -/
def deliverFlit (s : State) (n : Nat) (f : Flit) : State :=
  let cls := f.cls % 2
  let b := f.vc * 2 + cls
  if f.vc = 0 ∨ 7 ≤ f.vc then freeBuffer s n b 1
  else
    let p := port s n
    let bytes := (if f.som then [] else tget (fun _ => []) p.partials b) ++ (if f.eom then f.payload.take 240 else bytesAt f.payload 0 240)
    if f.eom then packetDone (setPort s n { p with partials := tset (fun _ => []) p.partials b [] }) n cls f.vc bytes
    else setPort s n { p with partials := tset (fun _ => []) p.partials b bytes }

/-- A codeword begins in the next flit: 257 data symbols of 10 bits hold 2,570 bits, a flit 2,048 (R259). -/
def codewordBegins (p : PortSt) : Bool := p.rxBits == 0 || decide (2570 < p.rxBits + 2048)

/-- A flit goes through the decoder (R259): whether it has a bit in an uncorrectable codeword, the one it continues or the
one that begins in it. Corrected symbols are counted by lane, uncorrectable codewords by port as they begin. -/
def decodeFlit (s : State) (n : Nat) (corrected : List Nat) (uncorrectable : Bool) : State × Bool :=
  let p := port s n
  let new := codewordBegins p && uncorrectable
  let s := setPort s n { p with
    laneCorrected := (List.range 8).foldl (fun t l =>
      tset (fun _ => 0) t l (tget (fun _ => 0) t l + corrected.getD l 0)) p.laneCorrected,
    rxBits := (p.rxBits + 2048) % 2570, badWord := if codewordBegins p then uncorrectable else p.badWord }
  (satF (satF s (PORT_FEC_corrected n) (corrected.take 8).sum) (PORT_FEC_uncorrectable n) (b2n new),
    new || (p.rxBits != 0 && p.badWord))

/-- A flit is received (R259, R261, R393): the symbols corrected on each active lane, whether the codeword that begins in it
is uncorrectable, or a word that fails as it enters the receive buffer; bufBad says that the replay buffer fails if it is
read now. -/
def receiveFlit (s : State) (n : Nat) (f : Flit) (corrected : List Nat) (uncorrectable parity bufBad : Bool) : State :=
  if (port s n).train ≠ .trained then s
  else
    let (s, bad) := decodeFlit s n corrected uncorrectable
    let s := if parity then satF s DEV_REPLAY_path_replays 1 else s
    if bad ∨ parity ∨ f.crc ≠ crc32c (flitBytes f) then sendNak (satF s (PORT_CRC_crc_fail n) 1) n
    else if f.null then takeFields s n f bufBad
    else if f.seq = (port s n).expected then
      let s := deliverFlit (takeFields s n f bufBad) n f
      let p := port s n
      if p.train ≠ .trained then s
      else sendNull (setPort s n { p with expected := (p.expected + 1) % 65536, naking := false }) n false
    else
      let s := takeFields (satF s (PORT_CRC_seq_fail n) 1) n f bufBad
      if (port s n).train = .trained ∧ f.seq ≠ ((port s n).expected + 65535) % 65536 then sendNak s n else s

def execFlitReceive (n : Nat) (f : Flit) (corrected : List Nat) (uncorrectable parity bufBad : Bool) (s : State) :
    Host.Outcome State Fault Refusal :=
  onInstance (isPort n) (whileRunning s (receiveFlit s n f corrected uncorrectable parity bufBad))

/-- REPLAY_TIMEOUT (R261): the oldest flit has waited replay_timeout. -/
def execReplayTimeout (n : Nat) (bufBad : Bool) (s : State) : Host.Outcome State Fault Refusal :=
  onInstance (isPort n) (whileRunning s (replay s n (lastAcked (port s n)) bufBad))

end Sys2Proof.Machine
end

