-- ==== Sys2Proof/Machine/Merge.lean ====
section
/-! DEFINITION. Merge and rebase (14_milant R352, R355): the merged difference in participant order, and the rebase onto a
reconciled anchor. -/

namespace Sys2Proof.Machine

/-- The admitted participants of an admitted list with their bases, in identifier order. -/
def admittedOf (b : List Byte) : List (Nat × Nat) :=
  (List.range 64).filterMap (fun p => if bitOf (leAt b (8 * p) 8) 32 then some (p, leAt b (8 * p) 4) else none)

/-- The factor of each admitted participant (R352). -/
def factorsOf (stale : Nat → Word) (r : Nat) (adm : List (Nat × Nat)) : List Word :=
  let z := adm.foldl (fun z a => fadd z (stale (r - a.2))) 0
  adm.map (fun a => fdiv (stale (r - a.2)) z)

/-- Decode the stripes of a baton of n elements from an address on (R246, R252, R253): the values in element order. A stripe
that fails a check is read once more; the command ends as DAMAGED where it fails again. -/
def decodeStripes (c : UpdCtx) : Nat → Nat → Nat → List Byte → State → Reading (List Fp)
  | 0, _, _, _, s => (s, .ok [])
  | k + 1, n, a, bs, s =>
    if n = 0 then (s, .ok [])
    else
      let flaky := flakyAt c.sur a
      let id := cmdIdOf s c.q c.idx
      match (match checkHead bs 0x22 (min n 2048) with
        | .error d => .error d
        | .ok h => (match decodeL2 s h bs with
          | .error d => .error d
          | .ok vs => .ok (h, vs)) : Except Nat (CbzHead × List Fp)) with
      | .error d => (judgeBlock s a id bs flaky (some d), .error (stDamaged, d))
      | .ok (h, vs) =>
        (decodeStripes c k (n - min n 2048) (a + stripeSize h) (bs.drop (stripeSize h)) (judgeBlock s a id bs flaky none)).andThen
          fun s rest => (s, .ok (vs ++ rest))

/-- A stored baton as the merge reads it: where it lies, and its values. -/
structure Delta where
  at' : BatonAt
  vals : List Fp

/-- A stored baton lies over part of a shard. -/
def batonMeets (x : BatonAt) (d : Shard) : Bool :=
  x.tensor == d.tensor
    && decide (x.row0 < d.row0 + d.rows ∧ d.row0 < x.row0 + x.rows ∧ x.col0 < d.col0 + d.cols ∧ d.col0 < x.col0 + x.cols)

/-- Read the batons of one participant and base that lie over a shard. -/
def readDeltas (c : UpdCtx) (d : Shard) (a : Nat × Nat) (s : State) : Reading (List Delta) :=
  let slot := roundSlot s (a.2 % 8)
  if slot.base ≠ some a.2 then (s, .ok [])
  else
    (slot.batons.filter (fun x => x.participant == a.1 && batonMeets x d)).foldl (fun (r : Reading (List Delta)) x =>
      r.andThen fun s acc =>
      (updRead c s x.addr x.len).andThen fun s b =>
      (decodeStripes c (x.rows * x.cols) (x.rows * x.cols) (x.addr + 64) (b.drop 64) s).andThen fun s vs =>
        (s, .ok (acc ++ [⟨x, vs⟩]))) (s, .ok [])

/-- A participant's coded difference of an element, where one of its batons covers it. -/
def deltaAt (ds : List Delta) (row col : Nat) : Option Fp :=
  (ds.find? (fun x => decide (x.at'.row0 ≤ row ∧ row < x.at'.row0 + x.at'.rows ∧ x.at'.col0 ≤ col ∧ col < x.at'.col0 + x.at'.cols))).map
    (fun x => x.vals.getD ((row - x.at'.row0) * x.at'.cols + (col - x.at'.col0)) fpZero)

/-- The merged difference of an element: none where no admitted baton covers it. -/
def mergedAt (fs : List (Word × List Delta)) (row col : Nat) : Option Word :=
  if fs.all (fun f => (deltaAt f.2 row col).isNone) then none
  else some (fs.foldl (fun acc f =>
    match deltaAt f.2 row col with
    | some v => e32 (fpAdd (fpMul (v32 f.1) v) (v32 acc))
    | none => acc) 0)

/-- Merge one shard (R352): D of every element, or none written where the coverage is incomplete. -/
def mergeShard (c : UpdCtx) (adm : List (Nat × Nat)) (fs : List Word) (s : State) (d : Shard) : Reading ShardOut :=
  if !rectOk d ∨ !alignedIn d.grad (4 * d.count) then (s, .error (stMalformed, 28))
  else
    (adm.foldl (fun (r : Reading (List (List Delta))) a =>
      r.andThen fun s acc => (readDeltas c d a s).andThen fun s ds => (s, .ok (acc ++ [ds]))) (s, .ok [])).andThen fun s dss =>
      let es := (List.range d.count).map (fun i => mergedAt (List.zip fs dss) (d.rowOf i) (d.colOf i))
      if es.any (·.isNone) then (s, .error (stMalformed, 32))
      else
        let ws := es.map (fun e => e.getD 0)
        (updWrite c s d.grad (ws.flatMap (fun e => natLe 4 e.toNat))).andThen fun s _ =>
          (s, .ok { step := d.count, nonfinite := (ws.filter nonFinite32).length })

/-- Run a shard operation over a command's descriptors and end it with the result of R359. -/
def overShards (c : UpdCtx) (o : BatonOp) (e : CmdEntry) (f : State → Shard → Reading ShardOut) (s : State) : State :=
  let (s, outs) := (List.range o.len).foldl (fun st i =>
    let (s, done) := st
    let (s, v) := settleShard {} ((updRead c s (o.src + 64 * i) 64).andThen (fun s b => f s (shardOf b)))
    (s, done ++ [v])) (s, ([] : List ShardOut))
  let bad := outs.find? (fun v => v.status != 0)
  let ok := outs.filter (fun v => v.status == 0)
  endCmd s e.q e.idx ((bad.map (·.status)).getD 0) ((bad.map (·.detail)).getD 0)
    (natLe 8 ((ok.map (·.step)).foldl (· + ·) 0) ++ natLe 2 (min 0xFFFF ((ok.map (·.nonfinite)).foldl (· + ·) 0)) ++ [0, 0])

def mergeCtx (sur : Surround) (o : BatonOp) (e : CmdEntry) : UpdCtx :=
  ⟨e.q, e.idx, e.epoch, { updOpOf [] with mode := 2, step := 2 ^ 32, round := o.round }, sur⟩

/-- The merge operation (R352). -/
def runMerge (sur : Surround) (o : BatonOp) (s : State) (e : CmdEntry) : State :=
  let c := mergeCtx sur o e
  if slotRoom s = 0 then endCmd s e.q e.idx stMalformed 33 []
  else match updRead c (putCmd s { e with stage := .running }) o.dst 512 with
    | (s, .error r) => endCmd s e.q e.idx r.1 r.2 []
    | (s, .ok b) =>
      let adm := admittedOf b
      if adm.any (fun a => decide (o.round < a.2 ∨ a.2 + 4 < o.round)) then endCmd s e.q e.idx stMalformed 31 []
      else overShards c o e (mergeShard c adm (factorsOf (staleWeight s) o.round adm)) s

/-! ### Rebase (R355) -/

/-- The new inner weight of an element: A_rec + (widen(w) - A_stale), each operation binary32. -/
def rebasedWeight (k5 : Bool) (rec stale w : Word) : List Byte :=
  let v := fadd rec (fsub w stale)
  if k5 then natLe 4 v.toNat else natLe 2 (fpEncode bf16 (v32 v))

/-- Rebase one anchor shard onto the reconciled shard its grad_addr names. -/
def rebaseShard (c : UpdCtx) (s : State) (d : Shard) : Reading ShardOut :=
  let k5 := k5Job s
  let n := d.count
  if !ownerOk 2 k5 d ∨ !alignedIn d.aux 64 ∨ !alignedIn d.grad 64 then (s, .error (stMalformed, 28))
  else
    (ownRecord c s d).andThen fun s p =>
    (innerShard c s d).andThen fun s ir =>
    (updRead c s d.grad 64).andThen fun s b =>
    let g := shardOf b
    if !ownerOk 2 k5 g ∨ g.row0 ≠ d.row0 ∨ g.rows ≠ d.rows ∨ g.col0 ≠ d.col0 ∨ g.cols ≠ d.cols then (s, .error (stMalformed, 19))
    else
      (ownRecord c s g).andThen fun s pr =>
      (readSlot c s d p.slot 2 k5).andThen fun s x =>
      (readSlot c s g pr.slot 2 k5).andThen fun s y =>
      (readSlot c s ir.1 ir.2.slot ir.2.mode k5).andThen fun s z =>
      let w := (List.range n).flatMap (fun i => rebasedWeight k5 (f32At y.1 i) (f32At x.1 i) (weightAt k5 z.1 i))
      (writeSlot c s d (1 - p.slot) 2 k5 y.1 y.2.1 []).andThen fun s _ =>
      (writeSlot c s ir.1 (1 - ir.2.slot) ir.2.mode k5 w z.2.1 z.2.2).andThen fun s _ =>
      (writeRecord c s d { p with
        slot := 1 - p.slot, mode := 2, skipped := false, imported := false, k5 := k5, step := c.o.round, epoch := c.epoch,
        wDigest := crc64 y.1, mDigest := crc64 y.2.1, ue := 0, count := n, tensor := d.tensor, layer := d.layer }).andThen fun s _ =>
      (writeRecord c s ir.1 { ir.2 with
        slot := 1 - ir.2.slot, skipped := false, imported := false, epoch := c.epoch, wDigest := crc64 w }).andThen fun s _ =>
        (s, .ok { step := n, nonfinite := ((List.range n).filter (fun i => nonFinite32 (f32At y.1 i))).length })

/-- The rebase operation (R355). -/
def runRebase (sur : Surround) (o : BatonOp) (s : State) (e : CmdEntry) : State :=
  let c := mergeCtx sur o e
  overShards c o e (rebaseShard c) (putCmd s { e with stage := .running })

/-- The update engine takes a merge or a rebase now (R307, R358). -/
def updFree (s : State) : Bool := blkState s pgUPD == 2 && s.upd.audits.isEmpty && decide (s.upd.runs.length < 4)

/-- BATON_SEND_MERGE (R352). -/
def execBatonSendMerge (q idx : Nat) (sur : Surround) (s : State) : Host.Outcome State Fault Refusal :=
  if updFree s then milRow 3 q idx sur (runMerge sur) s else onInstance (isQueue q) s
/-- BATON_SEND_REBASE (R355). -/
def execBatonSendRebase (q idx : Nat) (sur : Surround) (s : State) : Host.Outcome State Fault Refusal :=
  if updFree s then milRow 6 q idx sur (runRebase sur) s else onInstance (isQueue q) s

end Sys2Proof.Machine
end

