-- ==== Sys2Proof/Machine/Parcels.lean ====
section
/-! DEFINITION. Parcels received (14_milant R331, R333, R346, R349, R351, R353): forwarding, delivery by kind, and the
rows of the frames. -/

namespace Sys2Proof.Machine

/-- Signal a message's counter (R346, R349, R358): none when sig_add is 0. -/
def signalMsg (s : State) (b : List Byte) : State :=
  if leAt b 12 4 = 0 then s else (lapAdd s (leAt b 8 2 % 4096) (leAt b 12 4) 2).1

/-- A relay message or a transfer lands: its bytes are written, its counter signalled, and it is acknowledged (R346). -/
def landMessage (s : State) (m : MsgRx) (x : Meet) : State :=
  let b := m.bytes
  let body := b.drop 32
  match (if x.writeFails then (s, false) else if body = [] then (s, true) else targetWrite s x.hits (leAt b 0 8) body false) with
  | (s, false) => s
  | (s, true) => ackMsg (signalMsg (markDelivered s m.head) b) m.head

/-- A flag message (R349): ORed into the step flag by the clear-then-set rule of R293. -/
def landFlag (s : State) (m : MsgRx) : State :=
  let b := m.bytes
  let step := leAt b 16 4
  let ovf := bitOf (leAt b 0 8) 0
  let s := openStep s step
  let st := if step % 2 = 0 then COL_OVF_STEP0_step else COL_OVF_STEP1_step
  let s := if ovf ∧ getF s st = step then setF s (if step % 2 = 0 then COL_OVF_ovf0 else COL_OVF_ovf1) 1 else s
  let s := signalMsg (markDelivered s m.head) b
  ackMsg (raiseEv s (pgMIL 0) evFlagReceived [m.head.srcBld, step, b2n ovf]) m.head

/-- The parcels of a held message, as they came. -/
def partsOf (m : MsgRx) : List Parcel :=
  m.parts.map (fun p => { m.head with offset := p.1, body := p.2, last := p.1 + p.2.length == m.head.msgLen })

/-- The baton-map rectangles a baton intersects. -/
def mapsMet (s : State) (h : BatonHead) : List BatonMap :=
  (batonMaps s).filter (fun r => r.tensor == h.tensor
    && decide (r.row0 < h.row0 + h.rows ∧ h.row0 < r.row0 + r.rows ∧ r.col0 < h.col0 + h.cols ∧ h.col0 < r.col0 + r.cols))

/-- The members of this stadium, other than this module, whose rectangles a baton intersects. -/
def batonDevices (s : State) (h : BatonHead) : List Nat :=
  ((mapsMet s h).filterMap (fun r => match resolveRank s r.rank with | .device d => some d | _ => none)).eraseDups.filter
    (· != myId s)

/-- The hops along the relay line for a baton that a member in another building needs (R351): its own ports, away from the
one the baton came by, or pass_dev toward the boundary it has no port at. A baton that came over VC5 goes on own ports only. -/
def batonLines (s : State) (m : MsgRx) (h : BatonHead) : List (Nat × MilHop) :=
  if (mapsMet s h).any (fun r => resolveRank s r.rank == .offStadium) then
    ([1, 2].filterMap (fun role =>
      match portsFacing s role 0 with
      | [] => none
      | n :: ns => if (n :: ns).contains m.port then none else some (8192 + n, MilHop.ports (n :: ns))))
    ++ (match passDev s with
      | some d => if m.port = 2 ∨ d = myId s ∨ [1, 2].all (fun role => !(portsFacing s role 0).isEmpty) then []
          else [(d, MilHop.device 5 d)]
      | none => [])
  else []

/-- Forward a baton to the members whose rectangles it intersects, on VC5, and along the relay line where such a member lies
in another building (R351). -/
def forwardBaton (s : State) (m : MsgRx) (h : BatonHead) : State :=
  let hops := (if m.port = 2 then [] else (batonDevices s h).map (MilHop.device 5)) ++ (batonLines s m h).map (·.2)
  hops.eraseDups.foldl (fun s hop => (partsOf m).foldl (fun s p => sendHop s hop p) s) s

/-- Who has still to store a baton when this device has passed it on. -/
def batonLeft (s : State) (m : MsgRx) (h : BatonHead) : List Nat :=
  ((if m.port = 2 then [] else batonDevices s h) ++ (batonLines s m h).map (·.1)).eraseDups

/-- The port leads along the relay line, not to a participant (R329). -/
def isLine (s : State) (n : Nat) : Bool := isMilPort n && (milRole s n == 1 || milRole s n == 2)

/-- A baton is stored wherever this device has passed it on (R351): the gateway hears of it; another device says so to where
the baton came from, with the acknowledge entry of its message. -/
def batonStored (s : State) (w : BatonWait) : State :=
  if isLine s w.port then sendOnPorts s [w.port] (ctlParcel s w.head true [entryFor w.head 1])
  else if 2 ≤ w.port then ackMsg s w.head
  else hearBaton s w

/-- A device or relay line that has stored a baton, by the control parcel that says so. -/
def storedBy (s : State) (n : Nat) (p : Parcel) : Nat :=
  if isMilPort n then 8192 + n
  else match resolveRank s p.srcRank with | .device d => d | _ => 8192 + n

/-- A control parcel that says a baton passed on is stored. -/
def saysStored (p : Parcel) (w : BatonWait) : Bool :=
  p.kind == 6 && isMarathon p && (ctlEntries p.body).any (fun c =>
    c.code == 1 && c.seq == w.head.seq && c.src == (streamOf w.head).src && c.dst == (streamOf w.head).dst)

/-- Take such a control parcel: with the last one the baton is stored everywhere. Two ports of one line count as one. -/
def hearStored (s : State) (n : Nat) (p : Parcel) : State :=
  let who := storedBy s n p
  let line := fun (k : Nat) => decide (8192 ≤ k ∧ 8192 ≤ who) && milRole s (k - 8192) == milRole s (who - 8192)
  let after := s.mil.waits.map (fun w =>
    if saysStored p w then { w with left := w.left.filter (fun k => k != who && !line k) } else w)
  let done := after.filter (·.left.isEmpty)
  done.foldl batonStored { s with mil := { s.mil with waits := after.filter (fun w => !w.left.isEmpty) } }

/-- This module is one of the members a baton is for. -/
def batonMine (s : State) (h : BatonHead) : Bool := (mapsMet s h).any (fun r => resolveRank s r.rank == .device (myId s))

/-- A baton arrives whole (R351): checked, forwarded, and stored where it is for this member, as every baton handed over by
the gateway is that goes on along no relay line. The gateway acknowledges it to its sender. -/
def landBaton (s : State) (m : MsgRx) : State :=
  let b := m.bytes
  let h := batonHeadOf b
  let drop := { s with mil := { s.mil with msgs := s.mil.msgs.filter (fun x => !ofMsg m.head x) } }
  if slotRoom s = 0 then drop
  else if !batonGood b then dropBaton drop h 3
  else
    let left := batonLeft s m h
    let s := forwardBaton (markDelivered s m.head) m h
    let (s, kept) := if batonMine s h ∨ (2 ≤ m.port ∧ left = []) then keepBaton s b else (s, some 0)
    let w : BatonWait := ⟨m.head, m.port, h.participant, h.base, h.index, h.total, left⟩
    let s := if kept.isNone then s
      else if left = [] then batonStored s w else { s with mil := { s.mil with waits := s.mil.waits ++ [w] } }
    if 2 ≤ m.port ∨ isLine s m.port then s else ackMsg s m.head

/-- A manifest arrives whole (R353): stored in its round's slot, whatever newer base that holds; the staleness of batons is
not a manifest's. -/
def landManifest (s : State) (m : MsgRx) : State :=
  let b := m.bytes
  let who := leAt b 1 1
  let round := leAt b 4 4
  match appendRound (claimRound s round).1 (round % 8) b with
  | (s, none) => s
  | (s, some a) =>
    let r := roundSlot s (round % 8)
    let s := setRoundSlot s (round % 8) { r with manifests := r.manifests ++ [(who, a, b.length)] }
    ackMsg (raiseEv (markDelivered s m.head) (pgMIL 0) evManifestReceived [who, round]) m.head

/-- Deliver a message. -/
def deliverMsg (s : State) (m : MsgRx) (x : Meet) : State :=
  match m.head.kind with
  | 2 => landFlag s m
  | 3 => landBaton s m
  | 4 => landManifest s m
  | _ => landMessage s m x

/-- Deliver what may be delivered now, in order. A message that stays (it cannot be written, or its slot is full) holds up no
other. -/
def deliverDue : Nat → Meet → List Parcel → State → State
  | 0, _, _, s => s
  | k + 1, x, stays, s =>
    match s.mil.msgs.find? (fun m => msgDue s m && !stays.contains m.head) with
    | none => s
    | some m =>
      let t := deliverMsg s m x
      deliverDue k x (if t.mil.msgs.length < s.mil.msgs.length then stays else m.head :: stays) t

/-- Deliver all that may be delivered. -/
def deliverAll (s : State) (x : Meet) : State := deliverDue (s.mil.msgs.length + 1) x [] s

/-- A control parcel has reached its end (R331). -/
def takeControl (s : State) (p : Parcel) (x : Meet) : State :=
  deliverAll ((ctlEntries p.body).foldl (fun s c =>
    match c.code with
    | 1 => onAckEntry s p.srcBld c
    | 2 => onResendEntry s x.hits p.srcBld c
    | 3 => onWithdrawEntry s p.dstBld c
    | _ => s) s) x

/-- A parcel is taken: it lands here, or goes on (R346, R351). A reserved kind is dropped and counted (R330). -/
def takeParcel (s : State) (n : Nat) (x : Meet) (p : Parcel) : State :=
  if p.kind = 0 ∨ 7 ≤ p.kind then (if isMilPort n then satF s (MIL_DROP_low n) 1 else s)
  else if s.mil.waits.any (saysStored p) then hearStored s n p
  else match (if n = 2 ∧ p.kind = 3 ∧ p.dstBld = myParticipant s then .here else hopOf s p) with
    | .here => if p.kind = 6 then takeControl s p x else deliverAll (collect s n p) x
    | h => sendHop (endTransit (noteTransit s n p) p) h p

/-- A frame arrives on a port, or a parcel is handed over by another device of the stadium on VC4 or VC5 (port 2): before
fabric-ready that is a request without effect (R68). -/
def parcelIn (s : State) (n : Nat) (f : DataFrame) (found : List DataFrame) (x : Meet) : State :=
  if n = 2 then (if isSet s DEV_START_fabric_ready then takeParcel s n x f.parcel else s)
  else
    let (s, fs) := receiveFrame s n f found
    fs.foldl (fun s f => takeParcel s n x f.parcel) s

/-- A row of a parcel: it applies to parcels of its kind. -/
def parcelRow (ok : Parcel → Bool) (n : Nat) (f : DataFrame) (found : List DataFrame) (x : Meet) (s : State) : Host.Outcome State Fault Refusal :=
  onInstance (decide (n < 3)) (whileRunning s (if ok f.parcel then parcelIn s n f found x else s))

/-- RELAY_PARCEL (R346); a reserved kind also comes here. -/
def execRelayParcel (port : Nat) (f : DataFrame) (found : List DataFrame) (x : Meet) (s : State) : Host.Outcome State Fault Refusal :=
  parcelRow (fun p => p.kind == 1 || p.kind == 0 || decide (7 ≤ p.kind)) port f found x s
/-- FLAG_PARCEL (R349). -/
def execFlagParcel (port : Nat) (f : DataFrame) (found : List DataFrame) (x : Meet) (s : State) : Host.Outcome State Fault Refusal :=
  parcelRow (fun p => p.kind == 2) port f found x s
/-- BATON_PARCEL (R351). -/
def execBatonParcel (port : Nat) (f : DataFrame) (found : List DataFrame) (x : Meet) (s : State) : Host.Outcome State Fault Refusal :=
  parcelRow (fun p => p.kind == 3) port f found x s
/-- MANIFEST_PARCEL (R353). -/
def execManifestParcel (port : Nat) (f : DataFrame) (found : List DataFrame) (x : Meet) (s : State) : Host.Outcome State Fault Refusal :=
  parcelRow (fun p => p.kind == 4) port f found x s
/-- TRANSFER_PARCEL (R358). -/
def execTransferParcel (port : Nat) (f : DataFrame) (found : List DataFrame) (x : Meet) (s : State) : Host.Outcome State Fault Refusal :=
  parcelRow (fun p => p.kind == 5) port f found x s
/-- CONTROL_ACKNOWLEDGE (R331); a reserved code also comes here. -/
def execControlAcknowledge (port : Nat) (f : DataFrame) (found : List DataFrame) (x : Meet) (s : State) : Host.Outcome State Fault Refusal :=
  parcelRow (fun p => p.kind == 6 && ctlCode p != 2 && ctlCode p != 3) port f found x s
/-- CONTROL_RESEND (R331). -/
def execControlResend (port : Nat) (f : DataFrame) (found : List DataFrame) (x : Meet) (s : State) : Host.Outcome State Fault Refusal :=
  parcelRow (fun p => p.kind == 6 && ctlCode p == 2) port f found x s
/-- CONTROL_WITHDRAW (R331, R347). -/
def execControlWithdraw (port : Nat) (f : DataFrame) (found : List DataFrame) (x : Meet) (s : State) : Host.Outcome State Fault Refusal :=
  parcelRow (fun p => p.kind == 6 && ctlCode p == 3) port f found x s

/-- REPAIR_FRAME (R333). -/
def repairIn (s : State) (n : Nat) (r : Repair) (found : List DataFrame) (x : Meet) : State :=
  let (s, fs) := receiveRepair s n r found
  fs.foldl (fun s f => takeParcel s n x f.parcel) s

def execRepairFrame (port : Nat) (r : Repair) (found : List DataFrame) (x : Meet) (s : State) : Host.Outcome State Fault Refusal :=
  onInstance (isMilPort port) (whileRunning s (repairIn s port r found x))

end Sys2Proof.Machine
end

