-- ==== Sys2Proof/Machine/Twin.lean ====
section
/-! DEFINITION. MATMUL.TWIN (06_lanes R145, R146): the two products of the backward pass on the two arrays of each lane. -/

namespace Sys2Proof.Machine

/-- One side of a twin's operand block (R146). -/
structure TwSide where
  right : Bool
  rows : Nat
  red : Nat
  b : Nat
  bPitch : Nat
  bf : Nat
  c : Nat
  cPitch : Nat
  out : Nat
  acc : Nat
  drain : Nat
  row : Nat
  slot : Nat
  redLen : Nat
  row0 : Nat
  deriving DecidableEq, Repr

/-- The operand block of R146. -/
structure TwOp where
  g : Nat
  gPitch : Nat
  gf : Nat
  mb : Nat
  nb : Nat
  k : Nat
  step : Nat
  k0 : Nat
  left : TwSide
  rightSide : TwSide
  deriving DecidableEq, Repr

/-- A side's fields: its fmt nibble, and the offsets of its operand, pitch, destination, pitch, out byte, region, slot,
declared length and logical first row. -/
def twSideOf (b : List Byte) (right : Bool) (rows red fmt a ap c cp ob ar sl rl r0 : Nat) : TwSide :=
  let x := leAt b ob 1
  { right := right, rows := rows, red := red, b := leAt b a 8, bPitch := leAt b ap 2, bf := fmt, c := leAt b c 8,
    cPitch := leAt b cp 2, out := bitsOf x 0 3, acc := bitsOf x 3 2, drain := bitsOf x 5 2, row := leAt b ar 2,
    slot := leAt b sl 2, redLen := leAt b rl 4, row0 := leAt b r0 2 }

def twOpOf (b : List Byte) : TwOp :=
  let mb := leAt b 50 2
  let nb := leAt b 52 2
  { g := leAt b 0 8, gPitch := leAt b 40 2, gf := leAt b 58 1 % 16, mb := mb, nb := nb, k := leAt b 54 4,
    step := leAt b 78 4, k0 := leAt b 86 2,
    left := twSideOf b false mb nb (leAt b 59 1 % 16) 8 42 24 46 60 62 66 70 82,
    rightSide := twSideOf b true nb mb (leAt b 59 1 / 16) 16 44 32 48 61 64 68 74 84 }

/-- The sides. -/
def TwOp.sides (o : TwOp) : List TwSide := [o.left, o.rightSide]

/-- The k-tiles (R145). -/
def twTiles (o : TwOp) : Nat := ceilDiv o.k 128

/-- The lanes a twin uses. -/
def twLanes (e : CmdEntry) (o : TwOp) : List Nat := (List.range (min (twTiles o) e.laneCount)).map (e.firstLane + ·)

/-- The tag of a side (R136). -/
def twTag (e : CmdEntry) (o : TwOp) (sd : TwSide) : List Nat :=
  [if sd.right then 2 else 1, sd.row, sd.rows, o.k, sd.row0, o.k0, e.firstLane, e.laneCount]

/-- A side's mode fields are none of the reserved ones (R136, R137). -/
def sideModesOk (sd : TwSide) : Bool :=
  decide (sd.out ≤ 2 ∧ sd.acc ≤ 1 ∧ sd.drain ≤ 2) && (sd.drain != 2 || sd.out == 0)

/-- A side's operand and destination lie in the attic. -/
def sideSpanOk (o : TwOp) (sd : TwSide) : Bool :=
  atticSpan sd.b o.k sd.bPitch (rowSize sd.bf sd.red) (headerSize sd.bf)
    && (sd.drain == 0 || atticSpan sd.c sd.rows sd.cPitch (o.k * outSize sd.out) 0)

/-- The checks of R145, R146 and R156. -/
def twCheck (s : State) (e : CmdEntry) (b : List Byte) (o : TwOp) : Option (Nat × Nat) :=
  let fs := [o.gf, o.left.bf, o.rightSide.bf]
  if leAt b 58 1 / 16 ≠ 0 ∨ bitOf (leAt b 60 1) 7 ∨ bitOf (leAt b 61 1) 7 ∨ !zeroAt b 88 40 then some (stMalformed, 0)
  else if fs.any (fun f => decide (5 < f)) then some (stMalformed, 2)
  else match k5Check s fs with
    | some r => some r
    | none =>
      if !(o.gf == 3 || o.gf == 4 || o.gf == 5) || o.sides.any (fun sd => (modeOf o.gf sd.bf).isNone) then some (stMalformed, 2)
      else if o.mb < 32 ∨ 1024 < o.mb ∨ o.mb % 32 ≠ 0 ∨ o.nb < 32 ∨ 1024 < o.nb ∨ o.nb % 32 ≠ 0 ∨ o.k = 0 ∨ 16777215 < o.k then
        some (stMalformed, 3)
      else if o.sides.any (fun sd => !sideModesOk sd) then some (stMalformed, 6)
      else if !atticSpan o.g o.mb o.gPitch (rowSize o.gf o.nb) (headerSize o.gf) || o.sides.any (fun sd => !sideSpanOk o sd) then
        some (stMalformed, 4)
      else if o.sides.any (fun sd =>
          !accFits sd.row (if keeps sd.acc sd.drain then (twTiles o - 1) / e.laneCount + 1 else 1) sd.rows) then
        some (stMalformed, 5)
      else if o.sides.any (fun sd => sd.acc == 1
          && (twLanes e o).any (fun l => accTag s l sd.right != some (twTag e o sd))) then some (stMalformed, 5)
      else if o.sides.any (fun sd => sd.slot != 0xFFFF
          && (!isSlot sd.slot || (useSlot s sd.slot o.step).isNone)) then some (stMalformed, 36)
      else none

/-- Column n of G as the right array streams it through the transposing port (R145). -/
def gColumn (f : Nat) (rows : List (List Byte)) (n : Nat) : List Byte :=
  let w := if f = 4 then 2 else 1
  rows.flatMap (fun r => bytesAt r (w * n) w)

/-- A side under way: its streamed vectors, its stationary operand's shift, its mode and rounding. -/
structure TwRun where
  sd : TwSide
  mode : Mode
  shB : Int
  stoch : Bool
  seed : Dword
  step : Nat
  k0 : Nat
  k : Nat

/-- The rounding of a side's element. -/
def twRnd (p : TwRun) (e : CmdEntry) (r c pos : Nat) : Rounding :=
  elementRounding p.stoch p.seed p.step e.cmdId (p.sd.row0 * 128 + r) (p.k0 * 128 + c) pos

/-- One streamed row of a side under its stationary tiles. -/
def twRow (p : TwRun) (e : CmdEntry) (l j u : Nat) (bs : List Vec) (st : State × MmAcc) (rv : Nat × Vec) : State × MmAcc :=
  let (s, acc) := st
  let r := rv.1
  if !partOpen s e.q e.idx l then (s, acc)
  else
    let accRow := p.sd.row + u * p.sd.rows + r
    let vals := bs.mapIdx (fun c b => elementSum p.mode rv.2 b p.sd.red
      (if p.sd.acc = 1 then some (accAt s l p.sd.right accRow c) else none) (twRnd p e r (128 * j + c)))
    let acc := { acc with ovf := acc.ovf || vals.any nonFinite32 }
    let s := if keeps p.sd.acc p.sd.drain then
        (vals.mapIdx (fun c v => (c, v))).foldl (fun s x => setAcc s l p.sd.right accRow x.1 x.2) s
      else s
    if p.sd.drain = 0 then (s, acc)
    else match drainRow l p.sd.out p.sd.drain (p.sd.c + r * (64 * p.sd.cPitch) + 128 * j * outSize p.sd.out) (e.q, e.idx)
        (fun i => twRnd p e r (128 * j + i) 0xFFFFFFFF) vals (s, acc) with
      | (s, acc, none) => (s, acc)
      | (s, acc, some d) => (endPart s e.q e.idx l stParity d, acc)

/-- One side of a k-tile. -/
def twTileSide (p : TwRun) (e : CmdEntry) (l j u : Nat) (streams : List Vec) (st : State × MmAcc) : State × MmAcc :=
  let (s, acc) := st
  if !partOpen s e.q e.idx l then (s, acc)
  else
    let cols := min 128 (p.k - 128 * j)
    let steps := ceilDiv p.sd.red p.mode.tile
    let s := wakeArray s l p.sd.right
    match readRows s l (p.sd.b + headerSize p.sd.bf) p.sd.bPitch (rowSize p.sd.bf p.sd.red) (e.q, e.idx)
        ((List.range cols).map (128 * j + ·)) with
    | (s, none) => (endPart s e.q e.idx l stParity 1, acc)
    | (s, some bb) =>
      let bs := bb.map (fun x => (⟨p.sd.bf, p.sd.red, p.shB, x⟩ : Vec))
      let s := countTile s l (128 * steps) (p.sd.rows * steps)
      (streams.mapIdx (fun i v => (i, v))).foldl (twRow p e l j u bs) (s, { acc with loads := acc.loads + 128 * steps })

/-- One k-tile on its lane (R145): G is fetched into the shelf once (R131), the left array streams its rows, the right its
columns through the transposing read port. -/
def twTile (o : TwOp) (shG : Int) (pl pr : TwRun) (e : CmdEntry) (st : State × MmAcc × MmAcc) (j : Nat) :
    State × MmAcc × MmAcc :=
  let (s, al, ar) := st
  let l := e.firstLane + j % e.laneCount
  let u := fun (sd : TwSide) => if keeps sd.acc sd.drain then j / e.laneCount else 0
  if !partOpen s e.q e.idx l then (s, al, ar)
  else match readRows s l (o.g + headerSize o.gf) o.gPitch (rowSize o.gf o.nb) (e.q, e.idx) (List.range o.mb) with
    | (s, none) => (endPart s e.q e.idx l stParity 1, al, ar)
    | (s, some rows) =>
      let rowVecs := rows.map (fun x => (⟨o.gf, o.nb, shG, x⟩ : Vec))
      let s := (rowVecs.mapIdx (fun i v => (i, v))).foldl (fun s x => fillRow s l pl.mode (Config.shelfBase j) x.1 x.2) s
      let colVecs := (List.range o.nb).map (fun n => (⟨o.gf, o.mb, shG, gColumn o.gf rows n⟩ : Vec))
      let (s, al) := twTileSide pl e l j (u o.left) rowVecs (s, al)
      let (s, ar) := twTileSide pr e l j (u o.rightSide) colVecs (s, ar)
      (s, al, ar)

/-- A side's destination ranges. -/
def twDest (o : TwOp) : List (Nat × Nat) :=
  o.sides.flatMap (fun sd => if sd.drain = 0 then []
    else (List.range sd.rows).map (fun r => (sd.c + r * (64 * sd.cPitch), o.k * outSize sd.out)))

/-- The lines a twin touches. -/
def twTouches (o : TwOp) (line : Nat) : Bool :=
  let inside := fun a n => decide (lineOf a ≤ line ∧ line < a + n)
  inside o.g (headerSize o.gf + (o.mb - 1) * (64 * o.gPitch) + rowSize o.gf o.nb)
    || o.sides.any (fun sd => inside sd.b (headerSize sd.bf + (o.k - 1) * (64 * sd.bPitch) + rowSize sd.bf sd.red)
      || (sd.drain == 2 && inside sd.c ((sd.rows - 1) * (64 * sd.cPitch) + 4 * o.k)))

/-- The arrays a twin uses: both of each of its lanes. -/
def twArrays (e : CmdEntry) (o : TwOp) : List (Nat × Bool) := (twLanes e o).flatMap (fun l => [(l, false), (l, true)])

/-- Run a twin and end it (R145). -/
def twRun (o : TwOp) (shG shW shX : Int) (e : CmdEntry) (sur : Surround) (s : State) : State :=
  let s := meetHits s sur.hits (twTouches o)
  let (s, n, rep) := productMeets e s sur
  let mk := fun (sd : TwSide) (sh : Int) => (⟨sd, (modeOf o.gf sd.bf).getD .int8, sh, roundsStochastic s sd.redLen, jobSeed s,
    o.step, o.k0, o.k⟩ : TwRun)
  let (s, al, ar) := (List.range (twTiles o)).foldl (twTile o shG (mk o.left shW) (mk o.rightSide shX) e) (s, {}, {})
  let s := noteProduct s e (List.range (twTiles o)) { ovf := al.ovf || ar.ovf, loads := al.loads + ar.loads } n rep
  let s := productSlot (productSlot s o.left.slot o.step al) o.rightSide.slot o.step ar
  let s := if voidedDest s e.q e.idx then scrambleAll s (twDest o) else s
  let ok := !partFailed s e.q e.idx
  let s := (twLanes e o).foldl (fun s l => o.sides.foldl (fun s sd =>
    setTag s l sd.right (if ok && keeps sd.acc sd.drain then some (twTag e o sd) else none)) s) s
  endAllParts s e.q e.idx stOK 0 (resultOf s e.q e.idx)

/-- The twin a command's operand block describes with the shifts of G, W and X, or the status it ends with. -/
def twSetup (s : State) (e : CmdEntry) (sur : Surround) : State × Except (Nat × Nat) (TwOp × Int × Int × Int) :=
  match readBlock s sur.hits e 128 128 with
  | (s, none) => (s, .error (stMalformed, 7))
  | (s, some b) =>
    let o := twOpOf b
    let header := fun (s : State) (f a : Nat) => match readHeader s sur.hits e.firstLane f a (e.q, e.idx) with
      | (s, none) => (s, (.error (stParity, 1) : Except (Nat × Nat) Int))
      | (s, some none) => (s, .error (stMalformed, 2))
      | (s, some (some sh)) => (s, .ok sh)
    match twCheck s e b o with
    | some r => (s, .error r)
    | none =>
      match header s o.gf o.g with
      | (s, .error r) => (s, .error r)
      | (s, .ok shG) =>
        match header s o.left.bf o.left.b with
        | (s, .error r) => (s, .error r)
        | (s, .ok shW) =>
          match header s o.rightSide.bf o.rightSide.b with
          | (s, .error r) => (s, .error r)
          | (s, .ok shX) => (s, .ok (o, shG, shW, shX))

/-- Run a MATMUL.TWIN that is first on its lanes. -/
def twBody (sur : Surround) (s : State) (e : CmdEntry) : State :=
  let e := { e with arrays := namedArrays e }
  match twSetup (putCmd s e) e sur with
  | (s, .error r) => endAllParts s e.q e.idx r.1 r.2 []
  | (s, .ok (o, shG, shW, shX)) =>
    let s := o.sides.foldl (fun s sd => if sd.slot = 0xFFFF then s else (useSlot s sd.slot o.step).getD s) s
    match findCmd s e.q e.idx with
    | none => s
    | some e =>
      let e := { e with arrays := twArrays e o }
      twRun o shG shW shX e sur (putCmd s e)

/-- MATMUL_TWIN (R145). -/
def execMatmulTwin (q idx : Nat) (sur : Surround) (s : State) : Host.Outcome State Fault Refusal :=
  onInstance (isQueue q) (onLanes s q idx (fun e => e.opcode == 0x0102) sur (twBody sur))

end Sys2Proof.Machine
end

