-- ==== Sys2Proof/Machine/Dispatch.lean ====
section
/-! DEFINITION. The dispatch: one arm for each command of the table, each a direct call of its meaning. -/

namespace Sys2Proof.Machine

def exec (i : Instr) (s : State) : Host.Outcome State Fault Refusal :=
  match i with
  | .powerOn straps bladeA bladeB sysRef netRef => Sys2Proof.Machine.execPowerOn straps bladeA bladeB sysRef netRef s
  | .supplyStop bladeB millivolts => Sys2Proof.Machine.execSupplyStop bladeB millivolts s
  | .modRstFall => Sys2Proof.Machine.execModRstFall s
  | .moduleReset straps => Sys2Proof.Machine.execModuleReset straps s
  | .perstAssert => Sys2Proof.Machine.execPerstAssert s
  | .functionLevelReset cause => Sys2Proof.Machine.execFunctionLevelReset cause s
  | .flrComplete => Sys2Proof.Machine.execFlrComplete s
  | .thermalShutdown die celsius => Sys2Proof.Machine.execThermalShutdown die celsius s
  | .thermalRestart compute io => Sys2Proof.Machine.execThermalRestart compute io s
  | .coolantRise inlet outlet => Sys2Proof.Machine.execCoolantRise inlet outlet s
  | .supplyLow bladeB steps => Sys2Proof.Machine.execSupplyLow bladeB steps s
  | .rootPllRetry locks => Sys2Proof.Machine.execRootPllRetry locks s
  | .clockUnlock loss => Sys2Proof.Machine.execClockUnlock loss s
  | .stewardImageVerified facts => Sys2Proof.Machine.execStewardImageVerified facts s
  | .cellarTrainingDone failed spares => Sys2Proof.Machine.execCellarTrainingDone failed spares s
  | .fabricReady ms => Sys2Proof.Machine.execFabricReady ms s
  | .pcieConfigRequest => Sys2Proof.Machine.execPcieConfigRequest s
  | .portKnockStart => Sys2Proof.Machine.execPortKnockStart s
  | .knockReceived port => Sys2Proof.Machine.execKnockReceived port s
  | .knockAnswerReady port => Sys2Proof.Machine.execKnockAnswerReady port s
  | .knockAnswerFalseStart port => Sys2Proof.Machine.execKnockAnswerFalseStart port s
  | .knockTimeout port => Sys2Proof.Machine.execKnockTimeout port s
  | .portBackoffExpiry port => Sys2Proof.Machine.execPortBackoffExpiry port s
  | .portTrainTimeout port => Sys2Proof.Machine.execPortTrainTimeout port s
  | .portTrained port => Sys2Proof.Machine.execPortTrained port s
  | .linkIdentity port dev farPort => Sys2Proof.Machine.execLinkIdentity port dev farPort s
  | .registerWrite bar off size v x => Sys2Proof.Machine.execRegisterWrite bar off size v x s
  | .bar0BadAccess off size write => Sys2Proof.Machine.execBar0BadAccess off size write s
  | .bar0UnmappedWrite off v => Sys2Proof.Machine.execBar0UnmappedWrite off v s
  | .blockEnable page unlock => Sys2Proof.Machine.execBlockEnable page unlock s
  | .blockDisable page unlock => Sys2Proof.Machine.execBlockDisable page unlock s
  | .blockDrained page => Sys2Proof.Machine.execBlockDrained page s
  | .blockSoftReset page unlock => Sys2Proof.Machine.execBlockSoftReset page unlock s
  | .expertUnlock page => Sys2Proof.Machine.execExpertUnlock page s
  | .expertLock page => Sys2Proof.Machine.execExpertLock page s
  | .eventClear page bits occ => Sys2Proof.Machine.execEventClear page bits occ s
  | .eventInject page bits => Sys2Proof.Machine.execEventInject page bits s
  | .eventRingEnable ring cfg => Sys2Proof.Machine.execEventRingEnable ring cfg s
  | .eventRingDisable ring cfg => Sys2Proof.Machine.execEventRingDisable ring cfg s
  | .evqHeadWrite ring v => Sys2Proof.Machine.execEvqHeadWrite ring v s
  | .evqHoldoffExpiry ring => Sys2Proof.Machine.execEvqHoldoffExpiry ring s
  | .partnerRegisterAccess port p x => Sys2Proof.Machine.execPartnerRegisterAccess port p x s
  | .bar2Read off size x => Sys2Proof.Machine.execBar2Read off size x s
  | .bar2Write off data x => Sys2Proof.Machine.execBar2Write off data x s
  | .doeDiscovery index => Sys2Proof.Machine.execDoeDiscovery index s
  | .doeAbort => Sys2Proof.Machine.execDoeAbort s
  | .managementRequest addr req => Sys2Proof.Machine.execManagementRequest addr req s
  | .doorbell q v => Sys2Proof.Machine.execDoorbell q v s
  | .commandFetch q fetched => Sys2Proof.Machine.execCommandFetch q fetched s
  | .commandTimeout q idx => Sys2Proof.Machine.execCommandTimeout q idx s
  | .commandRetire q idx tableFails counterFails => Sys2Proof.Machine.execCommandRetire q idx tableFails counterFails s
  | .matmul q idx sur => Sys2Proof.Machine.execMatmul q idx sur s
  | .matmulTwin q idx sur => Sys2Proof.Machine.execMatmulTwin q idx sur s
  | .fusedChunkReady q idx sur => Sys2Proof.Machine.execFusedChunkReady q idx sur s
  | .arrayWake lane right => Sys2Proof.Machine.execArrayWake lane right s
  | .arrayClockOff lane right => Sys2Proof.Machine.execArrayClockOff lane right s
  | .vecRun q idx sur => Sys2Proof.Machine.execVecRun q idx sur s
  | .vecNop lane sur => Sys2Proof.Machine.execVecNop lane sur s
  | .vecEnd lane sur => Sys2Proof.Machine.execVecEnd lane sur s
  | .vecBr lane sur => Sys2Proof.Machine.execVecBr lane sur s
  | .vecBz lane sur => Sys2Proof.Machine.execVecBz lane sur s
  | .vecBnz lane sur => Sys2Proof.Machine.execVecBnz lane sur s
  | .vecBlt lane sur => Sys2Proof.Machine.execVecBlt lane sur s
  | .vecLoop lane sur => Sys2Proof.Machine.execVecLoop lane sur s
  | .vecFence lane sur => Sys2Proof.Machine.execVecFence lane sur s
  | .vecSadd lane sur => Sys2Proof.Machine.execVecSadd lane sur s
  | .vecSsub lane sur => Sys2Proof.Machine.execVecSsub lane sur s
  | .vecSmul lane sur => Sys2Proof.Machine.execVecSmul lane sur s
  | .vecSand lane sur => Sys2Proof.Machine.execVecSand lane sur s
  | .vecSor lane sur => Sys2Proof.Machine.execVecSor lane sur s
  | .vecSxor lane sur => Sys2Proof.Machine.execVecSxor lane sur s
  | .vecSshl lane sur => Sys2Proof.Machine.execVecSshl lane sur s
  | .vecSshr lane sur => Sys2Proof.Machine.execVecSshr lane sur s
  | .vecSsra lane sur => Sys2Proof.Machine.execVecSsra lane sur s
  | .vecSli lane sur => Sys2Proof.Machine.execVecSli lane sur s
  | .vecSmin lane sur => Sys2Proof.Machine.execVecSmin lane sur s
  | .vecSmax lane sur => Sys2Proof.Machine.execVecSmax lane sur s
  | .vecSsys lane sur => Sys2Proof.Machine.execVecSsys lane sur s
  | .vecSget lane sur => Sys2Proof.Machine.execVecSget lane sur s
  | .vecVadd lane sur => Sys2Proof.Machine.execVecVadd lane sur s
  | .vecVsub lane sur => Sys2Proof.Machine.execVecVsub lane sur s
  | .vecVmul lane sur => Sys2Proof.Machine.execVecVmul lane sur s
  | .vecVfma lane sur => Sys2Proof.Machine.execVecVfma lane sur s
  | .vecVmax lane sur => Sys2Proof.Machine.execVecVmax lane sur s
  | .vecVmin lane sur => Sys2Proof.Machine.execVecVmin lane sur s
  | .vecVabs lane sur => Sys2Proof.Machine.execVecVabs lane sur s
  | .vecVneg lane sur => Sys2Proof.Machine.execVecVneg lane sur s
  | .vecVmuls lane sur => Sys2Proof.Machine.execVecVmuls lane sur s
  | .vecVadds lane sur => Sys2Proof.Machine.execVecVadds lane sur s
  | .vecVbcast lane sur => Sys2Proof.Machine.execVecVbcast lane sur s
  | .vecVsel lane sur => Sys2Proof.Machine.execVecVsel lane sur s
  | .vecVcmp lane sur => Sys2Proof.Machine.execVecVcmp lane sur s
  | .vecVsqrt lane sur => Sys2Proof.Machine.execVecVsqrt lane sur s
  | .vecVrcp lane sur => Sys2Proof.Machine.execVecVrcp lane sur s
  | .vecVrsqrt lane sur => Sys2Proof.Machine.execVecVrsqrt lane sur s
  | .vecVexp2 lane sur => Sys2Proof.Machine.execVecVexp2 lane sur s
  | .vecVlog2 lane sur => Sys2Proof.Machine.execVecVlog2 lane sur s
  | .vecVexp lane sur => Sys2Proof.Machine.execVecVexp lane sur s
  | .vecVtanh lane sur => Sys2Proof.Machine.execVecVtanh lane sur s
  | .vecVsig lane sur => Sys2Proof.Machine.execVecVsig lane sur s
  | .vecVsin lane sur => Sys2Proof.Machine.execVecVsin lane sur s
  | .vecVcos lane sur => Sys2Proof.Machine.execVecVcos lane sur s
  | .vecViadd lane sur => Sys2Proof.Machine.execVecViadd lane sur s
  | .vecViota lane sur => Sys2Proof.Machine.execVecViota lane sur s
  | .vecVcvtfi lane sur => Sys2Proof.Machine.execVecVcvtfi lane sur s
  | .vecVcvtif lane sur => Sys2Proof.Machine.execVecVcvtif lane sur s
  | .vecVrsum lane sur => Sys2Proof.Machine.execVecVrsum lane sur s
  | .vecVrmax lane sur => Sys2Proof.Machine.execVecVrmax lane sur s
  | .vecVrmin lane sur => Sys2Proof.Machine.execVecVrmin lane sur s
  | .vecVargmax lane sur => Sys2Proof.Machine.execVecVargmax lane sur s
  | .vecPand lane sur => Sys2Proof.Machine.execVecPand lane sur s
  | .vecPor lane sur => Sys2Proof.Machine.execVecPor lane sur s
  | .vecPxor lane sur => Sys2Proof.Machine.execVecPxor lane sur s
  | .vecPnot lane sur => Sys2Proof.Machine.execVecPnot lane sur s
  | .vecPset lane sur => Sys2Proof.Machine.execVecPset lane sur s
  | .vecPcnt lane sur => Sys2Proof.Machine.execVecPcnt lane sur s
  | .vecVld lane sur => Sys2Proof.Machine.execVecVld lane sur s
  | .vecVst lane sur => Sys2Proof.Machine.execVecVst lane sur s
  | .vecVgath lane sur => Sys2Proof.Machine.execVecVgath lane sur s
  | .vecVscat lane sur => Sys2Proof.Machine.execVecVscat lane sur s
  | .vecSld lane sur => Sys2Proof.Machine.execVecSld lane sur s
  | .vecSst lane sur => Sys2Proof.Machine.execVecSst lane sur s
  | .vecRld lane sur => Sys2Proof.Machine.execVecRld lane sur s
  | .vecRst lane sur => Sys2Proof.Machine.execVecRst lane sur s
  | .vecRatomAdd lane sur => Sys2Proof.Machine.execVecRatomAdd lane sur s
  | .vecRatomSwap lane sur => Sys2Proof.Machine.execVecRatomSwap lane sur s
  | .vecRatomCas lane sur => Sys2Proof.Machine.execVecRatomCas lane sur s
  | .vecRank lane sur => Sys2Proof.Machine.execVecRank lane sur s
  | .vecVunif lane sur => Sys2Proof.Machine.execVecVunif lane sur s
  | .vecVgumbel lane sur => Sys2Proof.Machine.execVecVgumbel lane sur s
  | .vecVtopk lane sur => Sys2Proof.Machine.execVecVtopk lane sur s
  | .vecVtopp lane sur => Sys2Proof.Machine.execVecVtopp lane sur s
  | .dmaCopy q idx sur => Sys2Proof.Machine.execDmaCopy q idx sur s
  | .scaleFind q idx sur => Sys2Proof.Machine.execScaleFind q idx sur s
  | .convert q idx sur => Sys2Proof.Machine.execConvert q idx sur s
  | .collReduceScatter q idx sur => Sys2Proof.Machine.execCollReduceScatter q idx sur s
  | .collAllGather q idx sur => Sys2Proof.Machine.execCollAllGather q idx sur s
  | .collAllReduce q idx sur => Sys2Proof.Machine.execCollAllReduce q idx sur s
  | .collBroadcast q idx sur => Sys2Proof.Machine.execCollBroadcast q idx sur s
  | .collAllToAll q idx sur => Sys2Proof.Machine.execCollAllToAll q idx sur s
  | .chunkContrib m x => Sys2Proof.Machine.execChunkContrib m x s
  | .chunkResult m x => Sys2Proof.Machine.execChunkResult m x s
  | .chunkAck m x => Sys2Proof.Machine.execChunkAck m x s
  | .chunkNak m x => Sys2Proof.Machine.execChunkNak m x s
  | .chunkConfirm m x => Sys2Proof.Machine.execChunkConfirm m x s
  | .chunkVoid m x => Sys2Proof.Machine.execChunkVoid m x s
  | .chunkLater m x => Sys2Proof.Machine.execChunkLater m x s
  | .chunkStale m x => Sys2Proof.Machine.execChunkStale m x s
  | .laterRetryExpiry q idx x => Sys2Proof.Machine.execLaterRetryExpiry q idx x s
  | .hurdleWaitExpiry q idx => Sys2Proof.Machine.execHurdleWaitExpiry q idx s
  | .updSweepAdamw q idx sur => Sys2Proof.Machine.execUpdSweepAdamw q idx sur s
  | .updSweepMomentum q idx sur => Sys2Proof.Machine.execUpdSweepMomentum q idx sur s
  | .updSweepOuter q idx sur => Sys2Proof.Machine.execUpdSweepOuter q idx sur s
  | .updSweepFetch q idx sur => Sys2Proof.Machine.execUpdSweepFetch q idx sur s
  | .updSweepAudit q idx sur => Sys2Proof.Machine.execUpdSweepAudit q idx sur s
  | .fetchRetryExpiry q idx sur => Sys2Proof.Machine.execFetchRetryExpiry q idx sur s
  | .backgroundAuditDone sur => Sys2Proof.Machine.execBackgroundAuditDone sur s
  | .exportCmd q idx sur => Sys2Proof.Machine.execExportCmd q idx sur s
  | .importCmd q idx sur => Sys2Proof.Machine.execImportCmd q idx sur s
  | .batonSendRelay q idx sur => Sys2Proof.Machine.execBatonSendRelay q idx sur s
  | .batonSendFlag q idx sur => Sys2Proof.Machine.execBatonSendFlag q idx sur s
  | .batonSendBaton q idx sur => Sys2Proof.Machine.execBatonSendBaton q idx sur s
  | .batonSendMerge q idx sur => Sys2Proof.Machine.execBatonSendMerge q idx sur s
  | .batonSendManifest q idx sur => Sys2Proof.Machine.execBatonSendManifest q idx sur s
  | .batonSendTransfer q idx sur => Sys2Proof.Machine.execBatonSendTransfer q idx sur s
  | .batonSendRebase q idx sur => Sys2Proof.Machine.execBatonSendRebase q idx sur s
  | .lapWait q idx sur => Sys2Proof.Machine.execLapWait q idx sur s
  | .lapSignalAdd q idx sur => Sys2Proof.Machine.execLapSignalAdd q idx sur s
  | .lapSignalStore q idx sur => Sys2Proof.Machine.execLapSignalStore q idx sur s
  | .fence q idx sur => Sys2Proof.Machine.execFence q idx sur s
  | .hurdle q idx sur => Sys2Proof.Machine.execHurdle q idx sur s
  | .hurdleTableLoad q idx sur => Sys2Proof.Machine.execHurdleTableLoad q idx sur s
  | .profileSwitch q idx sur => Sys2Proof.Machine.execProfileSwitch q idx sur s
  | .hostLapAdd v counterFails => Sys2Proof.Machine.execHostLapAdd v counterFails s
  | .watchRetryExpiry q idx w => Sys2Proof.Machine.execWatchRetryExpiry q idx w s
  | .laneReset lane => Sys2Proof.Machine.execLaneReset lane s
  | .laneResetDone lane => Sys2Proof.Machine.execLaneResetDone lane s
  | .portReset n => Sys2Proof.Machine.execPortReset n s
  | .jobDeclare v => Sys2Proof.Machine.execJobDeclare v s
  | .slotSelect v => Sys2Proof.Machine.execSlotSelect v s
  | .slotWindowCommit v => Sys2Proof.Machine.execSlotWindowCommit v s
  | .slotWindowCommitDone => Sys2Proof.Machine.execSlotWindowCommitDone s
  | .tableCommit slot gen => Sys2Proof.Machine.execTableCommit slot gen s
  | .tableRetire slot => Sys2Proof.Machine.execTableRetire slot s
  | .cellarRetrainTick pkg drifts => Sys2Proof.Machine.execCellarRetrainTick pkg drifts s
  | .cellarRetrainNow pkg drifts => Sys2Proof.Machine.execCellarRetrainNow pkg drifts s
  | .mr4Poll pkg rate above => Sys2Proof.Machine.execMr4Poll pkg rate above s
  | .patrolRead line hits last => Sys2Proof.Machine.execPatrolRead line hits last s
  | .cellarInitRegion channel ms => Sys2Proof.Machine.execCellarInitRegion channel ms s
  | .flitReceive n f corrected uncorrectable parity bufBad => Sys2Proof.Machine.execFlitReceive n f corrected uncorrectable parity bufBad s
  | .replayTimeout n bufBad => Sys2Proof.Machine.execReplayTimeout n bufBad s
  | .lossOfLight n => Sys2Proof.Machine.execLossOfLight n s
  | .laneLossOfLock n lane => Sys2Proof.Machine.execLaneLossOfLock n lane s
  | .correctedSymbolLimit n lane count => Sys2Proof.Machine.execCorrectedSymbolLimit n lane count s
  | .laneSwapHost n v => Sys2Proof.Machine.execLaneSwapHost n v s
  | .swapRequestReceived n lane answer => Sys2Proof.Machine.execSwapRequestReceived n lane answer s
  | .swapDrainDone n => Sys2Proof.Machine.execSwapDrainDone n s
  | .spareLaneTrained n us => Sys2Proof.Machine.execSpareLaneTrained n us s
  | .fabricRead port p x => Sys2Proof.Machine.execFabricRead port p x s
  | .fabricWrite port p x => Sys2Proof.Machine.execFabricWrite port p x s
  | .fabricMaskedWrite port p x => Sys2Proof.Machine.execFabricMaskedWrite port p x s
  | .fabricAtomicAdd port p x => Sys2Proof.Machine.execFabricAtomicAdd port p x s
  | .fabricAtomicSwap port p x => Sys2Proof.Machine.execFabricAtomicSwap port p x s
  | .fabricCompareAndSwap port p x => Sys2Proof.Machine.execFabricCompareAndSwap port p x s
  | .fabricWatch port p x => Sys2Proof.Machine.execFabricWatch port p x s
  | .insertRequest port p x => Sys2Proof.Machine.execInsertRequest port p x s
  | .insertForward port p x => Sys2Proof.Machine.execInsertForward port p x s
  | .insertDrainDone n => Sys2Proof.Machine.execInsertDrainDone n s
  | .fabricResponse port p bad => Sys2Proof.Machine.execFabricResponse port p bad s
  | .rerouteDrainExpiry dst => Sys2Proof.Machine.execRerouteDrainExpiry dst s
  | .packetForward port p => Sys2Proof.Machine.execPacketForward port p s
  | .txnTimeout tag => Sys2Proof.Machine.execTxnTimeout tag s
  | .ringInsertStart axisY => Sys2Proof.Machine.execRingInsertStart axisY s
  | .insertWaitExpiry axisY => Sys2Proof.Machine.execInsertWaitExpiry axisY s
  | .ringRelease axisY => Sys2Proof.Machine.execRingRelease axisY s
  | .releaseDrainDone axisY => Sys2Proof.Machine.execReleaseDrainDone axisY s
  | .drainMessage n => Sys2Proof.Machine.execDrainMessage n s
  | .stadiumTimeExchange n m stamp => Sys2Proof.Machine.execStadiumTimeExchange n m stamp s
  | .milantLinkUp port => Sys2Proof.Machine.execMilantLinkUp port s
  | .milantLinkDown port => Sys2Proof.Machine.execMilantLinkDown port s
  | .foreignFrame port => Sys2Proof.Machine.execForeignFrame port s
  | .relayParcel port f found x => Sys2Proof.Machine.execRelayParcel port f found x s
  | .flagParcel port f found x => Sys2Proof.Machine.execFlagParcel port f found x s
  | .batonParcel port f found x => Sys2Proof.Machine.execBatonParcel port f found x s
  | .manifestParcel port f found x => Sys2Proof.Machine.execManifestParcel port f found x s
  | .transferParcel port f found x => Sys2Proof.Machine.execTransferParcel port f found x s
  | .controlAcknowledge port f found x => Sys2Proof.Machine.execControlAcknowledge port f found x s
  | .controlResend port f found x => Sys2Proof.Machine.execControlResend port f found x s
  | .controlWithdraw port f found x => Sys2Proof.Machine.execControlWithdraw port f found x s
  | .repairFrame port r found x => Sys2Proof.Machine.execRepairFrame port r found x s
  | .ptpMessage port an pn icv domain m stamp => Sys2Proof.Machine.execPtpMessage port an pn icv domain m stamp s
  | .ptpSyncTimer port => Sys2Proof.Machine.execPtpSyncTimer port s
  | .timeSourceLost => Sys2Proof.Machine.execTimeSourceLost s
  | .ppsEdge => Sys2Proof.Machine.execPpsEdge s
  | .timSetArm v => Sys2Proof.Machine.execTimSetArm v s
  | .groupHoldExpiry port => Sys2Proof.Machine.execGroupHoldExpiry port s
  | .groupWaitExpiry port pnFirst => Sys2Proof.Machine.execGroupWaitExpiry port pnFirst s
  | .resendTimeout q idx sur => Sys2Proof.Machine.execResendTimeout q idx sur s
  | .relayTimeout q idx => Sys2Proof.Machine.execRelayTimeout q idx s
  | .keyInstall v unwraps => Sys2Proof.Machine.execKeyInstall v unwraps s
  | .keyErase v => Sys2Proof.Machine.execKeyErase v s
  | .keySchedArm v => Sys2Proof.Machine.execKeySchedArm v s
  | .keyChangeInstant port receive => Sys2Proof.Machine.execKeyChangeInstant port receive s
  | .oldTxAssocErase port => Sys2Proof.Machine.execOldTxAssocErase port s
  | .keyGraceExpiry port => Sys2Proof.Machine.execKeyGraceExpiry port s
  | .watchdogExpiry which => Sys2Proof.Machine.execWatchdogExpiry which s
  | .stewardRestarted readOk => Sys2Proof.Machine.execStewardRestarted readOk s
  | .updateManifest mailbox record hi hits => Sys2Proof.Machine.execUpdateManifest mailbox record hi hits s
  | .updatePiece mailbox record hi hits => Sys2Proof.Machine.execUpdatePiece mailbox record hi hits s
  | .updateStatus mailbox record hi hits => Sys2Proof.Machine.execUpdateStatus mailbox record hi hits s
  | .updateApplyDone flashFails => Sys2Proof.Machine.execUpdateApplyDone flashFails s
  | .fwuConfirm => Sys2Proof.Machine.execFwuConfirm s
  | .fwuRevert => Sys2Proof.Machine.execFwuRevert s
  | .fwuAbandon => Sys2Proof.Machine.execFwuAbandon s
  | .fwuApply => Sys2Proof.Machine.execFwuApply s
  | .attestReport nonce => Sys2Proof.Machine.execAttestReport nonce s
  | .attestEndorsement => Sys2Proof.Machine.execAttestEndorsement s
  | .setKek ciphertext => Sys2Proof.Machine.execSetKek ciphertext s
  | .debugChallenge => Sys2Proof.Machine.execDebugChallenge s
  | .debugUnlock key serial challenge scope sig => Sys2Proof.Machine.execDebugUnlock key serial challenge scope sig s
  | .profileWrite v hits => Sys2Proof.Machine.execProfileWrite v hits s
  | .profileWriteDone flashOk => Sys2Proof.Machine.execProfileWriteDone flashOk s
  | .capLoopTick mvA maA mvB maB => Sys2Proof.Machine.execCapLoopTick mvA maA mvB maB s
  | .voltageLoopTick die count => Sys2Proof.Machine.execVoltageLoopTick die count s
  | .thermalSample x => Sys2Proof.Machine.execThermalSample x s
  | .droopDetect lane mv => Sys2Proof.Machine.execDroopDetect lane mv s
  | .droopRelease lane x => Sys2Proof.Machine.execDroopRelease lane x s
  | .clockDomainRelock domain => Sys2Proof.Machine.execClockDomainRelock domain s
  | .pcieLinkUp gen width flitMode => Sys2Proof.Machine.execPcieLinkUp gen width flitMode s
  | .keeperLevelHoldExpiry axisY => Sys2Proof.Machine.execKeeperLevelHoldExpiry axisY s
  | .jtagAccess trstN tms x => Sys2Proof.Machine.execJtagAccess trstN tms x s

end Sys2Proof.Machine
end

