-- ==== Sys2Proof/Machine/Step.lean ====
section
/-! DEFINITION. One step of the block: it takes the command at the front of its queue and runs it. -/

namespace Sys2Proof.Machine

/-- With no command waiting a nanosecond of a running module's time passes: its clock counts (R70, R342) and its ports adapt
their taps (R384); otherwise nothing happens (DESIGN CHOICE, log entry 2). -/
def idle (s : State) : State := if s.life = .running then adaptTaps (tickClock s) else s

/-- One step: the command at the front of the queue, run with the queue's rest. -/
def step (s : State) : Host.Outcome State Fault Refusal :=
  match s.pending with
  | [] => .next (idle s)
  | c :: rest => exec c { s with pending := rest }

/-- The state with the command a table word spells at the front of its queue; the state itself where the word spells
none. -/
def State.withFetchWord (s : State) (nbits w : Nat) : State :=
  match decodeTableWord nbits w with
  | some c => { s with pending := c :: s.pending }
  | none => s

end Sys2Proof.Machine
end

