-- ==== Sys2Proof/WellFormed.lean ====
section
/-! DEFINITION. Well-formed commands: the instance a command names exists (the 64 queues, 96 lanes, 20 stadium ports, two
Milant ports and the other numbered blocks of 04_registers_host R72, the 40 clock domains of R57), and an access lies in
its BAR. -/

namespace Sys2Proof

open Sys2Proof.Machine in
/-- The instance a command names exists. -/
def Instr.wf : Instr → Bool
  | .powerOn _ _ _ _ _ => true
  | .supplyStop _ _ => true
  | .modRstFall => true
  | .moduleReset _ => true
  | .perstAssert => true
  | .functionLevelReset _ => true
  | .flrComplete => true
  | .thermalShutdown die _ => decide (die < 6)
  | .thermalRestart _ _ => true
  | .coolantRise _ _ => true
  | .supplyLow _ _ => true
  | .rootPllRetry _ => true
  | .clockUnlock loss => decide (loss.domain < 40)
  | .stewardImageVerified _ => true
  | .cellarTrainingDone failed _ => failed.all (fun f => decide (f.1 < 24))
  | .fabricReady _ => true
  | .pcieConfigRequest => true
  | .portKnockStart => true
  | .knockReceived port => decide (port < 20)
  | .knockAnswerReady port => decide (port < 20)
  | .knockAnswerFalseStart port => decide (port < 20)
  | .knockTimeout port => decide (port < 20)
  | .portBackoffExpiry port => decide (port < 20)
  | .portTrainTimeout port => decide (port < 20)
  | .portTrained port => decide (port < 20)
  | .linkIdentity port _ _ => decide (port < 20)
  | .registerWrite bar _ _ _ _ => bar == 0 || bar == 4
  | .bar0BadAccess _ _ _ => true
  | .bar0UnmappedWrite _ _ => true
  | .blockEnable page _ => (pageOf page).isSome
  | .blockDisable page _ => (pageOf page).isSome
  | .blockDrained page => (pageOf page).isSome
  | .blockSoftReset page _ => (pageOf page).isSome
  | .expertUnlock page => (pageOf page).isSome
  | .expertLock page => (pageOf page).isSome
  | .eventClear page _ _ => (pageOf page).isSome
  | .eventInject page _ => (pageOf page).isSome
  | .eventRingEnable ring _ => decide (ring < 16)
  | .eventRingDisable ring _ => decide (ring < 16)
  | .evqHeadWrite ring _ => decide (ring < 16)
  | .evqHoldoffExpiry ring => decide (ring < 16)
  | .partnerRegisterAccess port _ _ => decide (port < 20)
  | .bar2Read off size _ => decide (0 < size ∧ size ≤ 4096 ∧ off + size ≤ 2 ^ 36)
  | .bar2Write off data _ => decide (0 < data.length ∧ data.length ≤ 4096 ∧ off + data.length ≤ 2 ^ 36)
  | .doeDiscovery _ => true
  | .doeAbort => true
  | .managementRequest _ _ => true
  | .doorbell q _ => decide (q < 64)
  | .commandFetch q _ => decide (q < 64)
  | .commandTimeout q _ => decide (q < 64)
  | .commandRetire q _ _ _ => decide (q < 64)
  | .matmul q _ _ => decide (q < 64)
  | .matmulTwin q _ _ => decide (q < 64)
  | .fusedChunkReady q _ _ => decide (q < 64)
  | .arrayWake lane _ => decide (lane < 96)
  | .arrayClockOff lane _ => decide (lane < 96)
  | .vecRun q _ _ => decide (q < 64)
  | .vecNop lane _ => decide (lane < 96)
  | .vecEnd lane _ => decide (lane < 96)
  | .vecBr lane _ => decide (lane < 96)
  | .vecBz lane _ => decide (lane < 96)
  | .vecBnz lane _ => decide (lane < 96)
  | .vecBlt lane _ => decide (lane < 96)
  | .vecLoop lane _ => decide (lane < 96)
  | .vecFence lane _ => decide (lane < 96)
  | .vecSadd lane _ => decide (lane < 96)
  | .vecSsub lane _ => decide (lane < 96)
  | .vecSmul lane _ => decide (lane < 96)
  | .vecSand lane _ => decide (lane < 96)
  | .vecSor lane _ => decide (lane < 96)
  | .vecSxor lane _ => decide (lane < 96)
  | .vecSshl lane _ => decide (lane < 96)
  | .vecSshr lane _ => decide (lane < 96)
  | .vecSsra lane _ => decide (lane < 96)
  | .vecSli lane _ => decide (lane < 96)
  | .vecSmin lane _ => decide (lane < 96)
  | .vecSmax lane _ => decide (lane < 96)
  | .vecSsys lane _ => decide (lane < 96)
  | .vecSget lane _ => decide (lane < 96)
  | .vecVadd lane _ => decide (lane < 96)
  | .vecVsub lane _ => decide (lane < 96)
  | .vecVmul lane _ => decide (lane < 96)
  | .vecVfma lane _ => decide (lane < 96)
  | .vecVmax lane _ => decide (lane < 96)
  | .vecVmin lane _ => decide (lane < 96)
  | .vecVabs lane _ => decide (lane < 96)
  | .vecVneg lane _ => decide (lane < 96)
  | .vecVmuls lane _ => decide (lane < 96)
  | .vecVadds lane _ => decide (lane < 96)
  | .vecVbcast lane _ => decide (lane < 96)
  | .vecVsel lane _ => decide (lane < 96)
  | .vecVcmp lane _ => decide (lane < 96)
  | .vecVsqrt lane _ => decide (lane < 96)
  | .vecVrcp lane _ => decide (lane < 96)
  | .vecVrsqrt lane _ => decide (lane < 96)
  | .vecVexp2 lane _ => decide (lane < 96)
  | .vecVlog2 lane _ => decide (lane < 96)
  | .vecVexp lane _ => decide (lane < 96)
  | .vecVtanh lane _ => decide (lane < 96)
  | .vecVsig lane _ => decide (lane < 96)
  | .vecVsin lane _ => decide (lane < 96)
  | .vecVcos lane _ => decide (lane < 96)
  | .vecViadd lane _ => decide (lane < 96)
  | .vecViota lane _ => decide (lane < 96)
  | .vecVcvtfi lane _ => decide (lane < 96)
  | .vecVcvtif lane _ => decide (lane < 96)
  | .vecVrsum lane _ => decide (lane < 96)
  | .vecVrmax lane _ => decide (lane < 96)
  | .vecVrmin lane _ => decide (lane < 96)
  | .vecVargmax lane _ => decide (lane < 96)
  | .vecPand lane _ => decide (lane < 96)
  | .vecPor lane _ => decide (lane < 96)
  | .vecPxor lane _ => decide (lane < 96)
  | .vecPnot lane _ => decide (lane < 96)
  | .vecPset lane _ => decide (lane < 96)
  | .vecPcnt lane _ => decide (lane < 96)
  | .vecVld lane _ => decide (lane < 96)
  | .vecVst lane _ => decide (lane < 96)
  | .vecVgath lane _ => decide (lane < 96)
  | .vecVscat lane _ => decide (lane < 96)
  | .vecSld lane _ => decide (lane < 96)
  | .vecSst lane _ => decide (lane < 96)
  | .vecRld lane _ => decide (lane < 96)
  | .vecRst lane _ => decide (lane < 96)
  | .vecRatomAdd lane _ => decide (lane < 96)
  | .vecRatomSwap lane _ => decide (lane < 96)
  | .vecRatomCas lane _ => decide (lane < 96)
  | .vecRank lane _ => decide (lane < 96)
  | .vecVunif lane _ => decide (lane < 96)
  | .vecVgumbel lane _ => decide (lane < 96)
  | .vecVtopk lane _ => decide (lane < 96)
  | .vecVtopp lane _ => decide (lane < 96)
  | .dmaCopy q _ _ => decide (q < 64)
  | .scaleFind q _ _ => decide (q < 64)
  | .convert q _ _ => decide (q < 64)
  | .collReduceScatter q _ _ => decide (q < 64)
  | .collAllGather q _ _ => decide (q < 64)
  | .collAllReduce q _ _ => decide (q < 64)
  | .collBroadcast q _ _ => decide (q < 64)
  | .collAllToAll q _ _ => decide (q < 64)
  | .chunkContrib _ _ => true
  | .chunkResult _ _ => true
  | .chunkAck _ _ => true
  | .chunkNak _ _ => true
  | .chunkConfirm _ _ => true
  | .chunkVoid _ _ => true
  | .chunkLater _ _ => true
  | .chunkStale _ _ => true
  | .laterRetryExpiry q _ _ => decide (q < 64)
  | .hurdleWaitExpiry q _ => decide (q < 64)
  | .updSweepAdamw q _ _ => decide (q < 64)
  | .updSweepMomentum q _ _ => decide (q < 64)
  | .updSweepOuter q _ _ => decide (q < 64)
  | .updSweepFetch q _ _ => decide (q < 64)
  | .updSweepAudit q _ _ => decide (q < 64)
  | .fetchRetryExpiry q _ _ => decide (q < 64)
  | .backgroundAuditDone _ => true
  | .exportCmd q _ _ => decide (q < 64)
  | .importCmd q _ _ => decide (q < 64)
  | .batonSendRelay q _ _ => decide (q < 64)
  | .batonSendFlag q _ _ => decide (q < 64)
  | .batonSendBaton q _ _ => decide (q < 64)
  | .batonSendMerge q _ _ => decide (q < 64)
  | .batonSendManifest q _ _ => decide (q < 64)
  | .batonSendTransfer q _ _ => decide (q < 64)
  | .batonSendRebase q _ _ => decide (q < 64)
  | .lapWait q _ _ => decide (q < 64)
  | .lapSignalAdd q _ _ => decide (q < 64)
  | .lapSignalStore q _ _ => decide (q < 64)
  | .fence q _ _ => decide (q < 64)
  | .hurdle q _ _ => decide (q < 64)
  | .hurdleTableLoad q _ _ => decide (q < 64)
  | .profileSwitch q _ _ => decide (q < 64)
  | .hostLapAdd _ _ => true
  | .watchRetryExpiry q _ w => decide (q < 64 ∧ w < 2)
  | .laneReset lane => decide (lane < 96)
  | .laneResetDone lane => decide (lane < 96)
  | .portReset n => decide (n < 20)
  | .jobDeclare _ => true
  | .slotSelect _ => true
  | .slotWindowCommit _ => true
  | .slotWindowCommitDone => true
  | .tableCommit slot _ => decide (slot < 16)
  | .tableRetire slot => decide (slot < 16)
  | .cellarRetrainTick pkg _ => decide (pkg < 24)
  | .cellarRetrainNow pkg _ => decide (pkg < 24)
  | .mr4Poll pkg _ _ => decide (pkg < 24)
  | .patrolRead _ _ _ => true
  | .cellarInitRegion channel _ => decide (channel < 192)
  | .flitReceive n _ _ _ _ _ => decide (n < 20)
  | .replayTimeout n _ => decide (n < 20)
  | .lossOfLight n => decide (n < 20)
  | .laneLossOfLock n lane => decide (n < 20 ∧ lane < 8)
  | .correctedSymbolLimit n lane _ => decide (n < 20 ∧ lane < 8)
  | .laneSwapHost n _ => decide (n < 20)
  | .swapRequestReceived n lane _ => decide (n < 20 ∧ lane < 8)
  | .swapDrainDone n => decide (n < 20)
  | .spareLaneTrained n _ => decide (n < 20)
  | .fabricRead port _ _ => decide (port < 20)
  | .fabricWrite port _ _ => decide (port < 20)
  | .fabricMaskedWrite port _ _ => decide (port < 20)
  | .fabricAtomicAdd port _ _ => decide (port < 20)
  | .fabricAtomicSwap port _ _ => decide (port < 20)
  | .fabricCompareAndSwap port _ _ => decide (port < 20)
  | .fabricWatch port _ _ => decide (port < 20)
  | .insertRequest port _ _ => decide (port < 20)
  | .insertForward port _ _ => decide (port < 20)
  | .insertDrainDone n => decide (n < 20)
  | .fabricResponse port _ _ => decide (port < 20)
  | .rerouteDrainExpiry _ => true
  | .packetForward port _ => decide (port < 20)
  | .txnTimeout _ => true
  | .ringInsertStart _ => true
  | .insertWaitExpiry _ => true
  | .ringRelease _ => true
  | .releaseDrainDone _ => true
  | .drainMessage n => decide (n < 20)
  | .stadiumTimeExchange n _ _ => decide (n < 20)
  | .milantLinkUp port => decide (port < 2)
  | .milantLinkDown port => decide (port < 2)
  | .foreignFrame port => decide (port < 2)
  | .relayParcel port _ _ _ => decide (port < 3)
  | .flagParcel port _ _ _ => decide (port < 3)
  | .batonParcel port _ _ _ => decide (port < 3)
  | .manifestParcel port _ _ _ => decide (port < 3)
  | .transferParcel port _ _ _ => decide (port < 3)
  | .controlAcknowledge port _ _ _ => decide (port < 3)
  | .controlResend port _ _ _ => decide (port < 3)
  | .controlWithdraw port _ _ _ => decide (port < 3)
  | .repairFrame port _ _ _ => decide (port < 2)
  | .ptpMessage port _ _ _ _ _ _ => decide (port < 2)
  | .ptpSyncTimer port => decide (port < 2)
  | .timeSourceLost => true
  | .ppsEdge => true
  | .timSetArm _ => true
  | .groupHoldExpiry port => decide (port < 2)
  | .groupWaitExpiry port _ => decide (port < 2)
  | .resendTimeout q _ _ => decide (q < 64)
  | .relayTimeout q _ => decide (q < 64)
  | .keyInstall _ _ => true
  | .keyErase _ => true
  | .keySchedArm _ => true
  | .keyChangeInstant port _ => decide (port < 2)
  | .oldTxAssocErase port => decide (port < 2)
  | .keyGraceExpiry port => decide (port < 2)
  | .watchdogExpiry which => decide (which < 6)
  | .stewardRestarted _ => true
  | .updateManifest _ _ _ _ => true
  | .updatePiece _ _ _ _ => true
  | .updateStatus _ _ _ _ => true
  | .updateApplyDone _ => true
  | .fwuConfirm => true
  | .fwuRevert => true
  | .fwuAbandon => true
  | .fwuApply => true
  | .attestReport _ => true
  | .attestEndorsement => true
  | .setKek _ => true
  | .debugChallenge => true
  | .debugUnlock _ _ _ _ _ => true
  | .profileWrite _ _ => true
  | .profileWriteDone _ => true
  | .capLoopTick _ _ _ _ => true
  | .voltageLoopTick die _ => decide (die < 4)
  | .thermalSample _ => true
  | .droopDetect lane _ => decide (lane < 96)
  | .droopRelease lane _ => decide (lane < 96)
  | .clockDomainRelock domain => decide (domain < 40)
  | .pcieLinkUp _ _ _ => true
  | .keeperLevelHoldExpiry _ => true
  | .jtagAccess _ _ _ => true

end Sys2Proof
end

