-- ==== Sys2Proof/Safety.lean ====
section
/-! DEFINITION. The terms in which claims are stated: the canonical form of memory and registers, what a start leaves, what
a command leaves as it was, and the conditions under which the rows of each family act. -/

namespace Sys2Proof.Machine

/-! ### Canonical forms -/

/-- The canonical form of memory: addresses rise strictly and no listed byte equals what an unlisted one reads as. -/
def State.memWf (s : State) : Bool := tableWf (fun _ => (0 : Byte)) s.mem.cells

/-- The canonical form of the registers: offsets rise strictly and no listed word equals its reset word. -/
def State.regsWf (s : State) : Bool := tableWf resetWord s.regs

/-! ### Starts -/

/-- t is what a start from s leaves (R43, R44, R58): the cause it records, the straps it sampled, and REFCLK_SYS present
or not. -/
def StartedFrom (s t : State) (cause : Cause) (strap : Word) (sysRef : Bool) : Prop :=
  t.life = .running ∧ t.cause = cause ∧ t.pending = s.pending ∧ t.out = s.out ∧ t.flash = s.flash ∧
  { t.fuses with loadedLane := s.fuses.loadedLane, loadedSub := s.fuses.loadedSub } = s.fuses ∧
  t.host = {} ∧ t.cmds = {} ∧ t.laps = {} ∧ t.lanes = [] ∧ t.num = {} ∧ t.mem = {} ∧ t.cbz = [] ∧ t.fab = {} ∧
  t.coll = {} ∧ t.upd = {} ∧ t.mil = {} ∧ t.tim = {} ∧ t.stw = {} ∧ t.pac = {} ∧ t.hot = false ∧ t.pulsed = false ∧
  t.deviceTime = 0 ∧ t.pins.modRstN = true ∧ t.pins.faultN = false ∧ t.pins.thermWarn = false ∧
  (sysRef = false → reg t 0x140 = strap ∧ reg t 0x2100 = causeWord cause ∧ t.fuses = s.fuses)

/-! ### Commands -/

/-- The command e of ring index idx in queue q may be dispatched now (R64, R110-R112, R123), names no other member's
counter, and no table entry fails as it is looked up. -/
def Dispatches (s : State) (q idx : Nat) (e : CmdEntry) (sur : Surround) : Prop :=
  q < 64 ∧ s.life = .running ∧ findCmd s q idx = some e ∧ sur.routeFails = [] ∧ sur.roleFails = [] ∧ sur.table = false ∧
  e.stage = .issued ∧ anyRemoteRef e = false ∧ orderOk s e = true ∧ startedEnough s e = true ∧ waitsOk e = true ∧
  epochTest s e = .equal ∧ hurdleFree s e = true ∧ outranked s e = false ∧ dispatchEnd s e false = none ∧
  unitsOk s e = true

/-- The lane-class or data-class command e of queue q stands placed and first on every lane it still runs on (R109,
R111), so that its row runs it now. -/
def RunsNow (s : State) (q idx : Nat) (e : CmdEntry) (sur : Surround) : Prop :=
  q < 64 ∧ s.life = .running ∧ findCmd s q idx = some e ∧ sur.routeFails = [] ∧ sur.roleFails = [] ∧
  e.stage = .placed ∧ atFront s e = true

/-! ### Lanes and vector programs -/

/-- No line that a range touches is damaged at rest (R218, R227). -/
def Sound (s : State) (a n : Nat) : Prop := ∀ l ∈ linesOf a n, l ∉ s.mem.damaged

/-- The operand block of n bytes of a command is aligned, in memory and sound, so that it can be read (R138, R185). -/
def BlockAt (s : State) (e : CmdEntry) (n al : Nat) : Prop :=
  e.block % al = 0 ∧ inMemory e.block n = true ∧ Sound s e.block n

/-- The program of lane l runs and its next word is w: no register w names is owed, no fault is pending, and no word of
the lane's storage fails (R193, R205, R210). -/
def VecAt (s : State) (l : Nat) (ln : LaneSt) (w : Nat) (sur : Surround) : Prop :=
  l < 96 ∧ s.life = .running ∧ lane s l = ln ∧ ln.vecRun.isSome = true ∧ ln.vecFault = none ∧ ln.resetting = false ∧
  (∃ d, ln.prog[ln.pc]? = some d ∧ d.toNat = w) ∧ owed ln w = false ∧ sur.laneHits = []

/-- VecAt, with another word after w. -/
def VecNext (s : State) (l : Nat) (ln : LaneSt) (w : Nat) (sur : Surround) : Prop :=
  VecAt s l ln w sur ∧ ln.pc + 1 < ln.prog.length

/-- From s to t lane l has ln's registers, has retired one more instruction with its idle slots, and goes on at pc; no
other lane has changed. -/
def LaneStep (s t : State) (l slots pc : Nat) (ln : LaneSt) : Prop :=
  lane t l = { ln with
    pc := pc, count := ln.count + 1, retired := satAdd 32 ln.retired 1, slots := ln.slots + 1 + slots } ∧
  ∀ m, m ≠ l → lane t m = lane s m

/-- A row answers a next state in which nothing but lane l has changed, as LaneStep says. -/
def StepsTo (c : Instr) (s : State) (l slots pc : Nat) (ln : LaneSt) : Prop :=
  ∃ t, exec c s = .next t ∧ LaneStep s t l slots pc ln ∧ { t with lanes := s.lanes } = s

/-- A row answers a next state in which nothing has changed but lane l, as LaneStep says, the bytes that f gives a new
value, and, where a cellar region of theirs was not initialised, what its initialisation stores and reports (R226). -/
def StoresTo (c : Instr) (s : State) (l slots pc : Nat) (ln : LaneSt) (f : Nat → Option Byte) : Prop :=
  ∃ t, exec c s = .next t ∧ LaneStep s t l slots pc ln ∧
    { t with
      lanes := s.lanes, regs := s.regs, ev := s.ev, out := s.out,
      mem := { t.mem with cells := s.mem.cells, regions := s.mem.regions, allInit := s.mem.allInit } } = s ∧
    ((∀ x, (f x).isSome = true → initialised s (lineOf x) = true) →
      { t with
        lanes := s.lanes,
        mem := { t.mem with cells := s.mem.cells } } = s) ∧
    ∀ x, memByte t x = (f x).getD (memByte s x)

end Sys2Proof.Machine
end

