-- ==== Sys2Proof/Certificates/Slice0/Obligations.lean ====
section
/-! DEFINITION. The statements for the provers. -/

open Sys2Proof Sys2Proof.Machine

/-- A step runs the command at the front of the queue. For every command c and state s whose queue is c followed by
rest, step of s is exec of c on s with the queue's rest. On an empty queue a step lets one nanosecond of a running
module's clock pass, which moves the device time on by one and changes nothing else of it while no servo term slews
it, and the ports that are up adapt their receive taps unless these are frozen; every other state stays as it is
(the model's choice, log entries 1 and 2). (00_scope) -/
def Obligations.StepRunsFront : Prop :=
  (∀ (c : Instr) (rest : List Instr) (s : State), s.pending = c :: rest → step s = exec c { s with pending := rest }) ∧
  (∀ s : State, s.pending = [] → s.life = .running → step s = .next (adaptTaps (tickClock s))) ∧
  (∀ s : State, s.tim.freq = 0 → s.tim.phaseLeft = 0 → s.tim.slew = 0 →
    tickClock s = { s with deviceTime := s.deviceTime + 1 }) ∧
  (∀ (s : State) (n : Nat), tableWf (fun _ => (0 : Nat)) s.pac.taps = true → n < 22 →
    (adapts s n = true → tapsOf (adaptTaps s) n = tapsOf s n + 1) ∧
    (adapts s n = false → tapsOf (adaptTaps s) n = tapsOf s n) ∧ adaptTaps s = { s with pac := { s.pac with
      taps := (adaptTaps s).pac.taps } }) ∧
  (∀ s : State, s.pending = [] → s.life ≠ .running → step s = .next s)

/-- No command touches the queue: every step takes exactly its front. Whatever the state, when a step answers a next
state the commands that wait are those that waited, without the front one. The queue is the model's own (log entry
1). (00_scope) -/
def Obligations.QueueIsFirstInFirstOut : Prop :=
  ∀ s t : State, step s = .next t → t.pending = s.pending.tail

/-- A command on an instance the module has completes, and any other faults. Every well-formed command (one whose page,
lane, port, queue, ring, slot, die, package, channel, domain or BAR the module has) answers a next state in every
state, so ordinary data never ends a run; every other command faults with noSuchInstance in every state (the model's
reading, log entry 4). (01_levels, 04_registers_host) -/
def Obligations.WellFormedCompletes : Prop :=
  (∀ (c : Instr) (s : State), c.wf = true → ∃ t, exec c s = .next t) ∧
  (∀ (c : Instr) (s : State), c.wf = false → exec c s = .fault .noSuchInstance)

/-- Every step keeps memory in its canonical form. If the listed cells of attic, cellar and shelves' memory are in
canonical form (addresses strictly rising, no listed byte that an unlisted address would read as), they are so after
every step that answers a next state. (09_memory) -/
def Obligations.MemoryStaysCanonical : Prop :=
  ∀ s t : State, s.memWf = true → step s = .next t → t.memWf = true

/-- Every step keeps the register table in its canonical form. If the table of register words lists each offset once, in
rising order, and no word equal to its reset value, it does so after every step that answers a next state; a stored
word is then read back whatever it is. (04_registers_host) -/
def Obligations.RegistersStayCanonical : Prop :=
  ∀ s t : State, s.regsWf = true → step s = .next t → t.regsWf = true

/-- No step lowers the anti-rollback counter or restores a revoked key slot. Over every step of every state, the anti-
rollback counter of the fuses never falls, and every key slot whose revoke fuse is burned stays revoked: fuses only
burn. (15_steward_security) -/
def Obligations.RollbackNeverLoosens : Prop :=
  ∀ s t : State, step s = .next t →
    s.fuses.counter ≤ t.fuses.counter ∧ ∀ k, bitOf s.fuses.revoked k = true → bitOf t.fuses.revoked k = true

/-- The machine after reset. After reset no command waits, nothing has been sent, the module runs with no command,
transaction or collective, memory and registers are in canonical form with memory empty, RST_CAUSE reports power on,
no Steward or fabric is ready, and every register other than DEV_STRAP and RST_CAUSE holds its reset word. The
straps and the power-on cause are the model's choice (log entry 5). (03_first_second, 04_registers_host) -/
def Obligations.ResetState : Prop :=
  State.reset.pending = [] ∧ State.reset.out = [] ∧ State.reset.life = .running ∧ State.reset.cmds = {} ∧
  State.reset.fab = {} ∧ State.reset.coll = {} ∧ State.reset.mem = {} ∧ State.reset.memWf = true ∧
  State.reset.regsWf = true ∧ getF State.reset RST_CAUSE_power_on = 1 ∧ getF State.reset DEV_STRAP_id_valid = 1 ∧
  (∀ a, a ≠ 0x140 → a ≠ 0x2100 → reg State.reset a = resetWord a)

/-- A field written reads back cut to its width, and every other bit keeps its value. In a state whose register table is
canonical, a field of at most 32 bits inside its word that is written with v reads v modulo 2 to its width; every
bit of the word outside the field keeps its value, every other register keeps its word, and nothing but the register
table changes. (04_registers_host) -/
def Obligations.FieldWrite : Prop :=
  ∀ (s : State) (f : Fld) (v : Nat), s.regsWf = true → f.lo + f.w ≤ 32 →
    getF (setF s f v) f = v % 2 ^ f.w ∧
    (∀ i, i < 32 → (i < f.lo ∨ f.lo + f.w ≤ i) →
      bitOf (reg (setF s f v) f.addr).toNat i = bitOf (reg s f.addr).toNat i) ∧
    (∀ a, a ≠ f.addr → reg (setF s f v) a = reg s a) ∧
    setF s f v = { s with regs := (setF s f v).regs } ∧ (setF s f v).regsWf = true

/-- Power on, a module reset and a thermal restart return everything but flash, fuses, pins' levels and the queue to its
start. POWER_ON of an unpowered module with both blades above 39 V and MOD_RST_N high that is not hot, MODULE_RESET
of a module held in reset, and THERMAL_RESTART after a pulse with every junction below 90 degrees each answer a next
state that is started: it runs, records its cause, keeps flash and fuses (but for the loaded lane map), what was
sent and the queue, and holds every unit's hidden state as at reset; where REFCLK_SYS is absent DEV_STRAP holds the
straps sampled at power on or at the last rising edge of MOD_RST_N and RST_CAUSE the cause. POWER_ON with MOD_RST_N
low samples the straps and holds the module in reset with everything at its start; POWER_ON of a hot module samples
them and waits in thermal stop, where a rising edge of MOD_RST_N samples them anew and counts as the pulse.
(02_module, 03_first_second) -/
def Obligations.StartsBeginAfresh : Prop :=
  (∀ (s : State) (straps : BitVec 18) (a b : Nat) (sr nr : Bool), s.life = .off → 39000 < a → 39000 < b →
    let s1 := { s with pins := { s.pins with bladeA := a, bladeB := b, sysRef := sr, netRef := nr } }
    (s.hot = false → s.pins.modRstN = true →
      ∃ t, exec (.powerOn straps a b sr nr) s = .next t ∧ StartedFrom s t s.cause (strapWord straps) sr) ∧
    (s.hot = false → s.pins.modRstN = false → exec (.powerOn straps a b sr nr) s =
      .next { freshState s1 s.cause (strapWord straps) with life := .heldInReset }) ∧
    (s.hot = true → exec (.powerOn straps a b sr nr) s = .next { setReg s1 0x140 (strapWord straps) with
      life := .thermalStop, pulsed := true, pins := { s1.pins with faultN := true } })) ∧
  (∀ (s : State) (straps : BitVec 18), s.pins.modRstN = false →
    (s.life = .heldInReset →
      ∃ t, exec (.moduleReset straps) s = .next t ∧ StartedFrom s t .modRst (strapWord straps) s.pins.sysRef) ∧
    (s.life = .thermalStop → exec (.moduleReset straps) s = .next { setReg s 0x140 (strapWord straps) with
      pulsed := true, pins := { s.pins with modRstN := true } })) ∧
  (∀ (s : State) (compute io : List Int),
    s.life = .thermalStop → s.pulsed = true → s.pins.modRstN = true → (∀ x ∈ compute ++ io, x < 90) →
      ∃ t, exec (.thermalRestart compute io) s = .next t ∧
        StartedFrom s t .thermal (reg s 0x140) s.pins.sysRef)

/-- A supply stop, MOD_RST_N low and a thermal shutdown stop the module and release both keeper drives. SUPPLY_STOP of a
powered module below 37 V leaves it off with every unit empty, flash, fuses, the queue and what was sent kept, and
FAULT_N released. MOD_RST_FALL of a running module holds it in reset with both keeper drives released.
THERMAL_SHUTDOWN at 110 degrees or more of a running module, of a compute die or of an I/O die (4 and 5, whose page
is the model's choice, log entry 93), stops it with FAULT_N asserted and releases both drives, memory and lanes as
they were; where no drive was high it does nothing else but report the die's temperature in quarter kelvins.
(02_module, 03_first_second, 16_pacers) -/
def Obligations.StopsAndHolds : Prop :=
  (∀ (s : State) (bladeB : Bool) (mv : Nat), s.life ≠ .off → mv < 37000 →
    ∃ t, exec (.supplyStop bladeB mv) s = .next t ∧ t.life = .off ∧ t.flash = s.flash ∧ t.fuses = s.fuses ∧
      t.pending = s.pending ∧ t.out = s.out ∧ t.regs = [] ∧ t.cmds = {} ∧ t.lanes = [] ∧ t.mem = {} ∧ t.fab = {} ∧
      t.coll = {} ∧ t.mil = {} ∧ t.hot = s.hot ∧ t.cause = (if s.hot then .thermal else .supply) ∧
      faultDriven t = false) ∧
  (∀ s : State, s.life = .running →
    ∃ t, exec .modRstFall s = .next t ∧
      t = { s with regs := t.regs, pins := { s.pins with modRstN := false }, life := .heldInReset } ∧
      t.regs = (driveKeeper (driveKeeper s false false) true false).regs) ∧
  (∀ (s : State) (die : Nat) (celsius : Int), die < 6 → s.life = .running → 110 ≤ celsius →
    ∃ t, exec (.thermalShutdown die celsius) s = .next t ∧ t.life = .thermalStop ∧ t.hot = true ∧ t.pulsed = false ∧
      t.pins = { s.pins with faultN := true } ∧ t.mem = s.mem ∧ t.lanes = s.lanes ∧ t.flash = s.flash ∧
      t.fuses = s.fuses ∧ (s.regsWf = true → getF t FAB_KEEP_hold_x = 0 ∧ getF t FAB_KEEP_hold_y = 0) ∧
      ((isSet s FAB_KEEP_hold_x = false ∧ isSet s FAB_KEEP_hold_y = false) →
        t = { raiseEv s (pgPAC (min die 3)) ⟨0x1005, 5⟩ [die, unsigned 32 (4 * celsius)] with
          life := .thermalStop, hot := true, pulsed := false, pins := { s.pins with faultN := true } }))

/-- PERST_N, the link's training and configuration requests. PERST_ASSERT counts the assertion, reads HIF_LINK as 0 and
ends the link and any DOE object, and changes nothing else. PCIE_LINK_UP with PERST_N high and the root PLL locked
records speed, width, mode and the moment. PCIE_CONFIG_REQUEST over a trained link answers with the configuration
space once the Steward is ready outside a function-level reset, with boot_failed where both banks failed, and once 1
s has passed since the link came up; before that and during a function-level reset it answers with Request Retry
Status. Device ID, Revision ID, class code, the sizes of the BARs and the serial number read as R82 gives them.
(03_first_second, 04_registers_host) -/
def Obligations.PcieRows : Prop :=
  (∀ s : State, s.life = .running → s.pins.modRstN = true → s.pins.perstN = true →
    ∃ t, exec .perstAssert s = .next t ∧
      t = { s with
        regs := t.regs, pins := { s.pins with perstN := false },
        host := { s.host with linkUp := false, gen := 0, width := 0, flitMode := false, doe := none } } ∧
      t.regs = (setF (setF (setF (satF s RST_CAUSE_perst_count 1) HIF_LINK_gen 0) HIF_LINK_width 0)
        HIF_LINK_flit_mode 0).regs) ∧
  (∀ (s : State) (gen width : Nat) (fm : Bool), s.life = .running → s.pins.perstN = true →
    isSet s CLK_STATUS_root_lock = true → 1 ≤ gen → gen ≤ 7 → width ∈ [1, 2, 4, 8, 16] →
    ∃ t, exec (.pcieLinkUp gen width fm) s = .next t ∧
      t = { s with
        regs := t.regs, host := { s.host with
        linkUp := true, linkUpAt := elapsed s, gen := gen, width := width, flitMode := fm } } ∧
      t.regs = (setF (setF (setF s HIF_LINK_gen gen) HIF_LINK_width width) HIF_LINK_flit_mode (b2n fm)).regs) ∧
  (∀ s : State, s.life = .running → s.host.linkUp = true →
    let answer := fun (failed : Bool) => { s with out := s.out ++ [.pcie (.configOk failed (configSpace s))] }
    let retry := { s with out := s.out ++ [.pcie .retryStatus] }
    (isSet s DEV_START_boot_failed = true → exec .pcieConfigRequest s = .next (answer true)) ∧
    (isSet s DEV_START_boot_failed = false → isSet s DEV_START_steward_ready = true →
      exec .pcieConfigRequest s = .next (if s.host.flr then retry else answer false)) ∧
    (isSet s DEV_START_boot_failed = false → isSet s DEV_START_steward_ready = false →
      exec .pcieConfigRequest s =
        .next (if 1000000000 < elapsed s - s.host.linkUpAt then answer false else retry))) ∧
  (∀ s : State, (configSpace s).device = 0x0D07 ∧ (configSpace s).revision = 0xC0 ∧ (configSpace s).classCode = 0x120000 ∧
    (configSpace s).bars = [(0, 64 * 2 ^ 20), (2, 64 * 2 ^ 30), (4, 16 * 2 ^ 10)] ∧
    (s.fuses.serial < 2 ^ 64 → (configSpace s).serial = s.fuses.serial))

/-- A function-level reset abandons the commands and keeps the stadium running. FUNCTION_LEVEL_RESET, by PCIe FLR of a
ready module with its link up, from D3hot, or by the end of PERST_N once start-up is over, answers a next state in
which no command is in the table, no lane queues or runs a program or holds a program, no landing stands, the MSI-X
table and the event rings' hidden state are empty, a reset is in progress and flr_count has counted it; memory
outside what running commands were writing, fuses, flash, lap counters, ports, atomics' results, role table, batons,
keys, time and pacers are as they were. The end of PERST_N during start-up only raises the pin and leaves D3hot; a
PCIe FLR asked during a reset is discarded; the write of D3hot only takes the function there. FLR_COMPLETE ends the
reset and changes nothing else. (03_first_second) -/
def Obligations.FunctionLevelResetKeeps : Prop :=
  (∀ (s : State) (c : FlrCause), s.life = .running → s.pins.modRstN = true →
    ((c = .pcieFlr ∧ s.pins.perstN = true ∧ s.host.linkUp = true ∧ s.host.flr = false ∧
        isSet s DEV_START_steward_ready = true) ∨
      (c = .d3hotToD0 ∧ s.pins.perstN = true ∧ s.host.linkUp = true ∧ s.host.flr = false ∧ s.host.d3hot = true) ∨
      (c = .perstEnd ∧ s.pins.perstN = false ∧ startedUp s = true)) →
    ∃ t, exec (.functionLevelReset c) s = .next t ∧ t.cmds.table = [] ∧ t.cmds.hurdle = none ∧ t.host.flr = true ∧
      t.host.msix = [] ∧ t.host.msixPending = [] ∧ t.host.doe = none ∧ t.ev.rings = [] ∧ t.coll.landings = [] ∧
      t.coll.running = [] ∧ (∀ p ∈ t.lanes, p.2.queue = [] ∧ p.2.vecRun = none ∧ p.2.prog = []) ∧
      t.flash = s.flash ∧ t.fuses = s.fuses ∧ t.pins = { s.pins with perstN := true } ∧ t.laps.vals = s.laps.vals ∧
      t.laps.held = s.laps.held ∧
      t.fab.ports = s.fab.ports ∧ t.fab.results = s.fab.results ∧ t.fab.roles = s.fab.roles ∧ t.mil.ports = s.mil.ports ∧
      t.mil.slots = s.mil.slots ∧ t.tim = s.tim ∧ t.pac = s.pac ∧ t.stw = s.stw ∧ t.cbz = s.cbz ∧
      t.deviceTime = s.deviceTime ∧ t.out = s.out ∧
      (s.regsWf = true → getF t RST_CAUSE_flr_count = satAdd 8 (getF s RST_CAUSE_flr_count) 1) ∧
      (∀ a, (∀ e ∈ s.cmds.table, e.stage = .running → ∀ d ∈ e.dest, ¬(d.1 ≤ a ∧ a < d.1 + d.2)) →
        s.memWf = true → memByte t a = memByte s a)) ∧
  (∀ s : State, s.life = .running → s.pins.modRstN = true → s.pins.perstN = false → startedUp s = false →
    exec (.functionLevelReset .perstEnd) s = .next { s with
      pins := { s.pins with perstN := true }, host := { s.host with d3hot := false } }) ∧
  (∀ s : State, s.host.flr = true → exec (.functionLevelReset .pcieFlr) s = .next s) ∧
  (∀ s : State, s.life = .running → s.pins.modRstN = true → s.pins.perstN = true → s.host.linkUp = true → s.host.flr = false →
    (isSet s DEV_START_steward_ready = true ∨ isSet s DEV_START_boot_failed = true) →
    exec (.functionLevelReset .toD3hot) s = .next { s with host := { s.host with d3hot := true } }) ∧
  (∀ s : State, s.life = .running → s.pins.modRstN = true →
    exec .flrComplete s = .next { s with host := { s.host with flr := false } })

/-- Coolant, supplies and clock domains report what they sense. COOLANT_RISE above 22 K asserts THERM_WARN_N and raises
module.coolant.rise with both temperatures. SUPPLY_LOW below 41 V sets the blade's voltage and low flag and raises
module.supply.low; both settle SMB_ALERT_N, and the low flag asserts FAULT_N, which is the model's reading of a
blade supply fault (log entry 81). CLOCK_UNLOCK of a locked domain clears its bit, counts the loss, raises
clk.domain.unlock and, where its reference is missing, clears the reference's status; CLOCK_DOMAIN_RELOCK sets the
bit and the reference's status. ROOT_PLL_RETRY that locks performs step 1: factory words copied, the lane map
loaded, the root PLL and the domains whose reference is present locked (all in step 1 by the model's choice, log
entry 90), fuses_done set; one that does not lock changes nothing. (02_module, 03_first_second) -/
def Obligations.SuppliesAndClocks : Prop :=
  (∀ (s : State) (inlet outlet : Int), s.life = .running → 2200 < outlet - inlet →
    ∃ t, exec (.coolantRise inlet outlet) s = .next (settleAlert t) ∧ thermWarnN (settleAlert t) = true ∧
      t = raiseEv { s with
        pac := { s.pac with inlet := inlet, outlet := outlet }, pins := { s.pins with riseWarn := true } }
        pgDEV ⟨0x0403, 2⟩ [unsigned 32 inlet, unsigned 32 outlet]) ∧
  (∀ (s : State) (bladeB : Bool) (steps : Nat), s.life = .running → 20 * steps < 41000 →
    ∃ t, exec (.supplyLow bladeB steps) s = .next (settleAlert t) ∧
      t = raiseEv (setF (setF { s with pins :=
          if bladeB then { s.pins with bladeB := 20 * steps } else { s.pins with bladeA := 20 * steps } }
        (if bladeB then DEV_SUPPLY_blade_b else DEV_SUPPLY_blade_a) steps)
        (if bladeB then DEV_SUPPLY_low_b else DEV_SUPPLY_low_a) 1) pgDEV ⟨0x0404, 2⟩ [b2n bladeB, steps] ∧
      (s.regsWf = true → faultDriven (settleAlert t) = true)) ∧
  (∀ (s : State) (d : Nat) (refLost : Bool), d < 40 → s.life = .running → isLocked s d = true →
    exec (.clockUnlock ⟨d, refLost⟩) s = .next (raiseEv (satF (setLock (if refLost then loseRef s d else s) d false)
      CLK_STATUS_relock_count 1) pgCLK ⟨0x0801, 4⟩ [d])) ∧
  (∀ (s : State) (d : Nat), s.regsWf = true → d < 39 →
    getF (loseRef s d) (if fromNet d then CLK_STATUS_net_ref_ok else CLK_STATUS_sys_ref_ok) = 0) ∧
  (∀ (s : State) (d : Nat), d < 40 → s.life = .running → isSet s DEV_START_fuses_done = true → isLocked s d = false →
    ∃ t, exec (.clockDomainRelock d) s = .next t ∧
      t = { s with regs := t.regs, pins := { s.pins with
        netRef := s.pins.netRef || fromNet d, sysRef := s.pins.sysRef || (!fromNet d && decide (d ≠ 39)) } } ∧
      t.regs = (if d = 39 then setLock s d true
        else setF (setLock s d true) (if fromNet d then CLK_STATUS_net_ref_ok else CLK_STATUS_sys_ref_ok) 1).regs) ∧
  (∀ s : State, s.life = .running → isSet s DEV_START_fuses_done = false →
    exec (.rootPllRetry false) s = .next s ∧
    ∃ t, exec (.rootPllRetry true) s = .next t ∧
      t = { s with
        regs := t.regs, pins := { s.pins with sysRef := true },
        fuses := { s.fuses with loadedLane := s.fuses.physLane, loadedSub := s.fuses.subLanes } } ∧
      (s.regsWf = true → getF t DEV_START_fuses_done = 1 ∧ getF t CLK_STATUS_root_lock = 1 ∧
        getF t CLK_STATUS_sys_ref_ok = 1 ∧ (∀ d, d < 39 → (s.pins.netRef = true ∨ fromNet d = false) → isLocked t d = true) ∧
        ∀ e ∈ s.fuses.words, (s.fuses.words.filter (fun x => x.1 == e.1)).length = 1 → 0xC00 ≤ e.1 % 0x1000 →
          reg t e.1 = e.2))

/-- Ports knock, answer, back off and train. PORT_KNOCK_START lights and knocks on the first queued port while an engine
is free. A knock is answered ready where an engine is on the port and false start where none is; ready makes both
ends train. A false start or no answer backs the port off for the rule's wait and counts; the expiry queues it
again. A training timeout leaves the port dark, ends a port reset and reports it, and ends a ring insertion that
waits for no other link. PORT_TRAINED brings the link up with fresh link state, makes its page ready, reports the
end of a port reset and sends the device's identity. (03_first_second, 11_stadium_fabric) -/
def Obligations.PortTraining : Prop :=
  (∀ (s : State) (n : Nat) (rest : List Nat), s.fab.queue = n :: rest → s.life = .running → enginesBusy s < 4 →
    isSet s CLK_STATUS_net_ref_ok = true →
    exec .portKnockStart s = .next (emit (setF (setPort { s with fab := { s.fab with queue := rest } } n
      { port s n with train := .knocking, knocks := (port s n).knocks + 1 }) (PORT_STATE_state n) 1) (.orderedSet n 0))) ∧
  (∀ (s : State) (n : Nat), n < 20 → s.life = .running → bitOf s.pac.ports n = true →
    ((port s n).train = .knocking →
      exec (.knockReceived n) s = .next (emit (setPort s n { port s n with train := .training }) (.orderedSet n 1))) ∧
    ((port s n).train = .training → exec (.knockReceived n) s = .next (emit s (.orderedSet n 1))) ∧
    ((port s n).train ≠ .knocking → (port s n).train ≠ .training →
      exec (.knockReceived n) s = .next (emit s (.orderedSet n 2)))) ∧
  (∀ (s : State) (n : Nat), n < 20 → s.life = .running → (port s n).train = .knocking →
    exec (.knockAnswerReady n) s = .next (setPort s n { port s n with train := .training }) ∧
    exec (.knockAnswerFalseStart n) s = .next (satF (setPort s n { port s n with
      train := .backoff, backoffs := (port s n).backoffs + 1, waitUs := backoffUs s n (port s n).backoffs,
      falseStarts := (port s n).falseStarts + 1 }) FAB_TRAIN_false_starts 1) ∧
    exec (.knockTimeout n) s = .next (satF (setPort s n { port s n with
      train := .backoff, backoffs := (port s n).backoffs + 1, waitUs := backoffUs s n (port s n).backoffs,
      falseStarts := (port s n).falseStarts }) FAB_TRAIN_false_starts 1)) ∧
  (∀ (s : State) (n : Nat), n < 20 → s.life = .running → (port s n).train = .backoff →
    let s1 := setPort s n { port s n with train := .queued }
    exec (.portBackoffExpiry n) s = .next { s1 with fab := { s1.fab with queue := s.fab.queue ++ [n] } }) ∧
  (∀ (s : State) (n : Nat), n < 20 → s.life = .running → (port s n).knocks ≠ 0 →
    (port s n).train ∈ [.queued, .knocking, .training, .backoff] →
    let s1 := setPort { s with fab := { s.fab with queue := s.fab.queue.filter (· != n) } } n
      { port s n with train := .leftDark, resetBusy := false }
    let s2 := if (port s n).resetBusy then endPortReset s1 n else s1
    let s3 := raiseEv (setF s2 (PORT_STATE_state n) 0) (pgPORT n) ⟨0x5401, 3⟩ [n, (port s n).knocks, (port s n).falseStarts]
    exec (.portTrainTimeout n) s = .next (settlePorts (if 16 ≤ n then insertDone s3 (decide (18 ≤ n)) else s3))) ∧
  (∀ (s : State) (n : Nat), n < 20 → s.life = .running → (port s n).train = .training →
    let s1 := upBlock (freshTaps (setF (setF (setPort s n {
      train := .trained, knocks := (port s n).knocks,
      falseStarts := (port s n).falseStarts, backoffs := (port s n).backoffs }) (PORT_STATE_spare_used n) 0)
      (PORT_STATE_spare_for n) 0) n) (pgPORT n)
    let s2 := if (port s n).resetBusy then raiseEv (endPortReset s1 n) (pgPORT n) ⟨0x5402, 1⟩ [n] else s1
    exec (.portTrained n) s = .next (settlePorts (sendCtl s2 n (.identity (myId s2) n))))

/-- A trained port learns who is at its far end. The far end's first identity on a trained port is stored. On a heat
port the device and port the cabling asks for, and on a ring port the facing port of a member of the ring, bring the
port up, or into loopback where a ring port meets this module itself; it is marked valid, raises port.link.up, ends
an insertion whose links are then both up, and sends what waits. Any other leaves it miscabled with both identities
in the event. A second identity changes nothing. (11_stadium_fabric) -/
def Obligations.IdentityCheck : Prop :=
  (∀ (s : State) (n dev far : Nat), n < 20 → s.life = .running → (port s n).train = .trained →
    (port s n).identitySeen = false →
    let s1 := setF (setF (setPort s n { port s n with identitySeen := true, far := dev * 32 + far })
      (PORT_PEER_peer_id n) dev) (PORT_PEER_peer_port n) far
    let s2 := setF (setF s1 (PORT_PEER_peer_valid n) 1) (PORT_STATE_state n) (if 16 ≤ n ∧ dev = myId s then 2 else 3)
    let s3 := raiseEv (setF s2 (PORT_STATE_dateline n) (b2n (isDateline s2 n))) (pgPORT n) ⟨0x5406, 1⟩ [n, dev, far]
    (farOk s1 n dev far = true →
      exec (.linkIdentity n dev far) s = .next (pump (if 16 ≤ n then insertDone s3 (decide (18 ≤ n)) else s3) n)) ∧
    (farOk s1 n dev far = false →
      exec (.linkIdentity n dev far) s = .next (raiseEv (setF s1 (PORT_STATE_state n) 5) (pgPORT n) ⟨0x5407, 4⟩
        [n, (expectedFar s1 n).1, (expectedFar s1 n).2, dev, far]))) ∧
  (∀ (s : State) (n dev far : Nat), n < 20 → (port s n).identitySeen = true →
    exec (.linkIdentity n dev far) s = .next s)

/-- The boot ROM boots a bank that verifies, and leaves only the DEV page where none does. With fuses loaded, no boot
ended yet and the Steward not held: where neither bank passes its checks the record is written to the copy not in
force, FAULT_N is driven and boot_failed is set, and nothing else changes; where a bank passes and its images meet
their digests, the Steward becomes ready from that bank, the attic reads zero everywhere, and the device keeps
running with the commands that waited. (15_steward_security, 03_first_second, 09_memory, 06_lanes) -/
def Obligations.BootChain : Prop :=
  (∀ (s : State) (facts : BootFacts) (r : BootRec), s.life = .running → isSet s DEV_START_fuses_done = true →
    isSet s DEV_START_steward_ready = false → isSet s DEV_START_boot_failed = false → isSet s STW_STATE_held = false →
    chooseBank s.flash.boot s.flash.lapsed (fun b => bankOk s.fuses (getF s DEV_INFO_arith_rev) (bankBytes s.flash b)) =
      (r, none) →
    let c := BootRec.sealed { r with seq := (s.flash.boot.seq + 1) % 2 ^ 32 }
    ∃ t, exec (.stewardImageVerified facts) s = .next t ∧ t = setF { s with
      flash := if s.flash.useB then { s.flash with bootA := c } else { s.flash with bootB := c },
      pins := { s.pins with faultN := true } } DEV_START_boot_failed 1) ∧
  (∀ (s : State) (facts : BootFacts) (r : BootRec) (bank fell : Bool), s.regsWf = true → s.life = .running →
    isSet s DEV_START_fuses_done = true → isSet s DEV_START_steward_ready = false →
    isSet s DEV_START_boot_failed = false → isSet s STW_STATE_held = false → facts.reloadBad = false →
    chooseBank s.flash.boot s.flash.lapsed (fun b => bankOk s.fuses (getF s DEV_INFO_arith_rev) (bankBytes s.flash b)) =
      (r, some (bank, fell)) → imagesOk (bankBytes s.flash bank) = true →
    ∃ t, exec (.stewardImageVerified facts) s = .next t ∧ t.life = .running ∧ t.pending = s.pending ∧
      t.stw.booted = bank ∧ getF t DEV_START_steward_ready = 1 ∧ getF t DEV_START_boot_bank = b2n bank ∧
      ∀ a, regionOf a = .attic → memByte t a = 0)

/-- The cellar trains, is retrained, polled, patrolled and initialised. Training with no failed package and no repair
candidate makes the cellar ready, reading 0 everywhere and uninitialised; a failed package puts the CEL page in
fault 1. A retraining run counts the channels that drifted past the limit unless frozen; retrain_now outside the
expert area is denied and counted. MR4_POLL stores the rate and on entering the high range reports it and holds the
pace. A patrol read of an undamaged line only counts the pass it ends. CELLAR_INIT_REGION sets the channel's next
region. (09_memory, 03_first_second) -/
def Obligations.CellarRows : Prop :=
  (∀ (s : State) (spares : List (Nat × Nat × Nat)), s.regsWf = true → s.life = .running →
    isSet s DEV_START_steward_ready = true →
    isSet s DEV_START_cellar_ready = false → blkState s pgCEL ≠ 4 → s.flash.repairs = [] →
    ∃ t, exec (.cellarTrainingDone [] spares) s = .next t ∧
      t = { s with regs := t.regs, mem := t.mem } ∧ getF t DEV_START_cellar_ready = 1 ∧ getF t CEL_STATE_trained = 1 ∧
      blkState t pgCEL = 2 ∧ t.mem.regions = [] ∧ t.mem.allInit = false ∧ (∀ a, regionOf a = .cellar → memByte t a = 0) ∧
      (∀ a, regionOf a ≠ .cellar → memByte t a = memByte s a)) ∧
  (∀ (s : State) (f : Nat × Nat) (fs : List (Nat × Nat)) (spares : List (Nat × Nat × Nat)), s.regsWf = true →
    (f :: fs).all (fun f => decide (f.1 < 24)) = true → s.life = .running → isSet s DEV_START_steward_ready = true →
    isSet s DEV_START_cellar_ready = false → blkState s pgCEL ≠ 4 →
    ∃ t, exec (.cellarTrainingDone (f :: fs) spares) s = .next t ∧ blkState t pgCEL = 4 ∧ t.mem = s.mem ∧
      getF t DEV_START_cellar_ready = 0) ∧
  (∀ (s : State) (pkg : Nat) (drifts : List Int), pkg < 24 → s.life = .running → isSet s DEV_START_cellar_ready = true →
    isSet s (CEL_PKG_TRAIN_X_freeze pkg) = false →
    exec (.cellarRetrainTick pkg drifts) s = .next (satF s CEL_RETRAIN_corrections ((drifts.take 8).filter
      (fun d => decide (getF s (CEL_PKG_TRAIN_X_drift_limit pkg) < d.natAbs))).length)) ∧
  (∀ (s : State) (pkg : Nat) (drifts : List Int), pkg < 24 → regsOpen s (pgCelPkg pkg) = true →
    (isSet s DEV_START_cellar_ready = true → isSet s (CEL_PKG_TRAIN_X_freeze pkg) = false →
      expertOpen s (pgCelPkg pkg) = true →
      exec (.cellarRetrainNow pkg drifts) s = .next (satF s CEL_RETRAIN_corrections ((drifts.take 8).filter
        (fun d => decide (getF s (CEL_PKG_TRAIN_X_drift_limit pkg) < d.natAbs))).length)) ∧
    (expertOpen s (pgCelPkg pkg) = false → exec (.cellarRetrainNow pkg drifts) s =
      .next (satF s (BLK_CTRL_expert_denied (pgCelPkg pkg)) 1))) ∧
  (∀ (s : State) (pkg rate : Nat), pkg < 24 → s.life = .running → isSet s DEV_START_cellar_ready = true →
    s.pac.celHot.contains pkg = false →
    exec (.mr4Poll pkg rate true) s = .next (setPace (raiseEv { setF s (CEL_PKG_STATE_mr4_rate pkg) rate with
      pac := { s.pac with celHot := pkg :: s.pac.celHot } } pgCEL ⟨0x3C07, 2⟩ [pkg, rate]) PAC_STATE_cel_hold 1)) ∧
  (∀ (s : State) (line : Nat) (last : Bool), s.life = .running → isSet s DEV_START_cellar_ready = true →
    isSet s CEL_SCRUB_patrol_en = true → s.mem.damaged = [] →
    exec (.patrolRead line [] last) s = .next (if last then satF s CEL_SCRUB_passes 1 else s)) ∧
  (∀ (s : State) (ch ms : Nat), ch < 192 → s.life = .running → isSet s DEV_START_cellar_ready = true →
    s.mem.allInit = false → nextRegion s ch < 4063232 → 192 * 4063232 ≠
      (tset (fun _ => false) s.mem.regions (ch * 0x400000 + nextRegion s ch) true).length →
    ∃ t, exec (.cellarInitRegion ch ms) s = .next t ∧ t = { s with regs := t.regs, mem := t.mem } ∧
      t.mem.cells = s.mem.cells ∧
      t.mem.regions = tset (fun _ => false) s.mem.regions (ch * 0x400000 + nextRegion s ch) true ∧
      t.regs = (setF s CEL_STATE_init_gib (t.mem.regions.length / 524288)).regs)

/-- Fabric-ready when every enabled port has trained or been left dark. With the Steward ready, a port enabled and every
enabled port trained or left dark, FABRIC_READY loads the isolated heat where no image is in force, sets ports_done,
fabric_ready and the time, raises dev.start.fabric_ready and writes each axis's keeper permission as the profile
directs, which releases an axis it takes the permission from; until then, and where no port is enabled (for a wrong
strap the model's choice, log entry 89), it changes nothing. (03_first_second, 02_module) -/
def Obligations.FabricReady : Prop :=
  (∀ (s : State) (ms : Nat), s.life = .running → isSet s DEV_START_steward_ready = true →
    isSet s DEV_START_fabric_ready = false → s.pac.ports ≠ 0 → portsDone s = true →
    let s1 := setF s DEV_START_ports_done 1
    let s2 := if isSet s1 RTE_STATE_valid then s1 else loadIsolated s1
    let s3 := raiseEv (setF (setF s2 DEV_START_fabric_ready 1) DEV_START_ready_ms (min ms 65535)) pgDEV ⟨0x0401, 0⟩
      [min ms 65535]
    exec (.fabricReady ms) s = .next (directKeeper (directKeeper s3 false s3.pac.allowX) true s3.pac.allowY)) ∧
  (∀ (s : State) (axisY : Bool), directKeeper s axisY true = setF s (allowF axisY) 1 ∧
    (isSet s (allowF axisY) = true → directKeeper s axisY false = releaseAxis s axisY) ∧
    (isSet s (allowF axisY) = false → directKeeper s axisY false = s)) ∧
  (∀ (s : State) (ms : Nat), portsDone s = false ∨ s.pac.ports = 0 ∨ isSet s DEV_START_steward_ready = false →
    exec (.fabricReady ms) s = .next s)

/-- A ring member's insertion and release. With allow set, both ports of the axis up in loopback and no insertion in
progress, RING_INSERT_START records the start, shows state 1, and where no heat-mate's link is up asks nobody.
INSERT_WAIT_EXPIRY takes the neighbours that have not answered as absent and completes the handshake; the insertion
ends with both links up, in fabric.insert.timeout naming those neighbours, else in fabric.insert.done with its time.
The keeper drive rises where its level has stood and the wanted level is taken at the hold's expiry. RING_RELEASE of
a held axis sends drain over its links and drains both ports; of one not complete it drops it; RELEASE_DRAIN_DONE
with both replay buffers empty asks for the drive low. DRAIN_MESSAGE drains the facing ring port, and
INSERT_DRAIN_DONE answers every request that waited for it. (11_stadium_fabric, 02_module) -/
def Obligations.RingInsertion : Prop :=
  (∀ (s : State) (axisY : Bool), s.life = .running → isSet s (allowF axisY) = true →
    portState s (axisPort axisY) = 2 → portState s (axisPort axisY + 1) = 2 → getF s (insertF axisY) = 0 →
    let s1 := setF (setInsert s axisY { levelHeld := (insertSt s axisY).levelHeld, asked := true,
                                        startedAt := elapsed s }) (insertF axisY) 1
    forwardMate s1 = none → exec (.ringInsertStart axisY) s = .next s1) ∧
  (∀ (s : State) (axisY : Bool), s.life = .running → (insertSt s axisY).asked = true →
    (insertSt s axisY).handshake = false →
    exec (.insertWaitExpiry axisY) s = .next (completeHandshake (setInsert s axisY { insertSt s axisY with
      missed := b2n (!(insertSt s axisY).minusReady) + 2 * b2n (!(insertSt s axisY).plusReady) }) axisY)) ∧
  (∀ (s : State) (axisY : Bool), (insertSt s axisY).handshake = true → (insertSt s axisY).reported = false →
    portState s (axisPort axisY) = 3 → portState s (axisPort axisY + 1) = 3 →
    let i := insertSt s axisY
    let s1 := setInsert s axisY { i with reported := true, linkPlus := true, linkMinus := true }
    insertDone s axisY = if i.missed = 0
      then raiseEv s1 pgFAB ⟨0x5005, 1⟩ [b2n axisY, (elapsed s - i.startedAt) / 1000000]
      else raiseEv s1 pgFAB ⟨0x5006, 2⟩ [b2n axisY, i.missed]) ∧
  (∀ (s : State) (axisY : Bool), s.life = .running →
    let s1 := setInsert s axisY { insertSt s axisY with levelHeld := true }
    ((insertSt s axisY).wanted = none → exec (.keeperLevelHoldExpiry axisY) s = .next s1) ∧
    ((insertSt s axisY).wanted = some true → exec (.keeperLevelHoldExpiry axisY) s = .next
      (if isSet s (allowF axisY) then setF (setInsert (driveKeeper s1 axisY true) axisY
        { insertSt s axisY with levelHeld := false, wanted := none }) (insertF axisY) 2
       else setInsert s axisY { insertSt s axisY with levelHeld := true, wanted := none })) ∧
    ((insertSt s axisY).wanted = some false → exec (.keeperLevelHoldExpiry axisY) s = .next
      (raiseEv (setF (setInsert (driveKeeper s1 axisY false) axisY { levelHeld := false }) (insertF axisY) 0) pgFAB
        ⟨0x5007, 1⟩ [b2n axisY, 0]))) ∧
  (∀ (s : State) (axisY : Bool), regsOpen s pgFAB = true →
    let tell := fun (s : State) (n : Nat) => if (port s n).train = .trained then sendCtl s n .drain else s
    let s1 := setF s (allowF axisY) 0
    (getF s1 (insertF axisY) = 2 → exec (.ringRelease axisY) s = .next
      (drainPort (drainPort (tell (tell (setF s1 (insertF axisY) 3) (axisPort axisY)) (axisPort axisY + 1))
        (axisPort axisY) 2) (axisPort axisY + 1) 2)) ∧
    (getF s1 (insertF axisY) = 1 → exec (.ringRelease axisY) s = .next
      (setF (setInsert s1 axisY { levelHeld := (insertSt s axisY).levelHeld }) (insertF axisY) 0)) ∧
    (getF s1 (insertF axisY) = 0 → exec (.ringRelease axisY) s = .next s1)) ∧
  (∀ (s : State) (axisY : Bool), s.life = .running → getF s (insertF axisY) = 3 → portEmpty s (axisPort axisY) = true →
    portEmpty s (axisPort axisY + 1) = true → exec (.releaseDrainDone axisY) s = .next (wantKeeper s axisY false)) ∧
  (∀ (s : State) (n : Nat), 16 ≤ n → n < 20 → s.life = .running →
    exec (.drainMessage n) s = .next (drainPort s n 3)) ∧
  (∀ (s : State) (n : Nat), n < 20 → s.life = .running → portEmpty s n = true →
    exec (.insertDrainDone n) s = .next ((s.fab.draining.filter (fun d => d.1 == n)).foldl (fun s d => respond s d.2 0 [])
      { s with fab := { s.fab with draining := s.fab.draining.filter (fun d => d.1 != n) } }))

/-- A register write changes each bit as its access code says. Where a register is written plainly and its expert bits
are open or absent, every writable bit takes the written bit, every write-one-to-clear bit is cleared by a one, and
every other bit keeps its value; nothing but that register changes. A write into the expert area while it is closed
only counts expert_denied. (00_scope, 04_registers_host) -/
def Obligations.PlainWriteByAccess : Prop :=
  ∀ (s : State) (a : Nat) (v : Word) (r : RegSpec), s.regsWf = true → regAt a = some r →
    ((expertOpen s (a / 0x1000) = true ∨ (r.rwx = 0 ∧ ¬(0x600 ≤ a % 0x1000 ∧ a % 0x1000 < 0xC00))) →
      plainWrite s a v = { s with regs := (plainWrite s a v).regs } ∧
      (∀ b, b ≠ a → reg (plainWrite s a v) b = reg s b) ∧
      ∀ i, i < 32 → bitOf (reg (plainWrite s a v) a).toNat i =
        (if bitOf r.w1c i && bitOf v.toNat i then false
         else if bitOf r.rw i || bitOf r.rwu i || (expertOpen s (a / 0x1000) && bitOf r.rwx i) then bitOf v.toNat i
         else bitOf (reg s a).toNat i)) ∧
    (expertOpen s (a / 0x1000) = false → 0x600 ≤ a % 0x1000 → a % 0x1000 < 0xC00 →
      plainWrite s a v = satF s (BLK_CTRL_expert_denied (a / 0x1000)) 1)

/-- Host writes reach BAR0 registers in ascending order, BAR4's table, or are counted. An aligned 4-byte BAR0 write to a
page that answers writes its register, and an 8-byte write writes two registers in ascending order; over a trained
link before the Steward is ready every access receives Unsupported Request and changes nothing. An access of a
refused size or alignment is only counted and reported, and a write that reaches no page likewise, twice where it is
of 8 bytes. A BAR4 write stores a word of the MSI-X table, and a vector it unmasks is sent where it was pending.
(04_registers_host, 03_first_second) -/
def Obligations.RegisterAccess : Prop :=
  (∀ (s : State) (off : Nat) (v : Dword) (x : BusSur), off % 4 = 0 → isPage (off / 0x1000) = true →
    regsOpen s (off / 0x1000) = true → isSet s DEV_START_boot_failed = false →
    exec (.registerWrite 0 off 4 v x) s = .next (busWrite s off (BitVec.ofNat 32 v.toNat) x) ∧
    (off % 8 = 0 → exec (.registerWrite 0 off 8 v x) s = .next (busWrite (busWrite s off (BitVec.ofNat 32 v.toNat) x)
      (off + 4) (BitVec.ofNat 32 (v.toNat / 2 ^ 32)) x))) ∧
  (∀ (s : State) (bar off size : Nat) (v : Dword) (x : BusSur), bar = 0 ∨ bar = 4 → s.life = .running →
    s.host.linkUp = true → s.pins.perstN = true → isSet s DEV_START_steward_ready = false →
    isSet s DEV_START_boot_failed = false →
    exec (.registerWrite bar off size v x) s = .next { s with out := s.out ++ [.pcie .unsupportedRequest] } ∧
    exec (.bar0BadAccess off size true) s = .next { s with out := s.out ++ [.pcie .unsupportedRequest] } ∧
    exec (.bar0UnmappedWrite off (BitVec.ofNat 32 v.toNat)) s = .next { s with out := s.out ++ [.pcie .unsupportedRequest] }) ∧
  (∀ (s : State) (off : Nat) (v : Dword) (x : BusSur), off % 4 = 0 → off < 0x800 → regsOpen s pgHIF = true →
    isSet s DEV_START_boot_failed = false →
    exec (.registerWrite 4 off 4 v x) s = .next (storeMsix s (off / 4) (BitVec.ofNat 32 v.toNat))) ∧
  (∀ (s : State) (off size : Nat) (write : Bool), regsOpen s pgHIF = true → isSet s DEV_START_boot_failed = false →
    badAccess off size write = true →
    exec (.bar0BadAccess off size write) s =
      .next (raiseEv (satF s HIF_ACCESS_size_errors 1) pgHIF ⟨0x2403, 2⟩ [off, size])) ∧
  (∀ (s : State) (off : Nat) (v : Word), regsOpen s 0 = true → isSet s DEV_START_boot_failed = false →
    isPage (off / 0x1000) = false →
    exec (.bar0UnmappedWrite off v) s = .next (raiseEv (satF s HIF_ACCESS_unmapped 1) pgHIF ⟨0x2402, 2⟩ [off])) ∧
  (∀ (s : State) (off : Nat) (v : Dword) (x : BusSur), regsOpen s 0 = true → isSet s DEV_START_boot_failed = false →
    off % 8 = 0 → isPage (off / 0x1000) = false →
    exec (.registerWrite 0 off 8 v x) s = .next (bar0UnmappedWrite (bar0UnmappedWrite s off) (off + 4)))

/-- Pages are enabled, disabled, drained and reset through BLK_CTRL. On a page that answers, BLOCK_ENABLE sets the
unlock field's effect and enables the page: a unit that is off or drains becomes ready, a queue that is off starts
at four zero indices, and one that drains only counts the write. BLOCK_DISABLE of an enabled page makes a serving
block drain, and BLOCK_DRAINED turns a drained block off once its work has ended. BLOCK_SOFT_RESET of a page closes
its expert area, resets its block as its chapter states, leaves a fault, and reads 1 until it is done. EXPERT_UNLOCK
and EXPERT_LOCK open and close the expert area. (04_registers_host, 05_commands) -/
def Obligations.BlockControls : Prop :=
  (∀ (s : State) (page : Nat) (u : BitVec 16), isPage page = true → regsOpen s page = true →
    exec (.blockEnable page u) s = .next (enablePage (writeUnlock s page u) page)) ∧
  (∀ (s : State) (page : Nat), queueOf page = none → (blkState s page = 0 ∨ blkState s page = 3) → s.regsWf = true →
    enablePage s page = setBlk (setF s (BLK_CTRL_enable page) 1) page 2) ∧
  (∀ (s : State) (q : Nat), q < 64 → blkState s (pgCmdQ q) = 0 → isSet s (BLK_CTRL_enable (pgCmdQ q)) = false →
    enablePage s (pgCmdQ q) = setBlk (setF (setF (setF (setF (setF s (CMD_Q_TAIL_tail q) 0) (CMD_Q_HEAD_head q) 0)
      (CMD_CQ_HEAD_cq_head q) 0) (CMD_CQ_TAIL_cq_tail q) 0) (BLK_CTRL_enable (pgCmdQ q)) 1) (pgCmdQ q) 2) ∧
  (∀ (s : State) (q : Nat), q < 64 → blkState s (pgCmdQ q) = 3 →
    enablePage s (pgCmdQ q) = satF s (CMD_Q_STAT_cfg_denied q) 1) ∧
  (∀ (s : State) (page : Nat), isPage page = true → regsOpen s page = true → s.regsWf = true →
    isSet s (BLK_CTRL_enable page) = true → (blkState s page = 1 ∨ blkState s page = 2) →
    ∃ t, exec (.blockDisable page 0xFFFF) s = .next t ∧ t = setBlk (setF s (BLK_CTRL_enable page) 0) page 3) ∧
  (∀ (s : State) (page : Nat), isPage page = true → s.life = .running → blkState s page = 3 →
    pageBusy s page = false → exec (.blockDrained page) s = .next (setF (setBlk s page 0) (BLK_CTRL_soft_reset page) 0)) ∧
  (∀ (s : State) (page : Nat), isPage page = true → regsOpen s page = true → s.regsWf = true →
    isSet s (BLK_CTRL_enable page) = false →
    exec (.blockSoftReset page 0xFFFF) s = .next (softReset s page) ∧
    softReset s page = (let s1 := softEffect (setF s (BLK_CTRL_expert_open page) 0) page
      let s2 := if blkState s1 page = 4 then setBlk s1 page (if isSet s1 (BLK_CTRL_enable page) then 2 else 0) else s1
      setF s2 (BLK_CTRL_soft_reset page) (b2n (softPending s2 page)))) ∧
  (∀ (s : State) (page : Nat), isPage page = true → regsOpen s page = true →
    exec (.expertUnlock page) s = .next (setF s (BLK_CTRL_expert_open page) 1) ∧
    exec (.expertLock page) s = .next (setF s (BLK_CTRL_expert_open page) 0))

/-- An occurrence sets its bit, is counted, logged where severe, and recorded where enabled. Raising an event on a page
other than EVQ and DEV sets its BLK_EVENT bit, counts it saturating, and leaves everything but registers, the event
system and what was sent as it was. A disabled event writes no record. An enabled one takes the next sequence
number; with no ring enabled and room in the holding log its record is held; with an enabled ring that accepts it
and has two free slots the ring's tail moves on by one and its record's bytes 4 to 31 are sent before bytes 0 to 3,
which hold code, page, severity and phase. (04_registers_host) -/
def Obligations.EventRaised : Prop :=
  ∀ (s : State) (page : Nat) (e : Ev) (payload : List Nat), s.regsWf = true → isPage page = true → page ≠ pgEVQ →
    page ≠ pgDEV →
    let t := raiseEv s page e payload
    let en := bitOf (getF s (BLK_EVENT_EN_event_en page)) (e.code % 32)
    let rec' : EventRec := ⟨e.sev, page, e.code, getF s EVQ_SEQ_next_seq, timeNow s, payload⟩
    t = { s with
      regs := t.regs, ev := t.ev, out := t.out } ∧ t.regsWf = true ∧
    bitOf (getF t (BLK_EVENT_event page)) (e.code % 32) = true ∧
    getF t (BLK_EVENT_COUNT_count page) = min (getF s (BLK_EVENT_COUNT_count page) + 1) (2 ^ 32 - 1) ∧
    (3 ≤ e.sev → e.sev < 8 → e.code < 65536 → getF t (BLK_ERR_CODE_code page) = e.code ∧
      getF t (BLK_ERR_CODE_severity page) = e.sev ∧ getF t (BLK_ERR_CODE_valid page) = 1) ∧
    (en = false → t.ev = s.ev ∧ t.out = s.out ∧ getF t EVQ_SEQ_next_seq = getF s EVQ_SEQ_next_seq) ∧
    (en = true → (∀ n, n < 16 → ringOn s n = false) → s.ev.lost = 0 → s.ev.hold.length < 255 →
      t.out = s.out ∧ t.ev = { s.ev with hold := s.ev.hold ++ [rec'] } ∧
      getF t EVQ_SEQ_next_seq = (getF s EVQ_SEQ_next_seq + 1) % 2 ^ 32) ∧
    (en = true → ∀ n, chooseRing s e.sev page = some n → (ringSt s n).dropping = false →
      ringUsed s n + 1 < ringSize s n → isSet s (EVQ_CFG_irq_en n) = false →
      getF t (EVQ_TAIL_tail n) = (getF s (EVQ_TAIL_tail n) + 1) % 2 ^ 32 ∧
      ∃ addr phase, t.out = s.out ++ [.eventBody (addr + 4) (eventTail rec') rec', .eventPhase addr (eventHead rec' phase) rec'] ∧
        (e.sev < 7 → e.code < 2 ^ 16 → page < 2 ^ 12 →
          leNat (eventHead rec' phase) = e.code + 2 ^ 16 * page + 2 ^ 28 * e.sev + 2 ^ 31 * b2n phase) ∧
        addr = getF s (EVQ_BASE_HI_base_hi n) * 2 ^ 32 + getF s (EVQ_BASE_LO_base_lo n) * 2 ^ 12 +
          32 * (getF s (EVQ_TAIL_tail n) % ringSize s n) ∧
        phase = (getF s (EVQ_TAIL_tail n) / ringSize s n % 2 == 0))

/-- Event bits are cleared and injected, and rings enabled, disabled, read and signalled. EVENT_CLEAR clears the bits
written 1, and what occurs in the same cycle is raised after, in order. EVENT_INJECT raises an injected occurrence
on every bit written 1. Enabling a ring that is off stores its size, zeroes its indices and hidden state and then
writes the holding log into it, which is empty after; disabling it only stores the configuration. EVQ_HEAD_WRITE
stores the head, and slots it frees end an episode of drops with evq.ring.resumed. A holdoff's expiry signals what
an enabled ring has not yet signalled. An MSI-X message of an unmasked vector leaves with its table entry.
(04_registers_host) -/
def Obligations.EventRows : Prop :=
  (∀ (s : State) (page : Nat) (bits : Word) (occ : List (Nat × Nat × List Nat)), isPage page = true →
    regsOpen s page = true →
    exec (.eventClear page bits occ) s = .next (occ.foldl (fun s o => raiseEv s page ⟨o.1, o.2.1⟩ o.2.2)
      (setReg s (page * 0x1000 + 0x010) (reg s (page * 0x1000 + 0x010) &&& ~~~bits)))) ∧
  (∀ (s : State) (page : Nat) (bits : Word), isPage page = true → regsOpen s page = true →
    exec (.eventInject page bits) s =
      .next (((List.range 32).filter (fun b => bitOf bits.toNat b)).foldl (fun s b => injectBit s page b) s)) ∧
  (∀ (s : State) (n : Nat) (cfg : Word), n < 16 → regsOpen s pgEVQ = true → s.regsWf = true → ringOn s n = false →
    ∃ s1, exec (.eventRingEnable n cfg) s = .next (flushHold s1 n) ∧ s1 = { s with
        regs := s1.regs, ev := { s.ev with rings := tset (fun _ => {}) s.ev.rings n {} } } ∧ ringOn s1 n = true ∧
      getF s1 (EVQ_HEAD_head n) = 0 ∧ getF s1 (EVQ_TAIL_tail n) = 0 ∧
      getF s1 (EVQ_CFG_size_code n) =
        (if 9 ≤ bitsOf cfg.toNat 1 4 then getF s (EVQ_CFG_size_code n) else bitsOf cfg.toNat 1 4)) ∧
  (∀ (s : State) (n : Nat), (flushHold s n).ev.hold = [] ∧ (flushHold s n).ev.lost = 0) ∧
  (∀ (s : State) (n : Nat) (cfg : Word), n < 16 → regsOpen s pgEVQ = true → s.regsWf = true →
    ∃ t, exec (.eventRingDisable n cfg) s = .next t ∧ t = { s with regs := t.regs } ∧ ringOn t n = false ∧
      getF t (EVQ_TAIL_tail n) = getF s (EVQ_TAIL_tail n) ∧ getF t (EVQ_HEAD_head n) = getF s (EVQ_HEAD_head n)) ∧
  (∀ (s : State) (n : Nat) (v : Word), n < 16 → regsOpen s pgEVQ = true →
    let s1 := setF s (EVQ_HEAD_head n) v.toNat
    let s2 := setF s1 (EVQ_STAT_full n) (b2n (ringUsed s1 n == ringSize s1 n))
    let r := ringSt s2 n
    exec (.evqHeadWrite n v) s = .next (if ringOn s2 n && r.dropping && decide (ringUsed s2 n < ringSize s2 n) then
      ringMarker (setRingSt s2 n { r with dropping := false }) n ⟨0x2802, 2⟩ [n, r.dropFirst, r.dropLast, r.dropCount]
      else s2)) ∧
  (∀ (s : State) (n : Nat), n < 16 → s.life = .running →
    exec (.evqHoldoffExpiry n) s = .next (if ringOn s n = true ∧ isSet s (EVQ_CFG_irq_en n) = true ∧
        (ringSt s n).unsignalled ≠ 0 then
      sendMsix (setRingSt s n { ringSt s n with unsignalled := 0 }) (getF s (EVQ_CFG_vector n)) else s)) ∧
  (∀ (s : State) (v : Nat), bitOf (msixWord s (4 * v + 3)).toNat 0 = false →
    sendMsix s v = { s with out := s.out ++ [.msix v ((List.range 4).map (fun i => msixWord s (4 * v + i)))] })

/-- BAR2 reads and writes local memory and lap counters. Through a local window, a read of undamaged memory that answers
completes with its bytes and changes nothing else; a write stores its bytes, leaves every other byte of memory
alone, and, where it initialises no cellar region, changes nothing outside memory, else at most what that reports.
Before the Steward is ready a read is an Unsupported Request and a write is dropped; a cellar access before the
cellar is ready is aborted and reported. An aligned 8-byte read of a lap counter that is not held returns it.
(04_registers_host, 03_first_second, 05_commands, 09_memory) -/
def Obligations.Bar2Window : Prop :=
  (∀ (s : State) (off n : Nat), 0 < n → n ≤ 4096 → off + n ≤ 2 ^ 36 → s.host.linkUp = true → hostServes s = true →
    isSet s HIF_WIN_DEV_global = false → inMemory (bar2Addr s off) n = true → early s (bar2Addr s off) n = false →
    s.mem.damaged = [] →
    exec (.bar2Read off n {}) s = .next { s with out := s.out ++ [.pcie (.data (peek s (bar2Addr s off) n))] }) ∧
  (∀ (s : State) (off : Nat) (data : List Byte), s.memWf = true → data ≠ [] → data.length ≤ 4096 →
    off + data.length ≤ 2 ^ 36 → s.host.linkUp = true → hostServes s = true → isSet s HIF_WIN_DEV_global = false →
    inMemory (bar2Addr s off) data.length = true → early s (bar2Addr s off) data.length = false → s.mem.damaged = [] →
    ∃ t, exec (.bar2Write off data {}) s = .next t ∧
      t = { s with
        mem := t.mem, regs := t.regs, ev := t.ev, out := t.out } ∧
      ((∀ l ∈ linesOf (bar2Addr s off) data.length, initialised s l = true) → t = { s with mem := t.mem }) ∧ t.memWf = true ∧
      peek t (bar2Addr s off) data.length = data ∧
      ∀ x, (x < bar2Addr s off ∨ bar2Addr s off + data.length ≤ x) → memByte t x = memByte s x) ∧
  (∀ (s : State) (off n : Nat) (x : BusSur), 0 < n → n ≤ 4096 → off + n ≤ 2 ^ 36 → s.host.linkUp = true →
    isSet s DEV_START_steward_ready = false →
    exec (.bar2Read off n x) s = .next { s with out := s.out ++ [.pcie .unsupportedRequest] }) ∧
  (∀ (s : State) (off n : Nat), 0 < n → n ≤ 4096 → off + n ≤ 2 ^ 36 → s.host.linkUp = true → hostServes s = true →
    isSet s HIF_WIN_DEV_global = false → early s (bar2Addr s off) n = true →
    exec (.bar2Read off n {}) s = .next (emit (raiseEv s pgHIF ⟨0x2401, 2⟩ [off]) (.pcie .completerAbort))) ∧
  (∀ (s : State) (off k : Nat), off + 8 ≤ 2 ^ 36 → s.host.linkUp = true → hostServes s = true →
    isSet s HIF_WIN_DEV_global = false → k < 4096 → bar2Addr s off = lapAddr k → lapHeld s k = false →
    exec (.bar2Read off 8 {}) s = .next (emit s (.pcie (.data (natLe 8 (lapVal s k))))))

/-- The DOE mailbox and the management service answer. A serving Steward answers discovery of entries 0 to 2 and refuses
others with an error; DOE_ABORT discards the object in transfer. A management read at the module's address answers
with the sensor's value, a read at another address is not acknowledged, and a threshold is stored with SMB_ALERT_N
settled. (04_registers_host, 02_module, 15_steward_security) -/
def Obligations.MailboxAndManagement : Prop :=
  (∀ (s : State) (i : Nat), stewardUp s = true →
    exec (.doeDiscovery i) s = .next { s with out := s.out ++ [if i < 3 then
      .doe 0 (natLe 2 (if i = 0 then 1 else Config.vendorId) ++ natLe 1 i ++ natLe 1 ((i + 1) % 3)) else .doeError 0] }) ∧
  (∀ s : State, s.life = .running → isSet s DEV_START_steward_ready = true →
    exec .doeAbort s = .next { s with
      host := { s.host with doe := none }, out := s.out ++ [.doeAborted] }) ∧
  (∀ (s : State) (n : Nat) (v : Int), stewardUp s = true → sensor s n = some v →
    exec (.managementRequest (smbusAddr s) (.read n)) s = .next { s with out := s.out ++ [.smbus (smbusAddr s) n v] } ∧
    exec (.managementRequest (smbusAddr s) (.threshold n none)) s =
      .next (settleAlert { s with host := { s.host with thresholds := tdel n s.host.thresholds } })) ∧
  (∀ (s : State) (addr : Nat) (req : MgmtReq), addr ≠ smbusAddr s → exec (.managementRequest addr req) s = .next s)

/-- The JTAG port follows the IEEE 1149.1 controller. TRST_N low puts the port into its reset state, whatever else runs.
A cycle of TCK on a powered module first captures or shifts by the state it is in and moves on by TMS, then shows
TDO and updates; nothing but the port's state, the free-value counter and what was sent changes. The boundary
register captures the levels of the 31 low-speed positions, and the IEEE 1687 network is reached only once debug is
unlocked. Five cycles with TMS high reach Test-Logic-Reset from every state. Instruction codes are the model's own
(log entry 27). (02_module) -/
def Obligations.BoundaryScan : Prop :=
  (∀ (s : State) (tms : Bool) (x : BoardPins), s.life ≠ .off →
    exec (.jtagAccess false tms x) s = .next { s with stw := { s.stw with jtag := {} } }) ∧
  (∀ (s : State) (tms : Bool) (x : BoardPins), s.life ≠ .off →
    ∃ t, exec (.jtagAccess true tms x) s = .next t ∧ t.stw.jtag.tap = tapNext s.stw.jtag.tap tms ∧
      t = { s with
        stw := { s.stw with jtag := t.stw.jtag }, freeCtr := t.freeCtr, out := t.out } ∧
      (isSet s SEC_STATE_debug = false → t.freeCtr = s.freeCtr ∧ t.stw.jtag.instruments = s.stw.jtag.instruments) ∧
      (s.stw.jtag.tap = .captureDr → scansBoundary s.stw.jtag.ins = true → t.stw.jtag.dr = pinLevels s tms x.tdi x) ∧
      (s.stw.jtag.tap = .shiftDr → tms = false → t.stw.jtag.dr = s.stw.jtag.dr.drop 1 ++ [x.tdi] ∧
        t.out = s.out ++ [.tdo ((s.stw.jtag.dr.drop 1 ++ [x.tdi]).headD false)])) ∧
  (∀ (s : State) (tms tdi : Bool) (x : BoardPins), (pinLevels s tms tdi x).length = 31) ∧
  (∀ (j : Tap), tapNext (tapNext (tapNext (tapNext (tapNext j true) true) true) true) true = .testLogicReset)

/-- A doorbell moves the tail, and a fetch issues the ring's next command. A doorbell within the ring stores the tail;
one that overtakes the ring is counted and reported and the tail stays. When a queue may fetch, COMMAND_FETCH from
host memory appends the 64 bytes as an issued command, moves the head on by one, keeps the peak and latches waits,
and ends a malformed command with MALFORMED, detail 0; a fetch that fails puts the queue's page in fault 1 and
reports it; a queue that may not fetch is left as it is. (05_commands) -/
def Obligations.FetchAndDoorbell : Prop :=
  (∀ (s : State) (q : Nat) (v : Word), q < 64 → regsOpen s (pgCmdQ q) = true →
    let bad := decide (queueSize s q < (v.toNat + 2 ^ 32 - getF s (CMD_Q_HEAD_head q)) % 2 ^ 32 ∨
      queueSize s q < (v.toNat + 2 ^ 32 - getF s (CMD_Q_TAIL_tail q)) % 2 ^ 32)
    (bad = false → exec (.doorbell q v) s = .next (setF s (CMD_Q_TAIL_tail q) v.toNat)) ∧
    (bad = true → exec (.doorbell q v) s = .next (raiseEv (satF s (CMD_Q_STAT_bad_doorbells q) 1) (pgCmdQ q) ⟨0x2C02, 2⟩
      [q, v.toNat, getF s (CMD_Q_HEAD_head q)]))) ∧
  (∀ (s : State) (q : Nat) (bytes : List Byte), q < 64 → mayFetch s q = true → isSet s (CMD_Q_CFG_loc q) = false →
    let i := getF s (CMD_Q_HEAD_head q)
    let e : CmdEntry := { q := q, idx := i, bytes := bytesAt bytes 0 64 }
    let s1 := setF { s with cmds := { s.cmds with table := s.cmds.table ++ [e] } } (CMD_Q_HEAD_head q) ((i + 1) % 2 ^ 32)
    let s2 := latchAll (setF s1 CMD_INFLIGHT_peak (max (getF s1 CMD_INFLIGHT_peak) (s.cmds.table.length + 1)))
    exec (.commandFetch q (some bytes)) s = .next (if cmdOk e then s2 else endCmd s2 q i 0x01 0 [])) ∧
  (∀ (s : State) (q : Nat), q < 64 → mayFetch s q = true →
    exec (.commandFetch q none) s = .next (raiseEv (setF (setBlk s (pgCmdQ q) 4) (BLK_STATE_fault_code (pgCmdQ q)) 1)
      (pgCmdQ q) ⟨0x2C03, 4⟩ [q, getF s (CMD_Q_HEAD_head q),
        ringSlot s q (getF s (CMD_Q_HEAD_head q))])) ∧
  (∀ (s : State) (q : Nat) (f : Option (List Byte)), q < 64 → mayFetch s q = false → exec (.commandFetch q f) s = .next s)

/-- Commands retire with a record and a signal, and time out. A command whose writes are acknowledged and that ended
with OK and signals nothing retires by writing its completion record, bytes 4 to 31 before bytes 0 to 3 with the
phase, moving cq_tail on by one, and leaving the table; a quiet one writes none. One that adds to a local counter
adds after the record. One that failed raises cmd.command.failed first. While a write is not acknowledged it waits.
A command that times out before it is placed ends with TIMEOUT and its remote watches are dropped. (05_commands) -/
def Obligations.Retirement : Prop :=
  (∀ (s : State) (q idx : Nat) (e : CmdEntry), q < 64 → s.life = .running → findCmd s q idx = some e → e.stage = .ended →
    unacknowledged s q idx = false → s.cmds.hurdle ≠ some (q, idx) →
    e.status = 0 → refValid e.sigRef = false → e.irq = false → e.opcode ≠ 0x0401 →
    (e.quiet = true → exec (.commandRetire q idx false false) s = .next (dropCmd s q idx)) ∧
    (e.quiet = false → ∃ t, exec (.commandRetire q idx false false) s = .next t ∧
      t = { s with
        regs := t.regs, out := t.out,
        cmds := { s.cmds with table := s.cmds.table.filter (fun x => !(x.q == q && x.idx == idx)) } } ∧
      t.regs = (setF s (CMD_CQ_TAIL_cq_tail q) ((getF s (CMD_CQ_TAIL_cq_tail q) + 1) % 2 ^ 32)).regs ∧
      t.out = s.out ++
        [.hostWrite (cqSlot s q (getF s (CMD_CQ_TAIL_cq_tail q)) + 4) (natLe 4 idx ++ natLe 8 e.endTime ++
          natLe 2 e.opcode ++ natLe 2 e.detail ++ bytesAt e.result 0 12),
         .hostWrite (cqSlot s q (getF s (CMD_CQ_TAIL_cq_tail q))) (natLe 4 (e.cmdId +
          (if getF s (CMD_CQ_TAIL_cq_tail q) / queueSize s q % 2 = 0 then 2 ^ 31 else 0)))])) ∧
  (∀ (s : State) (q idx n : Nat) (e : CmdEntry), q < 64 → s.life = .running → findCmd s q idx = some e →
    e.stage = .ended → unacknowledged s q idx = false → s.cmds.hurdle ≠ some (q, idx) →
    e.status = 0 → refValid e.sigRef = true → refRemote e.sigRef = false → refIndex e.sigRef = n →
    e.irq = false → e.opcode ≠ 0x0401 → e.opcode ≠ 0x0602 → e.quiet = false → lapHeld s n = false →
    exec (.commandRetire q idx false false) s =
      .next (dropCmd (lapAdd (writeCompletion s e) n e.sigAdd 0).1 q idx)) ∧
  (∀ (s : State) (q idx : Nat) (e : CmdEntry), q < 64 → s.life = .running → findCmd s q idx = some e →
    e.stage = .ended → unacknowledged s q idx = false → s.cmds.hurdle ≠ some (q, idx) → e.status ≠ 0 → e.irq = false →
    exec (.commandRetire q idx false false) s = .next (dropCmd (writeCompletion (raiseEv s pgCMD ⟨0x2C01, 3⟩
      [q, idx, e.cmdId, e.opcode, e.status, e.detail]) e) q idx)) ∧
  (∀ (s : State) (q idx : Nat) (e : CmdEntry) (tf cf : Bool), q < 64 → findCmd s q idx = some e → e.stage = .ended →
    unacknowledged s q idx = true → exec (.commandRetire q idx tf cf) s = .next s) ∧
  (∀ (s : State) (q idx : Nat) (e : CmdEntry), q < 64 → s.life = .running → findCmd s q idx = some e →
    e.stage = .issued → e.parts = [] → e.opcode ≠ 0x0110 → findRun s q idx = none → s.cmds.hurdle ≠ some (q, idx) →
    exec (.commandTimeout q idx) s = .next (dropWatches (endCmd { s with
      upd := { s.upd with runs := s.upd.runs.filter (fun r => !(r.q == q && r.idx == idx)) },
      mil := { s.mil with
        runs := s.mil.runs.filter (fun r => !(r.q == q && r.idx == idx)),
        sends := s.mil.sends.filter (fun m => !(m.q == q && m.idx == idx)) } } q idx 0x02 0
        (if e.cls = 1 then productResult e else [])) q idx))

/-- A command that ends keeps its status until it retires. Ending a command that has not ended stores its status, its
detail (0 with OK), its result bytes and the time, releases the table reference it holds, and touches no other
command of the table; a command that has ended keeps what it ended with. (05_commands, 10_cabouz) -/
def Obligations.CommandEnds : Prop :=
  ∀ (s : State) (q idx st d : Nat) (r : List Byte) (e : CmdEntry), findCmd s q idx = some e →
    ((e.stage = .issued ∨ e.stage = .placed ∨ e.stage = .running) →
      findCmd (endCmd s q idx st d r) q idx = some { e with
        stage := .ended, status := st, detail := if st = 0 then 0 else d, result := r,
        endTime := timeNow s, held := none } ∧
      (∀ q' idx', (q' ≠ q ∨ idx' ≠ idx) → findCmd (endCmd s q idx st d r) q' idx' = findCmd s q' idx') ∧
      (endCmd s q idx st d r).lanes = s.lanes ∧ (endCmd s q idx st d r).mem = s.mem ∧
      (endCmd s q idx st d r).cmds.table.length = s.cmds.table.length ∧
      (e.held = none → endCmd s q idx st d r = { s with cmds := (endCmd s q idx st d r).cmds })) ∧
    ((e.stage = .ended ∨ e.stage = .signalling ∨ e.stage = .signalled) → endCmd s q idx st d r = s)

/-- The synchronisation commands end with OK, and counters add. LAP.WAIT, LAP.SIGNAL with add or store, and FENCE end
with OK at the moment they may be dispatched; their queue's slot of the round is counted, nothing else changes, and
their signal is made as they retire. HOST_LAP_ADD adds to the selected counter and then latches waits and answers
watches; past the top it holds 2 to the 64 minus 1 and raises lap.saturated with source 1; on a counter held failed
it is only counted. WATCH_RETRY_EXPIRY asks again a wait that was busy. (05_commands, 17_recovery) -/
def Obligations.SyncAndLaps : Prop :=
  (∀ (s : State) (q idx : Nat) (e : CmdEntry) (sur : Surround), Dispatches s q idx e sur → e.opcode = 0x0601 →
    exec (.lapWait q idx sur) s = .next (takeSlot (endCmd s q idx 0 0 []) q)) ∧
  (∀ (s : State) (q idx : Nat) (e : CmdEntry) (sur : Surround), Dispatches s q idx e sur → e.opcode = 0x0602 →
    (leAt e.bytes 44 1 = 0 → exec (.lapSignalAdd q idx sur) s = .next (takeSlot (endCmd s q idx 0 0 []) q)) ∧
    (leAt e.bytes 44 1 = 1 → exec (.lapSignalStore q idx sur) s = .next (takeSlot (endCmd s q idx 0 0 []) q))) ∧
  (∀ (s : State) (q idx : Nat) (e : CmdEntry) (sur : Surround), Dispatches s q idx e sur → e.opcode = 0x0603 →
    exec (.fence q idx sur) s = .next (takeSlot (endCmd s q idx 0 0 []) q)) ∧
  (∀ (s : State) (v : Word), regsOpen s pgLAP = true →
    let n := getF s LAP_SEL_index
    (lapHeld s n = false → lapVal s n + v.toNat < 2 ^ 64 →
      exec (.hostLapAdd v false) s = .next (settleLaps (setLap s n (lapVal s n + v.toNat)))) ∧
    (lapHeld s n = false → 2 ^ 64 ≤ lapVal s n + v.toNat →
      exec (.hostLapAdd v false) s = .next (settleLaps (raiseEv (setLap s n (2 ^ 64 - 1)) pgLAP ⟨0x3001, 2⟩ [n, 1]))) ∧
    (lapHeld s n = true → exec (.hostLapAdd v false) s = .next (satF s LAP_CFG_held_refused 1))) ∧
  (∀ (s : State) (q idx : Nat) (e : CmdEntry), q < 64 → s.life = .running → findCmd s q idx = some e → e.stage = .issued →
    e.wait0 = .busy → ∃ t, exec (.watchRetryExpiry q idx 0) s = .next t ∧
      t = (sendWatch (putCmd s { e with wait0 := .idle }) { e with wait0 := .idle } 0).1)

/-- The job is declared, slots are written, and code tables committed and retired. JOB_DECLARE with no lane-, data-,
collective-, update- or Milant-class command issued and sr_log2 from 8 to 24 stores the declaration; a matching
revision makes the job valid and reports it, another reports dev.arith.mismatch, 0 only clears it; otherwise the
write is only counted. SLOT_SELECT drops the staged words and stores the slot. With no command in the table the
window's commit writes the staged words over the slot at once; a commit that waited is written when nothing holds
it. Committing a valid idle bank under a generation the slot does not hold makes it current: at once from empty;
from ready with no reference held the old bank is freed; a slot still draining refuses with reason 5, an invalid
table with its reason, a generation in use with 4. Retiring a ready slot empties it, or drains it while references
are held; in any other state it is only counted. (07_numerics, 10_cabouz) -/
def Obligations.JobSlotsAndTables : Prop :=
  (∀ (s : State) (v : Word), regsOpen s pgNUM = true →
    let rev := bitsOf v.toNat 0 8
    let sr := bitsOf v.toNat 16 5
    let s1 := setF (setF (setF s NUM_JOB_declared_rev rev) NUM_JOB_k5_mode (bitsOf v.toNat 8 1)) NUM_JOB_sr_log2 sr
    (jobCommandIssued s = false → 8 ≤ sr → sr ≤ 24 → rev = getF s1 DEV_INFO_arith_rev →
      exec (.jobDeclare v) s = .next (raiseEv (setF s1 NUM_JOB_job_valid 1) pgNUM ⟨0x4003, 1⟩
        [rev, bitsOf v.toNat 8 1, sr, getF s1 NUM_SEED_LO_seed])) ∧
    (jobCommandIssued s = false → 8 ≤ sr → sr ≤ 24 → rev ≠ getF s1 DEV_INFO_arith_rev → rev = 0 →
      exec (.jobDeclare v) s = .next (setF s1 NUM_JOB_job_valid 0)) ∧
    (jobCommandIssued s = false → 8 ≤ sr → sr ≤ 24 → rev ≠ getF s1 DEV_INFO_arith_rev → rev ≠ 0 →
      ∃ t, exec (.jobDeclare v) s = .next t ∧ t = raiseEv (setF s1 NUM_JOB_job_valid 0) pgDEV ⟨0x0406, 3⟩
        [rev, getF (setF s1 NUM_JOB_job_valid 0) DEV_INFO_arith_rev, getF (setF s1 NUM_JOB_job_valid 0) NUM_SEED_LO_seed]) ∧
    ((jobCommandIssued s = true ∨ sr < 8 ∨ 24 < sr) →
      exec (.jobDeclare v) s = .next (satF s NUM_STAT_job_denied 1))) ∧
  (∀ (s : State) (v : Word), regsOpen s pgNUM = true →
    exec (.slotSelect v) s = .next (setF { s with num := { s.num with staged := [] } } NUM_SLOT_SEL_slot
      (bitsOf v.toNat 0 12))) ∧
  (∀ (s : State) (v : Word), regsOpen s pgNUM = true → s.cmds.table = [] →
    let n := getF s NUM_SLOT_SEL_slot
    exec (.slotWindowCommit v) s = .next (setSlot { s with num := { s.num with staged := [] } } n
      (withWords (slotRec s n) (tput 19 v s.num.staged)))) ∧
  (∀ (s : State) (w : SlotWait), s.num.waiting = [w] → s.cmds.table = [] →
    exec .slotWindowCommitDone s = .next (setF (setSlot { s with num := { s.num with waiting := [] } } w.slot
      (withWords (slotRec s w.slot) w.words)) NUM_SLOT_SEL_busy 0)) ∧
  (∀ (s : State) (n gen : Nat), n < 16 → gen < 16 → regsOpen s (pgCbzTbl (n / 4)) = true →
    let s1 := setF s (CBZ_TBL_CTRL_new_gen n) gen
    let t := cbzSlot s n
    (t.state = 2 → exec (.tableCommit n gen) s =
      .next (raiseEv (satF s1 (CBZ_TBL_STATE_denied n) 1) pgCBZ ⟨0x4405, 2⟩ [n, gen, 5])) ∧
    (∀ r, t.state ≠ 2 → tableFault (t.bank (!t.cur)) = some r → exec (.tableCommit n gen) s =
      .next (raiseEv (satF s1 (CBZ_TBL_STATE_denied n) 1) pgCBZ ⟨0x4405, 2⟩ [n, gen, r])) ∧
    (t.state ≠ 2 → tableFault (t.bank (!t.cur)) = none → t.holds gen = true → exec (.tableCommit n gen) s =
      .next (raiseEv (satF s1 (CBZ_TBL_STATE_denied n) 1) pgCBZ ⟨0x4405, 2⟩ [n, gen, 4])) ∧
    (t.state = 0 → tableFault (t.bank (!t.cur)) = none → t.holds gen = false → exec (.tableCommit n gen) s =
      .next (raiseEv (setCbz s1 n { t with cur := !t.cur, curGen := gen, curRefs := 0, state := 1 }) pgCBZ ⟨0x4403, 1⟩
        [n, gen, 0xFF])) ∧
    (t.state = 1 → t.curRefs ≠ 0 → tableFault (t.bank (!t.cur)) = none → t.holds gen = false →
      exec (.tableCommit n gen) s = .next (raiseEv (setCbz s1 n { t with
        cur := !t.cur, curGen := gen, curRefs := 0, state := 2, oldGen := t.curGen, oldRefs := t.curRefs }) pgCBZ
        ⟨0x4403, 1⟩ [n, gen, t.curGen])) ∧
    (t.state = 1 → t.curRefs = 0 → tableFault (t.bank (!t.cur)) = none → t.holds gen = false →
      exec (.tableCommit n gen) s = .next (freeOld (raiseEv (setCbz s1 n { t with
        cur := !t.cur, curGen := gen, curRefs := 0, state := 2, oldGen := t.curGen, oldRefs := 0 }) pgCBZ
        ⟨0x4403, 1⟩ [n, gen, t.curGen]) n))) ∧
  (∀ (s : State) (n : Nat), n < 16 → s.regsWf = true → regsOpen s (pgCbzTbl (n / 4)) = true →
    let t := cbzSlot s n
    let s1 := setF s (CBZ_TBL_CTRL_new_gen n) (getF s (CBZ_TBL_CTRL_new_gen n))
    (t.state = 1 → t.curRefs = 0 → exec (.tableRetire n) s = .next (setCbz s1 n { t with state := 0 })) ∧
    (t.state = 1 → t.curRefs ≠ 0 → exec (.tableRetire n) s = .next (setCbz s1 n { t with
      state := 3, oldGen := t.curGen, oldRefs := t.curRefs, curRefs := 0 })) ∧
    (t.state ≠ 1 → exec (.tableRetire n) s = .next (satF s1 (CBZ_TBL_STATE_denied n) 1)))

/-- A hurdle stops epoch-bound dispatch and then changes the epoch. HURDLE, once dispatched, runs with its epoch as the
target, holds the pages of the engines it stops and abandons what has lost its owner. Once no other epoch-bound
command is in flight, HURDLE_TABLE_LOAD of a hurdle that names no table sets current and target to its epoch,
reports the old and new epochs and the time taken and ends it with OK. As that hurdle retires dispatch resumes, the
held pages are ready again, and the chunks held for its epoch or an older one are judged. (05_commands,
12_collectives) -/
def Obligations.Hurdles : Prop :=
  (∀ (s : State) (q idx : Nat) (e : CmdEntry) (sur : Surround), Dispatches s q idx e sur → e.opcode = 0x0604 →
    let s1 := putCmd s { e with stage := .running }
    exec (.hurdle q idx sur) s = .next (takeSlot (abandonLost (hurdleHold (setF { s1 with
      cmds := { s1.cmds with hurdle := some (q, idx), hurdleAt := elapsed s } } CMD_EPOCH_target e.epoch))) q)) ∧
  (∀ (s : State) (q idx : Nat) (e : CmdEntry) (sur : Surround), q < 64 → s.life = .running → findCmd s q idx = some e →
    s.cmds.hurdle = some (q, idx) → s.cmds.hurdlePassed = false → e.block = 0 → milTabAddr s = 0 →
    (∀ x ∈ s.cmds.table, (x.q = q ∧ x.idx = idx) ∨ x.stage = .issued ∨ epochBound s x = false) →
    let s1 := raiseEv (setF (setF s CMD_EPOCH_current e.epoch) CMD_EPOCH_target e.epoch) pgCMD ⟨0x2C04, 1⟩
      [getF s CMD_EPOCH_current, e.epoch, (elapsed s - s.cmds.hurdleAt) / 1000]
    exec (.hurdleTableLoad q idx sur) s = .next (endCmd { s1 with
      cmds := { s1.cmds with hurdlePassed := true } } q idx 0 0 [])) ∧
  (∀ (s : State) (q idx : Nat) (e : CmdEntry), q < 64 → s.life = .running → findCmd s q idx = some e →
    e.stage = .ended → unacknowledged s q idx = false → s.cmds.hurdle = some (q, idx) → e.status = 0 → e.quiet = true →
    refValid e.sigRef = false → e.irq = false → e.opcode = 0x0604 →
    let s1 := dropCmd s q idx
    exec (.commandRetire q idx false false) s = .next (takeHeld (latchAll (hurdleRelease { s1 with
      cmds := { s1.cmds with hurdle := none, hurdlePassed := false } }))
      (fun h => epochCmp h.1.epoch (getF s CMD_EPOCH_current) != .newer) []))

/-- A slot's use for a new step advances its history once. A use for a step older than a used slot's is refused; a use
for its own step changes nothing; a use for a later step stores that step, clears its maximum, its saturation count
and the step's own overflow flag, keeps the other, and pushes the old maximum on a history of at most 16 that is
counted up to 16. (07_numerics) -/
def Obligations.SlotAdvances : Prop :=
  (∀ (s : State) (n step : Nat), (slotRec s n).used = true → step < (slotRec s n).step → useSlot s n step = none) ∧
  (∀ (s : State) (n step : Nat), (slotRec s n).used = true → step = (slotRec s n).step → useSlot s n step = some s) ∧
  (∀ (r : SlotRec) (step : Nat), r.used = true →
    (slotAdvance r step).step = step ∧ (slotAdvance r step).used = true ∧ (slotAdvance r step).curMax = 0 ∧
    (slotAdvance r step).satCount = 0 ∧ (slotAdvance r step).hist = (r.curMax :: r.hist).take 16 ∧
    (slotAdvance r step).count = min (r.count + 1) 16 ∧
    (step % 2 = 0 → (slotAdvance r step).ovf0 = false ∧ (slotAdvance r step).ovf1 = r.ovf1) ∧
    (step % 2 = 1 → (slotAdvance r step).ovf1 = false ∧ (slotAdvance r step).ovf0 = r.ovf0) ∧
    (slotAdvance r step).shift ≤ max 127 r.shift ∧ ((slotAdvance r step).shiftSet = true → 16 ≤ r.count + 1))

/-- Decoding an encoded level-one block gives back its elements. For every valid code table that a slot holds under a
generation, every format 0x14 or 0x17 and every block of 1 to 2,048 16-bit elements, the coded block passes the
header checks and decodes, coded or raw, to exactly those elements: the codec loses nothing. An element is joined
back from its symbol and residue. (10_cabouz) -/
def Obligations.CodecRoundTrip : Prop :=
  (∀ x : Nat, x < 65536 → joinElem (symbolOf x) (residueOf x) = x) ∧
  (∀ (s : State) (t : Table Nat) (fmt slot gen : Nat) (xs : List Nat), (fmt = 0x14 ∨ fmt = 0x17) → slot < 16 → gen < 16 →
    (cbzSlot s slot).lengths gen = some t → tableFault t = none → 1 ≤ xs.length → xs.length ≤ 2048 →
    (∀ x ∈ xs, x < 65536) →
    let bytes := (encodeL1 t fmt slot gen xs).1
    checkHead bytes fmt xs.length = .ok (headOf bytes) ∧ bytes.length = blockSize (headOf bytes) ∧
      decodeL1 s (headOf bytes) bytes = .ok xs)

/-- TS8 codes keep within 127, K5 codes decode as themselves. For a TS8 block (format 3) the element of code c is c
times 2 to the tensor's shift, and code -128 decodes as -127; for a K5 block (format 5) every code decodes as
itself, -128 included. A finite value is a sign, a magnitude m and an exponent e, standing for m times 2 to the e.
(R161) -/
def Obligations.ElementCodes : Prop :=
  ∀ (cols i : Nat) (shift : Int) (bytes : List Byte) (b : Byte), bytes[i]? = some b →
    (-127 ≤ b.toInt → elemAt 3 cols shift bytes i = .fin (decide (b.toInt < 0)) b.toInt.natAbs shift) ∧
    (b.toInt = -128 → elemAt 3 cols shift bytes i = .fin true 127 shift) ∧
    elemAt 5 cols shift bytes i = .fin (decide (b.toInt < 0)) b.toInt.natAbs shift

/-- The random bits are the function of their key that the spec writes out. The random-bit function mixes the seed with
the domain, the id and the step, then with the row and the column, then with the position, each by the two multiply
steps modulo 2 to the 64, and gives the top 16 bits; the seed is that of NUM_SEED_LO and NUM_SEED_HI. (R178) -/
def Obligations.RandomBits : Prop :=
  (∀ (seed : BitVec 64) (domain : BitVec 8) (step row col pos : BitVec 32) (id : BitVec 16),
    let mix := fun (z : BitVec 64) =>
      let z1 := (z ^^^ (z >>> 30)) * 0xA3C59AC23D1E6F27#64
      let z2 := (z1 ^^^ (z1 >>> 27)) * 0x8EB41F65C7D32A59#64
      z2 ^^^ (z2 >>> 31)
    let k := mix (seed ^^^ (domain.setWidth 64 <<< 56) ^^^ (id.setWidth 64 <<< 32) ^^^ step.setWidth 64)
    let h := mix (k ^^^ ((row.setWidth 64 <<< 32) ||| col.setWidth 64))
    let g := mix (h ^^^ pos.setWidth 64 ^^^ 0x5851F42D4C957F2D#64)
    rbits seed domain.toNat step.toNat id.toNat row.toNat col.toNat pos.toNat = ((g >>> 48).setWidth 16).toNat) ∧
  (∀ s : State, (jobSeed s).toNat = getF s NUM_SEED_LO_seed + 2 ^ 32 * getF s NUM_SEED_HI_seed)

/-- Vector control flow and scalar instructions. At a running program's word, each control row goes where R193 says:
nop, and fence with nothing outstanding, go on; br jumps; bz, bnz and blt test their scalars; loop counts its scalar
down first; end stores its exit code, retires and ends its part; a fence or end with remote instructions outstanding
waits. Each scalar row writes sd with the 64-bit result and goes on. The other lanes and all other state stay. A row
whose opcode is not the word's does nothing, and running past the last word is MALFORMED, detail 9. (08_vector) -/
def Obligations.VectorControlAndScalars : Prop :=
  (∀ (s : State) (l w : Nat) (ln : LaneSt) (sur : Surround), VecNext s l ln w sur →
    let go := fun (op : Nat) (c : Instr) (x : Dword) =>
      vwOp w = op → StepsTo c s l sur.slots (ln.pc + 1) (setSreg ln (swSd w) x)
    let a := sreg ln (swSa w)
    let b := sreg ln (swSb w)
    let i := swImm w
    (vwOp w = 0x00 → StepsTo (.vecNop l sur) s l sur.slots (ln.pc + 1) ln) ∧
    (vwOp w = 0x07 → ln.pend = [] → StepsTo (.vecFence l sur) s l sur.slots (ln.pc + 1) ln) ∧
    go 0x10 (.vecSadd l sur) (a + b + i) ∧ go 0x11 (.vecSsub l sur) (a - b) ∧ go 0x12 (.vecSmul l sur) (a * b) ∧
    go 0x13 (.vecSand l sur) (a &&& b) ∧ go 0x14 (.vecSor l sur) (a ||| b) ∧ go 0x15 (.vecSxor l sur) (a ^^^ b) ∧
    go 0x16 (.vecSshl l sur) (a <<< ((b + i).toNat % 64)) ∧ go 0x17 (.vecSshr l sur) (a >>> ((b + i).toNat % 64)) ∧
    go 0x18 (.vecSsra l sur) (a.sshiftRight ((b + i).toNat % 64)) ∧
    go 0x1A (.vecSmin l sur) (if b.slt a then b else a) ∧ go 0x1B (.vecSmax l sur) (if a.slt b then b else a) ∧
    (swMod w % 2 = 0 → go 0x19 (.vecSli l sur) i) ∧
    (swMod w % 2 = 1 → go 0x19 (.vecSli l sur)
      ((sreg ln (swSd w) &&& 0xFFFFFFFF) ||| (BitVec.ofNat 64 (bitsOf w 0 32) <<< 32))) ∧
    go 0x1C (.vecSsys l sur) (BitVec.ofNat 64 (sysValue s l ln (bwTarget w))) ∧
    go 0x1D (.vecSget l sur) ((vreg ln (swMod w % 32) ((b + i).toNat % 64)).setWidth 64)) ∧
  (∀ (s : State) (l w : Nat) (ln : LaneSt) (sur : Surround), VecAt s l ln w sur →
    let x := sreg ln (bwSa w)
    let y := sreg ln (bwSb w)
    let on := ln.pc + 1
    let br := fun (op : Nat) (c : Instr) (ln' : LaneSt) (taken : Bool) =>
      let pc := if taken then bwTarget w else on
      vwOp w = op → pc < ln.prog.length → StepsTo c s l sur.slots pc ln'
    br 0x02 (.vecBr l sur) ln true ∧ br 0x03 (.vecBz l sur) ln (x == 0) ∧ br 0x04 (.vecBnz l sur) ln (x != 0) ∧
    br 0x05 (.vecBlt l sur) ln (x.slt y) ∧ br 0x06 (.vecLoop l sur) (setSreg ln (bwSa w) (x - 1)) (x != 1) ∧
    (∀ q idx, ln.vecRun = some (q, idx) → vwOp w = 0x01 → ln.pend = [] →
      let s1 := vecRetire s l sur.slots
      exec (.vecEnd l sur) s = .next (finishParts (endPart (setLane s1 l { lane s1 l with exitCode := bwTarget w })
        q idx l 0 0) q idx [])) ∧
    (vwOp w = 0x01 → ln.pend ≠ [] → exec (.vecEnd l sur) s = .next s) ∧
    (vwOp w = 0x07 → ln.pend ≠ [] → exec (.vecFence l sur) s = .next s) ∧
    (vwOp w ≠ 0x00 → exec (.vecNop l sur) s = .next s) ∧
    (vwOp w = 0x00 → ln.prog.length = on →
      exec (.vecNop l sur) s = .next (vecFaultAt (vecRetire s l sur.slots) l 0x01 9 ln.pc)))

/-- Elementwise, reduction and predicate instructions. Each elementwise row writes vd in the elements its mask selects,
ors the elements' sticky flags in, and goes on; vcmp, vtopp and the predicate rows write predicates, of which p0
discards writes; the reductions write every element of vd with the value of the fixed tree over 64 elements; vargmax
also writes the index of the first maximum, all ones with nothing selected, a free value of the inputs when all
selected elements are NaN (log entry 34). vtopk keeps the k best of its list and candidates; vunif and vgumbel write
draws of the job's seed. The transcendental rows write transRes of a free value inside R197's bounds. (08_vector,
06_arithmetic) -/
def Obligations.VectorElements : Prop :=
  (∀ (s : State) (l w : Nat) (ln : LaneSt) (sur : Surround), VecNext s l ln w sur →
    let m := maskOf ln w
    let go := fun (op : Nat) (c : Instr) (f : Nat → Word × Nat) => vwOp w = op → StepsTo c s l sur.slots (ln.pc + 1)
      (stick (writeMasked ln (vwVd w) m (fun i => (f i).1)) ((maskList m).foldl (fun t i => t ||| (f i).2) 0))
    let a := fun i => vreg ln (vwVa w) i
    let b := fun i => vreg ln (vwVb w) i
    let c := fun i => vreg ln (vwVc w) i
    let x := (sreg ln (vwSa w)).setWidth 32
    let two := fun (f : Word → Word → Word) (y z : Word) => (f y z, arithFlags [y, z] (f y z))
    let tr := fun op (i : Nat) => transElement op ln w i
    go 0x20 (.vecVadd l sur) (fun i => two fadd (a i) (b i)) ∧ go 0x21 (.vecVsub l sur) (fun i => two fsub (a i) (b i)) ∧
    go 0x22 (.vecVmul l sur) (fun i => two fmul (a i) (b i)) ∧
    go 0x23 (.vecVfma l sur) (fun i => (ffma (a i) (b i) (c i), arithFlags [a i, b i, c i] (ffma (a i) (b i) (c i)))) ∧
    go 0x24 (.vecVmax l sur) (fun i => (vmaxOf (a i) (b i), 0)) ∧ go 0x25 (.vecVmin l sur) (fun i => (vminOf (a i) (b i), 0)) ∧
    go 0x26 (.vecVabs l sur) (fun i => (a i &&& 0x7FFFFFFF, 0)) ∧ go 0x27 (.vecVneg l sur) (fun i => (a i ^^^ 0x80000000, 0)) ∧
    go 0x28 (.vecVmuls l sur) (fun i => two fmul (a i) x) ∧ go 0x29 (.vecVadds l sur) (fun i => two fadd (a i) x) ∧
    go 0x2A (.vecVbcast l sur) (fun _ => (if vwMod w % 2 = 1 then BitVec.ofNat 32 (vwImm w * 2 ^ 16) else x, 0)) ∧
    go 0x2B (.vecVsel l sur) (fun i => (if bitOf (preg ln (vwMod w % 8)) i then a i else b i, 0)) ∧
    go 0x40 (.vecViadd l sur) (fun i => (a i + b i, 0)) ∧
    go 0x41 (.vecViota l sur) (fun i => (x + BitVec.ofNat 32 (vwImm w) + BitVec.ofNat 32 i, 0)) ∧
    go 0x42 (.vecVcvtfi l sur) (fun i => toInt32 (a i)) ∧ go 0x43 (.vecVcvtif l sur) (fun i => (e32 (fpOfInt (a i).toInt 0), 0)) ∧
    go 0x2D (.vecVsqrt l sur) (tr 0x2D) ∧ go 0x30 (.vecVrcp l sur) (tr 0x30) ∧ go 0x31 (.vecVrsqrt l sur) (tr 0x31) ∧
    go 0x32 (.vecVexp2 l sur) (tr 0x32) ∧ go 0x33 (.vecVlog2 l sur) (tr 0x33) ∧ go 0x34 (.vecVexp l sur) (tr 0x34) ∧
    go 0x35 (.vecVtanh l sur) (tr 0x35) ∧ go 0x36 (.vecVsig l sur) (tr 0x36) ∧ go 0x37 (.vecVsin l sur) (tr 0x37) ∧
    go 0x38 (.vecVcos l sur) (tr 0x38)) ∧
  (∀ (s : State) (l w : Nat) (ln : LaneSt) (sur : Surround), VecNext s l ln w sur →
    let m := maskOf ln w
    let a := fun i => vreg ln (vwVa w) i
    let b := fun i => vreg ln (vwVb w) i
    let goes := fun (op : Nat) (c : Instr) (ln' : LaneSt) => vwOp w = op → StepsTo c s l sur.slots (ln.pc + 1) ln'
    let all := fun (r : Word × Nat) => stick (writeAll ln (vwVd w) (fun _ => r.1)) r.2
    let pa := preg ln (vwVa w % 8)
    let pb := preg ln (vwVb w % 8)
    let pd := vwVd w % 8
    let best := (extremeTree vmaxOf ninf32 ln w m).1
    let first := (maskList m).find? (fun i => !isNan32 (a i) && ordSigned32 (a i) == ordSigned32 best)
    let argmax := fun (x : Dword) => setSreg (writeAll ln (vwVd w) (fun _ => best)) (vwSa w) x
    goes 0x48 (.vecVrsum l sur) (all (sumTree ln w m)) ∧ goes 0x49 (.vecVrmax l sur) (all (extremeTree vmaxOf ninf32 ln w m)) ∧
    goes 0x4A (.vecVrmin l sur) (all (extremeTree vminOf inf32 ln w m)) ∧
    (maskList m = [] → goes 0x4B (.vecVargmax l sur) (argmax (BitVec.ofNat 64 (2 ^ 64 - 1)))) ∧
    (∀ i, maskList m ≠ [] → first = some i → goes 0x4B (.vecVargmax l sur) (argmax (BitVec.ofNat 64 i))) ∧
    (maskList m ≠ [] → first = none → goes 0x4B (.vecVargmax l sur)
      (argmax (Config.argmaxIndex ((List.range 64).map (fun i => (a i).toNat)) m))) ∧
    goes 0x2C (.vecVcmp l sur) (writePred ln pd m (fun i => compareOf (vwMod w % 8) (a i) (b i))) ∧
    goes 0x50 (.vecPand l sur) (setPreg ln pd (pa &&& pb)) ∧ goes 0x51 (.vecPor l sur) (setPreg ln pd (pa ||| pb)) ∧
    goes 0x52 (.vecPxor l sur) (setPreg ln pd (pa ^^^ pb)) ∧ goes 0x53 (.vecPnot l sur) (setPreg ln pd (xorNat pa allOnes)) ∧
    goes 0x54 (.vecPset l sur) (setPreg ln pd (sreg ln (vwSa w)).toNat) ∧
    goes 0x55 (.vecPcnt l sur) (setSreg ln (vwSa w) (BitVec.ofNat 64 (maskList pa).length)) ∧
    goes 0x70 (.vecVunif l sur)
      (writeMasked ln (vwVd w) m (fun i => e32 (.fin false (2 * drawOf s ln w i + 1) (-17)))) ∧
    goes 0x71 (.vecVgumbel l sur) (writeMasked ln (vwVd w) m (fun i => gumbelEntry (drawOf s ln w i))) ∧
    goes 0x72 (.vecVtopk l sur) (topkBody ln w) ∧
    goes 0x73 (.vecVtopp l sur) (writePred ln pd m (fun i => compareOf 4 (a i) 0 &&
      (i == 0 || compareOf 2 (((prefixSums ln w)[i]?).getD 0) ((sreg ln (vwSa w)).setWidth 32)))))

/-- A masked write reaches the selected elements and nothing else. Writing a vector register under a mask gives each
selected element its value and leaves every other element of every register, the scalars, the predicates and all
other lane state as they were; a comparison writes the selected bits of its predicate and keeps the others; a write
to p0 is discarded, and p0 always selects all 64 elements. (08_vector) -/
def Obligations.MaskedWrites : Prop :=
  (∀ (ln : LaneSt) (r m : Nat) (f : Nat → Word), tableWf (fun _ => (0 : Word)) ln.v = true →
    (∀ r' i, i < 64 → vreg (writeMasked ln r m f) r' i = if r' = r ∧ bitOf m i = true then f i else vreg ln r' i) ∧
    { writeMasked ln r m f with v := ln.v } = ln ∧
    tableWf (fun _ => (0 : Word)) (writeMasked ln r m f).v = true) ∧
  (∀ (ln : LaneSt) (r m : Nat) (f : Nat → Bool), tableWf (fun _ => (0 : Dword)) ln.p = true → r ≠ 0 →
    (∀ i, i < 64 → bitOf (preg (writePred ln r m f) r) i = if bitOf m i = true then f i else bitOf (preg ln r) i) ∧
    (∀ r', r' ≠ r → preg (writePred ln r m f) r' = preg ln r') ∧ { writePred ln r m f with p := ln.p } = ln) ∧
  (∀ (ln : LaneSt) (m : Nat) (f : Nat → Bool), writePred ln 0 m f = ln ∧ setPreg ln 0 m = ln ∧
    ∀ i, i < 64 → bitOf (preg ln 0) i = true)

/-- Vector loads and stores reach their elements' bytes. With the range local, aligned and sound, vld writes the
selected elements with the decoded values, vgath those at its indices, sld one scalar; vst in an element format
stores each selected element's encoding at its place and leaves every other byte, in a block format the 64 codes and
two shift bytes; vscat stores each selected element at its index, sst one scalar. Registers other than the
destination and all other state stay. A range the program may not reach ends the program with MALFORMED, detail 10.
(08_vector, 09_memory) -/
def Obligations.VectorMemory : Prop :=
  (∀ (s : State) (l w : Nat) (ln : LaneSt) (sur : Surround), VecNext s l ln w sur → sur.hits = [] → s.memWf = true →
    let m := maskOf ln w
    let f := mwFmt w
    let a := mwAddr ln w
    let z := elemSize f
    let aux := (sreg ln (mwSaux w)).toNat
    let on := ln.pc + 1
    let ixs := maskList m
    let at' := fun i => indexAddr ln w i
    let word := fun i => natLe 4 (vreg ln (mwV w) i).toNat
    let sd := mwV w % 16
    (vwOp w = 0x60 → accessOk ln w = true → Sound s a (codesSize f) → (∀ r, auxRange ln w = some r → Sound s r.1 r.2) →
      let sh := match auxRange ln w with | none => 0 | some r => signed 8 (leAt (peek s r.1 r.2) 0 1)
      let row := if isBS f then peek s a (codesSize f) ++ peek s aux 2 else peek s a (codesSize f)
      let v := fun i => if f = 6 then (BitVec.ofNat 32 (leAt (peek s a (codesSize f)) (4 * i) 4), 0)
        else loadWord (elemAt f 64 sh row i)
      StepsTo (.vecVld l sur) s l sur.slots on
        (stick (writeMasked ln (mwV w) m (fun i => (v i).1)) (ixs.foldl (fun t i => t ||| (v i).2) 0))) ∧
    (vwOp w = 0x61 → accessOk ln w = true → isBS f = false → Sound s a (codesSize f) →
      (∀ r, auxRange ln w = some r → Sound s r.1 r.2) →
      let sh := match auxRange ln w with | none => 0 | some r => signed 8 (leAt (peek s r.1 r.2) 0 1)
      let o := fun i => storeElem f sh (vreg ln (mwV w) i)
      StoresTo (.vecVst l sur) s l sur.slots on (stick ln (ixs.foldl (fun t i => t ||| (o i).2) 0))
        (fun x => if a ≤ x ∧ x < a + 64 * z ∧ bitOf m ((x - a) / z) then (o ((x - a) / z)).1[(x - a) % z]? else none)) ∧
    (vwOp w = 0x61 → accessOk ln w = true → isBS f = true → Sound s a (codesSize f) → Sound s aux 2 →
      (aux + 2 ≤ a ∨ a + codesSize f ≤ aux) →
      let o := encodeRow f none ((List.range 64).map (fun i => v32 (vreg ln (mwV w) i)))
      StoresTo (.vecVst l sur) s l sur.slots on (stick ln (if 0 < o.nonfinite then 8 else 0))
        (fun x => if a ≤ x ∧ x < a + codesSize f then (bytesAt o.bytes 0 (codesSize f))[x - a]?
          else if aux ≤ x ∧ x < aux + 2 then (bytesAt o.bytes (codesSize f) 2)[x - aux]? else none)) ∧
    ((vwOp w = 0x60 ∨ vwOp w = 0x61) → accessOk ln w = false →
      (vwOp w = 0x60 → exec (.vecVld l sur) s = .next (vecFaultAt s l 0x01 10 ln.pc)) ∧
      (vwOp w = 0x61 → exec (.vecVst l sur) s = .next (vecFaultAt s l 0x01 10 ln.pc))) ∧
    (vwOp w = 0x62 → (∀ i ∈ ixs, localOk (at' i) 4 4 = true ∧ Sound s (at' i) 4) →
      StepsTo (.vecVgath l sur) s l sur.slots on
        (writeMasked ln (mwV w) m (fun i => BitVec.ofNat 32 (leNat (peek s (at' i) 4))))) ∧
    (vwOp w = 0x63 → (∀ i ∈ ixs, localOk (at' i) 4 4 = true ∧ Sound s (at' i) 4) →
      StoresTo (.vecVscat l sur) s l sur.slots on ln (fun x =>
        match ixs.reverse.find? (fun i => decide (at' i ≤ x ∧ x < at' i + 4)) with
        | some i => (word i)[x - at' i]?
        | none => none)) ∧
    (vwOp w = 0x64 → localOk a 8 8 = true → Sound s a 8 →
      StepsTo (.vecSld l sur) s l sur.slots on (setSreg ln sd (BitVec.ofNat 64 (leNat (peek s a 8))))) ∧
    (vwOp w = 0x65 → localOk a 8 8 = true → Sound s a 8 →
      StoresTo (.vecSst l sur) s l sur.slots on ln (fun x =>
        if a ≤ x ∧ x < a + 8 then (natLe 8 (sreg ln sd).toNat)[x - a]? else none)))

/-- Remote vector instructions on the module's own memory and on a partner. On the module's own memory rld reads 256
bytes into the selected elements, rst stores the selected words, ratom adds, swaps or compares and swaps 8 bytes and
returns the old value in sd. On a partner each issues one request with a free tag (a masked rst one for each line)
and goes on, the destination owed until the answer; with no room it waits. A global address out of range is
MALFORMED, detail 10; a partner before fabric-ready REMOTE_ERROR, detail 2. rank writes the global address of a
known rank's device, and waits while a hurdle has not changed the epoch. (08_vector, 11_stadium_fabric) -/
def Obligations.VectorRemote : Prop :=
  (∀ (s : State) (l w : Nat) (ln : LaneSt) (sur : Surround), VecNext s l ln w sur → sur.hits = [] → s.memWf = true →
    let m := maskOf ln w
    let g := mwAddr ln w
    let a := localPart g
    let on := ln.pc + 1
    let own := fun (x n al : Nat) => isGlobal x = true ∧ x % al = 0 ∧ globalDev x = myId s ∧
      memoryUp s (localPart x) n = true ∧ Sound s (localPart x) n
    let bytes := (List.range 64).flatMap (fun i => natLe 4 (vreg ln (mwV w) i).toNat)
    let x := (sreg ln (swSa w)).toNat
    let old := leNat (peek s (localPart x) 8)
    let y := (sreg ln (swSb w)).toNat
    let ret := setSreg ln (swSd w) (BitVec.ofNat 64 old)
    let put := fun (v : Nat) (b : Nat) =>
      if localPart x ≤ b ∧ b < localPart x + 8 then (natLe 8 v)[b - localPart x]? else none
    (vwOp w = 0x68 → own g 256 4 → StepsTo (.vecRld l sur) s l sur.slots on
      (writeMasked ln (mwV w) m (fun i => BitVec.ofNat 32 (leAt (peek s a 256) (4 * i) 4)))) ∧
    (vwOp w = 0x69 → own g 256 4 → StoresTo (.vecRst l sur) s l sur.slots on ln (fun b =>
      if a ≤ b ∧ b < a + 256 ∧ bitOf m ((b - a) / 4) then bytes[b - a]? else none)) ∧
    (vwOp w = 0x6A → own x 8 8 →
      (swMod w % 4 = 0 → StoresTo (.vecRatomAdd l sur) s l sur.slots on ret (put ((old + y) % 2 ^ 64))) ∧
      (swMod w % 4 = 1 → StoresTo (.vecRatomSwap l sur) s l sur.slots on ret (put y)) ∧
      (swMod w % 4 = 2 → StoresTo (.vecRatomCas l sur) s l sur.slots on ret
        (if old = (sreg ln (swSd w)).toNat then put y else fun _ => none)))) ∧
  (∀ (s : State) (l w : Nat) (ln : LaneSt) (sur : Surround), VecNext s l ln w sur →
    let g := mwAddr ln w
    let x := (sreg ln (swSa w)).toNat
    let far := fun (y al : Nat) => isGlobal y = true ∧ y % al = 0 ∧ globalDev y ≠ myId s ∧
      isSet s DEV_START_fabric_ready = true
    let sends := fun (c : Instr) (kind reg mask a op n opnd : Nat) (data : List Byte) =>
      ∀ q idx s1, ln.vecRun = some (q, idx) →
        sendReq s 2 (globalDev a) op (localPart a) n opnd data (.vec l q idx) = (s1, true) → ∃ t, exec c s = .next t ∧
        LaneStep s t l sur.slots (ln.pc + 1) { ln with pend := ln.pend ++ [⟨freeTag s, ln.pc, kind, reg, mask⟩] } ∧
        { t with lanes := s1.lanes } = s1
    (vwOp w = 0x68 → far g 4 → txnRoom s 2 = true →
      sends (.vecRld l sur) 0 (mwV w) (maskOf ln w) g 0x01 256 0 []) ∧
    let bytes := (List.range 64).flatMap (fun i => natLe 4 (vreg ln (mwV w) i).toNat)
    (vwOp w = 0x69 → far g 4 → txnRoomFor s 2 1 = true → maskOf ln w = allOnes →
      sends (.vecRst l sur) 2 0 0 g 0x02 256 0 bytes) ∧
    (∀ s1, vwOp w = 0x69 → far g 4 → maskOf ln w ≠ allOnes →
      let lines := maskedLines g (maskOf ln w) bytes
      txnRoomFor s 2 lines.length = true →
      lines.foldl (fun st x => if st.2 then vecSend st.1 l ln.pc 2 0 0 x.1 0x03 64 x.2.1 x.2.2 else st) (s, true) = (s1, true) →
      exec (.vecRst l sur) s = .next (vecGoto (vecRetire s1 l sur.slots) l ln.pc (ln.pc + 1))) ∧
    (vwOp w = 0x6A → far x 8 → txnRoom s 2 = true →
      let y := (sreg ln (swSb w)).toNat
      (swMod w % 4 = 0 → sends (.vecRatomAdd l sur) 1 (swSd w) 0 x 4 8 y []) ∧
      (swMod w % 4 = 1 → sends (.vecRatomSwap l sur) 1 (swSd w) 0 x 5 8 y []) ∧
      (swMod w % 4 = 2 → sends (.vecRatomCas l sur) 1 (swSd w) 0 x 6 8 y (natLe 8 (sreg ln (swSd w)).toNat))) ∧
    (vwOp w = 0x68 → far g 4 → txnRoom s 2 = false → exec (.vecRld l sur) s = .next s) ∧
    (vwOp w = 0x68 → (isGlobal g = false ∨ g % 4 ≠ 0) →
      exec (.vecRld l sur) s = .next (vecFaultAt s l 0x01 10 ln.pc)) ∧
    (vwOp w = 0x68 → isGlobal g = true → g % 4 = 0 → globalDev g ≠ myId s → isSet s DEV_START_fabric_ready = false →
      exec (.vecRld l sur) s = .next (vecFaultAt s l 0x0A 2 ln.pc)) ∧
    (∀ d, vwOp w = 0x6B → hurdleOpen s = false → resolveRank s ((sreg ln (swSa w)).toNat % 2 ^ 14) = .device d →
      StepsTo (.vecRank l sur) s l sur.slots (ln.pc + 1) (setSreg ln (swSd w) (BitVec.ofNat 64 (2 ^ 63 + d * 2 ^ 50)))) ∧
    (vwOp w = 0x6B → hurdleOpen s = true → exec (.vecRank l sur) s = .next s))

/-- Products and vector programs run on the lanes that hold them. A MATMUL whose block, checks, headers and slot pass
goes as far as its usable chunks reach, an unfused one over all its tiles; once every tile has run it ends, it ends
with COLL_FAILED where the gather has failed while it lacks a chunk, and otherwise looks again on FUSED_CHUNK_READY;
one whose check fails ends with that status and detail, one whose slot refuses its step with MALFORMED, 36.
MATMUL.TWIN likewise runs both sides and ends. VEC.RUN loads, checks and starts its program on every lane it names.
(06_lanes, 08_vector) -/
def Obligations.Products : Prop :=
  (∀ (s : State) (e : CmdEntry) (sur : Surround) (shA shB : Int), sur.hits = [] → e.block % 64 = 0 →
    inMemory e.block 64 = true → Sound s e.block 64 →
    let b := peek s e.block 64
    let o := mmOpOf b
    let hb := mmHeadB s o
    mmCheck s e b o = none →
    (if hasHeader o.af = true then Sound s o.a 64 ∧ headerShift (peek s o.a 64) o.af = some shA else shA = 0) →
    (if hasHeader o.bf = true then Sound s hb 64 ∧ headerShift (peek s hb 64) o.bf = some shB else shB = 0) →
    mmSetup s e sur = (s, .ok (b, mmRunOf s o shA shB))) ∧
  (∀ (s s2 s3 : State) (q idx : Nat) (e e2 : CmdEntry) (sur : Surround) (b : List Byte) (p : MmRun), RunsNow s q idx e sur →
    e.opcode = 0x0101 →
    let e0 := { e with stage := .running }
    let e1 := { e0 with arrays := namedArrays e0 }
    mmSetup (putCmd (putCmd s e0) e1) e1 sur = (s2, .ok (b, p)) →
    ((if p.o.slot = 0xFFFF then some s2 else useSlot s2 p.o.slot p.o.step) = some s3 → findCmd s3 q idx = some e2 →
      exec (.matmul q idx sur) s = .next (mmAdvance p { e2 with
        opnd := b, arrays := mmArrays e2 p.o, dest := mmDest p.o, prod := { shA := p.shA, shB := p.shB } } sur s3)) ∧
    (p.o.slot ≠ 0xFFFF → useSlot s2 p.o.slot p.o.step = none →
      exec (.matmul q idx sur) s = .next (endAllParts s2 q idx 0x01 36 []))) ∧
  (∀ (s : State) (p : MmRun) (e e2 : CmdEntry) (sur : Surround),
    let ts := (reachedTiles s e p.o).filter (fun t => !e.prod.tiles.contains t)
    let e1 := { e with chunks := (e.chunks ++ consumedChunks s e p.o ts).eraseDups }
    let s1 := mmTilesRun p e1 sur ts (putCmd s e1)
    findCmd s1 e.q e.idx = some e2 →
    (p.o.fused = false → reachedTiles s e p.o = List.range (mmTiles p.o)) ∧
    (e2.prod.tiles.length = mmTiles p.o → mmAdvance p e sur s = mmFinish e2 p.o s1) ∧
    (e2.prod.tiles.length ≠ mmTiles p.o → (landing s1 p.o.landing).state = 3 → lacksChunk s1 e2 p.o = true →
      mmAdvance p e sur s = stopProduct s1 e2 0x0E false) ∧
    (e2.prod.tiles.length ≠ mmTiles p.o → ((landing s1 p.o.landing).state ≠ 3 ∨ lacksChunk s1 e2 p.o = false) →
      mmAdvance p e sur s = s1)) ∧
  (∀ (s s2 : State) (q idx st d : Nat) (e : CmdEntry) (sur : Surround), RunsNow s q idx e sur → e.opcode = 0x0101 →
    let e0 := { e with stage := .running }
    let e1 := { e0 with arrays := namedArrays e0 }
    mmSetup (putCmd (putCmd s e0) e1) e1 sur = (s2, .error (st, d)) →
    exec (.matmul q idx sur) s = .next (endAllParts s2 q idx st d [])) ∧
  (∀ (s : State) (q idx : Nat) (e : CmdEntry) (sur : Surround), q < 64 → findCmd s q idx = some e → e.opcode = 0x0101 →
    e.stage = .running → exec (.fusedChunkReady q idx sur) s =
      .next (mmAdvance (mmRunOf s (mmOpOf e.opnd) e.prod.shA e.prod.shB) e sur s)) ∧
  (∀ (s : State) (q idx : Nat) (e e2 : CmdEntry) (sur : Surround) (shG shW shX : Int), RunsNow s q idx e sur →
    e.opcode = 0x0102 → sur.hits = [] → e.block % 128 = 0 → inMemory e.block 128 = true → Sound s e.block 128 →
    let e0 := { e with stage := .running }
    let e1 := { e0 with arrays := namedArrays e0 }
    let s1 := putCmd (putCmd s e0) e1
    let b := peek s e.block 128
    let o := twOpOf b
    let head := fun (f a : Nat) (sh : Int) =>
      if hasHeader f = true then Sound s a 64 ∧ headerShift (peek s a 64) f = some sh else sh = 0
    (∀ st d, twCheck s1 e1 b o = some (st, d) →
      exec (.matmulTwin q idx sur) s = .next (endAllParts s1 q idx st d [])) ∧
    (twCheck s1 e1 b o = none → head o.gf o.g shG → head o.left.bf o.left.b shW → head o.rightSide.bf o.rightSide.b shX →
      let s2 := o.sides.foldl (fun s sd => if sd.slot = 0xFFFF then s else (useSlot s sd.slot o.step).getD s) s1
      findCmd s2 q idx = some e2 → exec (.matmulTwin q idx sur) s = .next (twRun o shG shW shX { e2 with
        arrays := twArrays e2 o } sur (putCmd s2 { e2 with arrays := twArrays e2 o })))) ∧
  (∀ (s : State) (q idx : Nat) (e : CmdEntry) (sur : Surround), RunsNow s q idx e sur → e.opcode = 0x0110 → sur.hits = [] →
    e.block % 64 = 0 → inMemory e.block 128 = true → Sound s e.block 128 →
    let e1 := { e with stage := .running }
    let s1 := putCmd s e1
    let b := peek s e.block 128
    (∀ st d, vecBlockCheck e1 b = some (st, d) → exec (.vecRun q idx sur) s = .next (endAllParts s1 q idx st d [])) ∧
    (vecBlockCheck e1 b = none → exec (.vecRun q idx sur) s =
      .next (finishParts ((laneList e1).foldl (vecStart b [] e1) s1) q idx [])))

/-- A drained row of a product holds the sums of its elements, and its streamed row lies skewed in the shelf. While a
lane's part is open and the streamed row is sound, a row of a tile drained to memory in place writes, at the
destination row's address and its tile's column, each column's sum over all its stationary tiles converted to the
output format, and no other byte; the streamed row goes into the lane's shelf, and nothing else changes but what a
first write to a cellar region reports. The fill engine puts byte k of streamed row m in byte column k of shelf line
base + m + k. An element's sum over several stationary tiles adds each further tile's running sum to the sum so far.
(06_lanes) -/
def Obligations.ProductRows : Prop :=
  (∀ (s : State) (p : MmRun) (e : CmdEntry) (t m accRow j r : Nat) (bs : List Vec) (acc : MmAcc),
    s.memWf = true → partOpen s e.q e.idx (tileLane e t) = true → p.o.acc = 0 → p.o.drain = 1 → p.o.out ≤ 2 →
    let src := p.o.a + headerSize p.o.af + r * (64 * p.o.aPitch)
    let z := outSize p.o.out
    let dst := p.o.c + r * (64 * p.o.cPitch) + 128 * j * z
    Sound s src (rowSize p.o.af p.o.k) → Sound s dst (z * bs.length) →
    let a : Vec := ⟨p.o.af, p.o.k, p.shA, peek s src (rowSize p.o.af p.o.k)⟩
    let sums := bs.mapIdx (fun c b => elementSum p.mode a b p.o.k none (mmRnd p e r (128 * j + c)))
    let filled := fillRow s (tileLane e t) p.mode (Config.shelfBase t) m a
    let u := (mmRow p e t m accRow j bs (s, acc) r).1
    (∀ x, memByte u x = if dst ≤ x ∧ x < dst + z * bs.length
      then ((sums.map (drainBits p.o.out)).flatMap (natLe z)).getD (x - dst) 0 else memByte s x) ∧
    u = { filled with
      mem := u.mem, regs := u.regs, ev := u.ev, out := u.out } ∧
    ((∀ x ∈ linesOf dst (z * bs.length), initialised s x = true) → u = { filled with mem := u.mem })) ∧
  (∀ (s : State) (l base m : Nat) (bytes : List Byte), bytes.length ≤ 128 →
    tableWf (fun _ => ({} : LaneSt)) s.lanes = true → tableWf (fun _ => (0 : Byte)) (lane s l).shelf = true →
    let u := fillShelf s l base m bytes
    let place := fun (k : Nat) => 128 * ((base + m + k) % 16384) + k
    (∀ k, k < bytes.length → tget (fun _ => (0 : Byte)) (lane u l).shelf (place k) = bytes.getD k 0) ∧
    (∀ x, (∀ k, k < bytes.length → x ≠ place k) →
      tget (fun _ => (0 : Byte)) (lane u l).shelf x = tget (fun _ => (0 : Byte)) (lane s l).shelf x) ∧
    (∀ n, n ≠ l → lane u n = lane s n) ∧ { u with lanes := s.lanes } = s) ∧
  (∀ (m : Mode) (a b : Vec) (n : Nat) (start : Option Word) (rnd : Nat → Rounding), 0 < n →
    elementSum m a b ((n + 1) * m.tile) start rnd =
      add32 (elementSum m a b (n * m.tile) start rnd) (tileSum m a b (n * m.tile) m.tile rnd)
        (rnd ((n + 1) * m.tile - 1)))

/-- Array clocks, lane and port resets and droop. ARRAY_WAKE turns one array's clock on; ARRAY_CLOCK_OFF turns it off
unless hold_on keeps it. A lane reset ends the lane's running command with LANE_RESET, clears all its state but its
queue and its fence, and reads busy until it is done and reported; while busy another start is discarded. A port
reset takes the link down with cause 5 and trains an enabled port afresh. A droop below the setpoint by droop_mv is
counted once for an episode; its release, above that by hyst_mv, adds the stretched slots in thousands and 24.
(04_registers_host, 06_lanes, 16_pacers) -/
def Obligations.LaneRows : Prop :=
  (∀ (s : State) (l : Nat), l < 96 → s.life = .running →
    exec (.arrayWake l true) s = .next (setLane s l { lane s l with rightOn := true }) ∧
    exec (.arrayWake l false) s = .next (setLane s l { lane s l with leftOn := true })) ∧
  (∀ (s : State) (l : Nat) (right : Bool), l < 96 →
    (isSet s (LANE_POWER_hold_on l) = true → exec (.arrayClockOff l right) s = .next s) ∧
    (isSet s (LANE_POWER_hold_on l) = false → exec (.arrayClockOff l right) s = .next (setLane s l
      (if right then { lane s l with rightOn := false } else { lane s l with leftOn := false })))) ∧
  (∀ (s : State) (l : Nat), l < 96 → regsOpen s pgRST = true →
    (isSet s RST_LANE_busy = true → exec (.laneReset l) s = .next s) ∧
    (isSet s RST_LANE_busy = false → s.life = .running → widerReset s = false → (lane s l).resetting = false →
      let s1 := endRunningOn (setF s RST_LANE_lane l) l 0x04
      exec (.laneReset l) s = .next (setF ((List.foldl (fun t (f : Nat → Fld) => setF t (f l) 0) (setLane s1 l {
        queue := (lane s1 l).queue, fenced := (lane s1 l).fenced, resetting := true })
        [LANE_CNT_LOAD_count, LANE_CNT_LINE_count, LANE_CNT_DRY_count, LANE_CNT_DRAIN_count])) RST_LANE_busy 1))) ∧
  (∀ (s : State) (l : Nat), l < 96 →
    ((lane s l).resetting = false → exec (.laneResetDone l) s = .next s) ∧
    ((lane s l).resetting = true →
      let s1 := setF (setLane s l { lane s l with resetting := false }) (BLK_CTRL_soft_reset (pgLANE l)) 0
      exec (.laneResetDone l) s = .next (raiseEv (setF s1 RST_LANE_busy
        (b2n ((List.range 96).any (fun n => (lane s1 n).resetting)))) (pgLANE l) ⟨0x3401, 1⟩ [l]))) ∧
  (∀ (s : State) (n : Nat), n < 20 → regsOpen s pgRST = true → isSet s RST_PORT_busy = false →
    let s1 := portDown (setF s RST_PORT_port n) n 5
    (bitOf s1.pac.ports n = true → exec (.portReset n) s = .next (queuePort (setPort (setF { s1 with
      fab := { s1.fab with queue := s1.fab.queue.filter (· != n) } } RST_PORT_busy 1) n { resetBusy := true }) n)) ∧
    (bitOf s1.pac.ports n = false → exec (.portReset n) s = .next (raiseEv s1 (pgPORT n) ⟨0x5402, 1⟩ [n]))) ∧
  (∀ (s : State) (l mv : Nat), l < 96 → s.life = .running →
    let d := dieOf s l
    let low := (mv : Int) < (getF s (PAC_VOLT_setpoint_mv d) : Int) - droopMv s d
    (low → isSet s (PAC_LOOP_X_droop_off d) = false → (lane s l).droop = false → exec (.droopDetect l mv) s =
      .next (satF (setLane s l { lane s l with droop := true }) (PAC_DROOP_droops d) 1)) ∧
    ((¬ low ∨ isSet s (PAC_LOOP_X_droop_off d) = true ∨ (lane s l).droop = true) → exec (.droopDetect l mv) s = .next s) ∧
    let held := fun (v : Nat) => (v : Int) ≤ (getF s (PAC_VOLT_setpoint_mv d) : Int) - droopMv s d + hystMv s d
    (∀ k v, ((lane s l).droop = false ∨ held v) → exec (.droopRelease l ⟨k, v⟩) s = .next s) ∧
    ∀ k v, (lane s l).droop = true → ¬ held v →
      let n := tget (fun _ => 0) s.pac.stretch d + k
      let s1 := setLane s l { lane s l with droop := false }
      exec (.droopRelease l ⟨k, v⟩) s = .next (satF { s1 with
        pac := { s1.pac with stretch := tset (fun _ => 0) s1.pac.stretch d (n % 1024) } } (PAC_DROOP_stretched d) (n / 1024)))

/-- DMA.COPY, SCALE.FIND and CONVERT run where they are placed. A DMA.COPY first on its lanes runs its rows, if it needs
no partner or the transaction table has room; without room it waits. SCALE.FIND and CONVERT check the block: one
that fails ends with the status and detail of R185; one that passes takes the source header's shift, or 0, and runs
its rows, the slot used for its step where one is named. (07_numerics, 09_memory) -/
def Obligations.DataMoves : Prop :=
  (∀ (s : State) (q idx : Nat) (e : CmdEntry) (sur : Surround), RunsNow s q idx e sur → e.opcode = 0x0201 →
    let o := dmaOpOf e.opnd
    let here := (deviceOf s o.src).1.isNone && (deviceOf s o.dst).1.isNone
    let e1 := { e with stage := .running }
    ((here || txnRoom s 2) = true → exec (.dmaCopy q idx sur) s = .next (dmaBody sur (putCmd s e1) e1)) ∧
    ((here || txnRoom s 2) = false → exec (.dmaCopy q idx sur) s = .next s)) ∧
  (∀ (s : State) (q idx : Nat) (e : CmdEntry) (sur : Surround), RunsNow s q idx e sur → sur.hits = [] → BlockAt s e 64 64 →
    let e1 := { e with stage := .running }
    let s1 := putCmd s e1
    let b := peek s e.block 64
    let row := fun (find : Bool) => if find then exec (.scaleFind q idx sur) s else exec (.convert q idx sur) s
    ∀ find : Bool, e.opcode = (if find then 0x0210 else 0x0211) →
      let c := convOpOf find b
      (∀ st d, convCheck s1 b c = some (st, d) → row find = .next (endAllParts s1 q idx st d [])) ∧
      (∀ sh, convCheck s1 b c = none →
        (if hasHeader c.sf = true then Sound s c.src 64 ∧ headerShift (peek s c.src 64) c.sf = some sh else sh = 0) →
        (c.slot = 0xFFFF → row find = .next (convRun c e1 sur sh s1)) ∧
        (∀ s2, c.slot ≠ 0xFFFF → useSlot s1 c.slot c.step = some s2 → row find = .next (convRun c e1 sur sh s2)) ∧
        (c.slot ≠ 0xFFFF → useSlot s1 c.slot c.step = none → row find = .next (endAllParts s1 q idx 0x01 5 []))))

/-- Copied and converted rows land at their places and nowhere else. A raw copy between ranges of sound local memory
that do not overlap leaves, at every byte of every destination row, the source row's byte, and every other byte and
all other state as before, but for what a first write to a cellar region reports. A converted row writes exactly its
encoded bytes at its place in the destination, and changes nothing else but that. (07_numerics, 09_memory) -/
def Obligations.MovedRows : Prop :=
  (∀ (s : State) (p : DmaRun) (acc : DmaAcc), s.memWf = true → p.o.mode = 0 → p.srcDev = none → p.dstDev = none →
    p.sur.hits = [] → p.o.rowBytes % 64 = 0 → p.o.rowBytes ≤ p.o.dstPitch →
    (∀ r, r < p.o.rows → partOpen s p.e.q p.e.idx (p.e.firstLane + r % p.e.laneCount) = true ∧
      Sound s (p.src + r * p.o.srcPitch) p.o.rowBytes ∧ Sound s (p.dst + r * p.o.dstPitch) p.o.rowBytes ∧
      ∀ r', r' < p.o.rows → p.src + r * p.o.srcPitch + p.o.rowBytes ≤ p.dst + r' * p.o.dstPitch ∨
        p.dst + r' * p.o.dstPitch + p.o.rowBytes ≤ p.src + r * p.o.srcPitch) →
    let t := ((List.range p.o.rows).foldl (dmaRow p) (s, acc)).1
    (∀ r i, r < p.o.rows → i < p.o.rowBytes →
      memByte t (p.dst + r * p.o.dstPitch + i) = memByte s (p.src + r * p.o.srcPitch + i)) ∧
    (∀ x, (∀ r, r < p.o.rows → x < p.dst + r * p.o.dstPitch ∨ p.dst + r * p.o.dstPitch + p.o.rowBytes ≤ x) →
      memByte t x = memByte s x) ∧
    t = { s with
      mem := t.mem, regs := t.regs, ev := t.ev, out := t.out } ∧
    ((∀ r, r < p.o.rows → ∀ x ∈ linesOf (p.dst + r * p.o.dstPitch) p.o.rowBytes, initialised s x = true) →
      t = { s with mem := t.mem })) ∧
  (∀ (s : State) (c : ConvOp) (e : CmdEntry) (srcSh : Int) (sh : Option Int) (acc : ConvAcc) (r : Nat),
    s.memWf = true → c.find = false → partOpen s e.q e.idx (e.firstLane + r % e.laneCount) = true →
    let src := c.src + headerSize c.sf + r * (64 * c.srcPitch)
    let dst := c.dst + headerSize c.df + r * (64 * c.dstPitch)
    Sound s src (rowSize c.sf c.cols) →
    let o := convertRow c.sf c.df c.cols srcSh sh (peek s src (rowSize c.sf c.cols))
    Sound s dst o.bytes.length →
    let t := (convRow c e [] srcSh sh (s, acc) r).1
    (∀ x, memByte t x = if dst ≤ x ∧ x < dst + o.bytes.length then o.bytes.getD (x - dst) 0 else memByte s x) ∧
    t = { s with
      mem := t.mem, regs := t.regs, ev := t.ev, out := t.out } ∧
    ((∀ x ∈ linesOf dst o.bytes.length, initialised s x = true) → t = { s with mem := t.mem }))

/-- Collectives start, wait for the engine, or end on a bad block. With fewer than 16 running, each collective
dispatched reads its block and takes its queue's slot of the round; a block it cannot reach, or one that fails the
checks of R300, ends it with that status and detail; one that passes takes its table's reference where it is coded,
runs with its position and devices, opens its step, arms its landing, sends its own chunks, and then takes the
chunks held for it. With 16 running it waits. A word lost on a data-path stage ends it with PARITY, detail 10, and
dev.path.failed. (12_collectives) -/
def Obligations.CollectiveStarts : Prop :=
  ∀ (s : State) (q idx : Nat) (e : CmdEntry) (sur : Surround), sur.hits = [] →
    let b := peek s e.block 64
    let o := collOpOf e.opcode b
    ∀ row ∈ [(Instr.collReduceScatter q idx sur, 0x0301), (.collAllGather q idx sur, 0x0302),
        (.collAllReduce q idx sur, 0x0303), (.collBroadcast q idx sur, 0x0304), (.collAllToAll q idx sur, 0x0305)],
      e.opcode = row.2 →
      (q < 64 → s.life = .running → findCmd s q idx = some e → sur.routeFails = [] → sur.roleFails = [] → sur.table = false →
        anyRemoteRef e = false → epochTest s e = .equal → dispatchEnd s e false = none → 16 ≤ s.coll.running.length →
        exec row.1 s = .next s) ∧
      (∀ k o, Dispatches s q idx e sur → sur.stage = ⟨k, some o⟩ → exec row.1 s = .next (takeSlot (endCmd (pathFailed
        (if k = 0 then s else satF s DEV_REPLAY_path_replays k) pgCOL e.cmdId o) q idx 0x0B 10 []) q)) ∧
      (Dispatches s q idx e sur → sur.stage = {} → (e.block % 64 ≠ 0 ∨ inMemory e.block 64 = false) →
        exec row.1 s = .next (takeSlot (endCmd s q idx 0x01 16 []) q)) ∧
      (Dispatches s q idx e sur → sur.stage = {} → BlockAt s e 64 64 →
        (∀ st d, collCheck s b o = .error (st, d) → exec row.1 s = .next (takeSlot (endCmd s q idx st d []) q)) ∧
        (∀ me devs, collCheck s b o = .ok (me, devs) →
          let gen := (cbzSlot s o.codec).curGen
          let s1 := putCmd (if o.coded then takeRef s o.codec gen else s) { e with
            stage := .running, held := (if o.coded then some (o.codec, gen) else none), dest := [(o.dst, o.destBytes)] }
          let r : CollRun := { q := q, idx := idx, cmdId := e.cmdId, epoch := e.epoch, o := o, me := me, devs := devs, k5 := k5Job s1 }
          let s2 := armLanding (openStep { s1 with coll := { s1.coll with running := s1.coll.running ++ [r] } } o.step) o
          exec row.1 s = .next (takeSlot (takeHeld (settleColl (produce s2 q idx [] sur.lostChunks) q idx)
            (fun h => h.1.cmdId == e.cmdId && h.1.step == o.step && h.1.epoch == e.epoch) sur.lostChunks) q)))

/-- Chunk messages reach their command, wait, or are turned away. A whole chunk message leaves the staging. One of a
command that ended, or whose chunk the command has not, is counted mismatched; one of a newer epoch than the engine
serves, or of no running command, is held; one of an older epoch is counted and reported and, unless it is itself
such an answer, answered STALE, but while a hurdle closes that epoch a command that still runs takes it; one that
disagrees in opcode, count or arithmetic is reported. Otherwise the running command takes it by its kind. A chunk
answered LATER is sent again, and hurdle_wait abandons what has not settled. (12_collectives) -/
def Obligations.ChunkMessages : Prop :=
  (∀ (s : State) (m : ChunkMsg) (x : Meet), s.life = .running →
    let t := { s with coll := { s.coll with staged := s.coll.staged.filter (fun p => !ofMessage m p) } }
    let now := getF s CMD_EPOCH_target
    let run := s.coll.running.find? (fun r => r.cmdId == m.cmdId && r.o.step == m.step && r.epoch == m.epoch)
    let closing := hurdleOpen s && m.epoch == getF s CMD_EPOCH_current
    ∀ row ∈ [(Instr.chunkContrib m x, 1), (.chunkResult m x, 2), (.chunkAck m x, 3), (.chunkNak m x, 4),
        (.chunkConfirm m x, 5), (.chunkVoid m x, 6), (.chunkLater m x, 7), (.chunkStale m x, 8)], m.msg = row.2 →
      (s.coll.ended.contains (m.cmdId, m.step, m.epoch) = true →
        exec row.1 s = .next (satF t COL_DISCARD_mismatched 1)) ∧
      (s.coll.ended.contains (m.cmdId, m.step, m.epoch) = false →
        (epochCmp m.epoch now = .newer → exec row.1 s = .next (holdChunk t m x.bad)) ∧
        (epochCmp m.epoch now = .stale → (run = none ∨ closing = false) →
          let t1 := raiseEv (satF t COL_DISCARD_stale 1) pgCOL ⟨0x4803, 2⟩
            [m.src, m.cmdId, m.epoch, now]
          exec row.1 s = .next (if m.msg = 7 ∨ m.msg = 8 then t1 else answerChunk t1 m 8)) ∧
        (epochCmp m.epoch now = .equal → run = none → exec row.1 s = .next (holdChunk t m x.bad)) ∧
        (∀ r, (epochCmp m.epoch now = .equal ∨ (epochCmp m.epoch now = .stale ∧ closing = true)) → run = some r →
          let agrees := m.opcode = r.o.op % 256 ∧ m.count = r.o.count ∧ m.k5 = r.k5
          (¬ agrees → exec row.1 s = .next (raiseEv (satF t COL_DISCARD_mismatched 1) pgCOL ⟨0x4806, 2⟩
            [m.src, m.cmdId, m.step, m.epoch, m.opcode, m.count])) ∧
          (agrees → chunkKeyOk r.o (chunkKey m.owner m.chunk) = false →
            exec row.1 s = .next (satF t COL_DISCARD_mismatched 1)) ∧
          (agrees → chunkKeyOk r.o (chunkKey m.owner m.chunk) = true → exec row.1 s = .next
            (match m.msg with
            | 1 => onContrib t r m x
            | 2 => onResult t r m x
            | 3 => onAck t r m
            | 4 => onNak t r m x
            | 5 => onConfirm t r m
            | 6 => onVoid t r m
            | 7 => onLater t r m
            | _ => onStale t r m))))) ∧
  (∀ (s : State) (q idx key p : Nat) (r : CollRun) (rest : List (Nat × Nat)) (x : Meet), q < 64 → s.life = .running →
    findRun s q idx = some r → r.laters = (key, p) :: rest →
    let s1 := onRun s q idx (fun r => { r with laters := rest })
    (keyOwner key ≠ r.me → exec (.laterRetryExpiry q idx x) s = .next (contribute q idx x.hits [] s1 key)) ∧
    (keyOwner key = r.me → (chunkOf r key).void = 0 → (chunkOf r key).formed = true →
      exec (.laterRetryExpiry q idx x) s = .next (resendResult s1 r key p x.hits false))) ∧
  (∀ (s : State) (q idx : Nat), q < 64 →
    (s.cmds.hurdle = some (q, idx) → s.cmds.hurdlePassed = false → exec (.hurdleWaitExpiry q idx) s = .next
      (s.coll.running.foldl (fun s r => abandonChunks s r.q r.idx (fun r k => (unsettled s r).contains k)) s)) ∧
    ((s.cmds.hurdle ≠ some (q, idx) ∨ s.cmds.hurdlePassed = true) → exec (.hurdleWaitExpiry q idx) s = .next s))

/-- A sum is formed in position order, whatever order the contributions came in. Contributions are kept in ascending
position, and two of different positions give the same list in either order of arrival; a second contribution of a
position changes nothing. An OR reduction's element is the OR of the contributions' words; a sum of one contribution
is its own value in the output type; each further contribution is added to the sum so far. (12_collectives) -/
def Obligations.SumsKeepPositionOrder : Prop :=
  (∀ (a b : Contrib) (l : List Contrib), l.Pairwise (fun x y => x.pos < y.pos) → a.pos ≠ b.pos →
    addContrib a (addContrib b l) = addContrib b (addContrib a l)) ∧
  (∀ (a : Contrib) (l : List Contrib), l.Pairwise (fun x y => x.pos < y.pos) →
    (addContrib a l).Pairwise (fun x y => x.pos < y.pos) ∧ (l.any (fun x => x.pos == a.pos) = true → addContrib a l = l) ∧
    (l.any (fun x => x.pos == a.pos) = false → (addContrib a l).length = l.length + 1 ∧ a ∈ addContrib a l)) ∧
  (∀ (o : CollOp) (k5 : Bool) (cs : List (List Byte)) (i : Nat), o.red = 2 → ∀ k, k < 32 →
    bitOf (leAt (formElem o k5 cs i) 0 4) k = cs.any (fun c => bitOf (leAt c (4 * i) 4) k)) ∧
  (∀ (o : CollOp) (c d : List Byte) (i : Nat), o.red = 0 →
    formElem o false [c] i = typeBytes o.oty (typeElem o.ity c i) ∧
    formElem o false [c, d] i = typeBytes o.oty (add48 (typeElem o.ity c i) (typeElem o.ity d i)))

/-- Sweeps, fetches, audits, exports and imports run their shards. A dispatched UPD.SWEEP of each mode keeps its block,
runs every descriptor in table order and ends with the first failing shard's status once none waits; a block out of
range ends it with MALFORMED, detail 19. FETCH_RETRY_EXPIRY runs the waiting shards again; BACKGROUND_AUDIT_DONE
runs the oldest background audit, which stays while a copy of it waits. EXPORT and IMPORT run their stream and end
with its status and their counts; an export that names format 5 without K5 emulation ends with ARITH_MISMATCH, 3.
What needs a remote request waits for room in the transaction table. A word lost on a data-path stage ends a sweep
or an import with PARITY, 10. (13_training_state) -/
def Obligations.UpdateSweeps : Prop :=
  (∀ (s : State) (q idx : Nat) (e : CmdEntry) (sur : Surround), Dispatches s q idx e sur → sur.hits = [] → sur.stage = {} →
    BlockAt s e 64 64 → e.opcode = 0x0401 →
    let b := peek s e.block 64
    let o := updOpOf b
    let s1 := putCmd s { e with stage := .running, opnd := b }
    let r := runShards (⟨q, idx, e.epoch, o, sur⟩ : UpdCtx) s1 (List.replicate o.shards { pend := true })
    ∀ row ∈ [(Instr.updSweepAdamw q idx sur, 0), (.updSweepMomentum q idx sur, 1), (.updSweepOuter q idx sur, 2),
        (.updSweepFetch q idx sur, 3), (.updSweepAudit q idx sur, 4)], min 4 o.mode = row.2 →
      (2 < row.2 → txnRoom s 2 = false → exec row.1 s = .next s) ∧
      ((row.2 ≤ 2 ∨ txnRoom s 2 = true) → updBlockOk b o = true →
        exec row.1 s = .next (takeSlot (finishUpd r.1 q idx o r.2) q)) ∧
      ((row.2 ≤ 2 ∨ txnRoom s 2 = true) → updBlockOk b o = false →
        exec row.1 s = .next (takeSlot (endCmd s1 q idx 0x01 19 []) q))) ∧
  (∀ (s : State) (q idx : Nat) (e : CmdEntry) (r : FetchRun) (sur : Surround), q < 64 → s.life = .running →
    findCmd s q idx = some e → s.upd.runs.find? (fun r => r.q == q && r.idx == idx) = some r →
    let o := updOpOf e.opnd
    let v := runShards (⟨q, idx, e.epoch, o, sur⟩ : UpdCtx) s r.outs
    sur.stage = {} → exec (.fetchRetryExpiry q idx sur) s = .next (if txnRoom s 2 then finishUpd v.1 q idx o v.2 else s)) ∧
  (∀ (s : State) (a : BgAudit) (rest : List BgAudit) (sur : Surround), s.life = .running → s.upd.audits = a :: rest →
    sur.stage = {} →
    let o := updOpOf a.block
    let t := runShards (⟨64, 0, getF s CMD_EPOCH_current, { o with mode := 4, copies := o.mode == 3 }, sur⟩ : UpdCtx) s
      (if a.outs = [] then List.replicate o.shards { pend := true } else a.outs)
    let left := if t.2.any (·.pend) = true then { a with outs := t.2 } :: rest else rest
    exec (.backgroundAuditDone sur) s = .next (if txnRoom s 2 then setF { t.1 with
      upd := { t.1.upd with audits := left } } UPD_AUDIT_busy (b2n (!left.isEmpty)) else s)) ∧
  (∀ (s : State) (q idx : Nat) (e : CmdEntry) (sur : Surround) (k : Nat) (o : Bool), Dispatches s q idx e sur →
    sur.stage = ⟨k, some o⟩ →
    let t := takeSlot (endCmd (pathFailed (if k = 0 then s else satF s DEV_REPLAY_path_replays k) pgUPD e.cmdId o) q idx
      0x0B 10 []) q
    (e.opcode = 0x0401 → blockField s e 24 1 = 0 → exec (.updSweepAdamw q idx sur) s = .next t) ∧
    (e.opcode = 0x0411 → exec (.importCmd q idx sur) s = .next t)) ∧
  (∀ (s : State) (q idx : Nat) (e : CmdEntry) (sur : Surround), Dispatches s q idx e sur → sur.hits = [] → sur.stage = {} →
    BlockAt s e 64 64 →
    let b := peek s e.block 64
    let x := expOpOf b
    let s1 := putCmd s { e with stage := .running }
    let c : UpdCtx := ⟨q, idx, e.epoch, updOpOf [], sur⟩
    let k5Named := !k5Job s && (x.wFmt == 5 || x.m1Fmt == 5 || x.m2Fmt == 5)
    let room := (deviceOf s (leAt b 8 8)).1.isNone || txnRoom s 5
    (e.opcode = 0x0410 → room = false → exec (.exportCmd q idx sur) s = .next s) ∧
    (e.opcode = 0x0410 → room = true → exportOk b x = true → k5Named = false →
      ∀ t acc r, exportRun c x s1 = (t, acc, r) → exec (.exportCmd q idx sur) s =
        .next (takeSlot (endCmd t q idx ((r.map (·.1)).getD 0) ((r.map (·.2)).getD 0)
          (natLe 4 (acc.pos / 64) ++ [0, 0, 0, 0] ++ natLe 4 acc.records)) q)) ∧
    (e.opcode = 0x0410 → room = true → exportOk b x = true → k5Named = true →
      exec (.exportCmd q idx sur) s = .next (takeSlot (endCmd s1 q idx 0x10 3 []) q)) ∧
    (e.opcode = 0x0410 → room = true → exportOk b x = false →
      exec (.exportCmd q idx sur) s = .next (takeSlot (endCmd s1 q idx 0x01 19 []) q)) ∧
    (e.opcode = 0x0411 → importOk b x = true → ∀ t done n r, importRun c x s1 = (t, done, n, r) →
      exec (.importCmd q idx sur) s = .next (takeSlot (endCmd t q idx ((r.map (·.1)).getD 0) ((r.map (·.2)).getD 0)
        (natLe 4 done ++ [0, 0, 0, 0] ++ natLe 4 n)) q)) ∧
    (e.opcode = 0x0411 → importOk b x = false →
      exec (.importCmd q idx sur) s = .next (takeSlot (endCmd s1 q idx 0x01 19 []) q)))

/-- A step whose flag is set rewrites the commit record alone. With the step's overflow flag set, a sweep of a shard
writes its 64-byte record, marked skipped, with loss_log2 lowered by one but not below 0 and clean 0, naming the
slot and digests it named before, and no other byte of memory; the shard counts as committed and skipped. The next
loss_log2 differs from the last by at most one, never passes 24, and grows only without the flag.
(13_training_state) -/
def Obligations.SkippedStep : Prop :=
  (∀ (c : UpdCtx) (s : State) (d : Shard) (p : CommitRec), s.memWf = true → stepFlag s c.o.step = true → c.sur.hits = [] →
    Sound s d.commit 64 → d.commit % 64 = 0 →
    let next : CommitRec := { p with
      mode := c.o.mode, skipped := true, suspect := false, imported := false, k5 := k5Job s, step := c.o.step,
      epoch := c.epoch, loss := p.loss - 1, used := p.loss, clean := 0, count := d.count, tensor := d.tensor, layer := d.layer }
    ∃ t, sweepStep c s d p = (t, .ok { committed := true, skip := true, loss := p.loss - 1 }) ∧
      (∀ x, memByte t x = if d.commit ≤ x ∧ x < d.commit + 64
        then (commitBytes { next with stamp := timeNow s }).getD (x - d.commit) 0 else memByte s x) ∧
      t.lanes = s.lanes ∧ t.cmds = s.cmds) ∧
  (∀ (p : CommitRec) (flag : Bool) (g : Nat), p.loss ≤ 24 →
    (lossNext p flag g).1 ≤ 24 ∧ p.loss - 1 ≤ (lossNext p flag g).1 ∧ (lossNext p flag g).1 ≤ p.loss + 1 ∧
    ((lossNext p flag g).2.2 = true → flag = false ∧ (lossNext p flag g).1 = p.loss + 1))

/-- BATON.SEND's operations begin, send, end or are refused. A dispatched BATON.SEND of each operation reads its block:
a bad one ends with MALFORMED, detail 28; relay, flag and transfer end with detail 29 or 30 where a destination
cannot be reached, else send their messages; manifest and baton send to the other participants of the mask, a baton
only with a cellar slot and a current table, numbered on from those formed of its round; merge and rebase run in the
update engine when it is free, else wait. A resend timeout sends every unacknowledged message again; a relay timeout
withdraws and ends a relay, and skips destinations of a baton. (14_milant) -/
def Obligations.BatonSends : Prop :=
  (∀ (s : State) (q idx : Nat) (e : CmdEntry) (sur : Surround), Dispatches s q idx e sur → sur.hits = [] → sur.stage = {} →
    BlockAt s e 64 64 → e.opcode = 0x0501 →
    let b := peek s e.block 64
    let o := batonOpOf b
    let gone := fun (hs : List Parcel) => hs.findSome? (pathFault s)
    let goes := fun (hs : List Parcel) (pre : List Byte) (src len : Nat) =>
      settleMil (hs.foldl (fun s h => launch s sur e h pre src len) (beginMil s e o)) q idx
    let desc := fun (dst len : Nat) => relayDescriptor dst o.sigIndex e.epoch o.sigAdd o.step len
    let relay := [buildingHead s 1 o.stream o.dest o.dstRank (32 + o.len)]
    let flags := ((List.range 4).filter (fun n => bitOf o.dest n && n != myBuilding s)).map
      (fun n => buildingHead s 2 0xFFFE n 0 32)
    let transfer := [participantHead s 5 o.dest (32 + o.len)]
    let others := (List.range 64).filter (fun n => bitOf o.mask n && n != myParticipant s)
    (∀ row ∈ [(Instr.batonSendRelay q idx sur, 0), (.batonSendFlag q idx sur, 1), (.batonSendBaton q idx sur, 2),
        (.batonSendManifest q idx sur, 4), (.batonSendTransfer q idx sur, 5)], (o.op = row.2 ∨ (row.2 = 0 ∧ 6 < o.op)) →
      batonOpOk b o = false → exec row.1 s = .next (takeSlot (endCmd s q idx 0x01 28 []) q)) ∧
    (∀ d, batonOpOk b o = true → gone relay = some d → o.op = 0 →
      exec (.batonSendRelay q idx sur) s = .next (takeSlot (endCmd s q idx 0x01 d []) q)) ∧
    (batonOpOk b o = true → gone relay = none → o.op = 0 →
      exec (.batonSendRelay q idx sur) s = .next (takeSlot (goes relay (desc o.dst o.len) o.src o.len) q)) ∧
    (batonOpOk b o = true → gone flags = none → o.op = 1 →
      exec (.batonSendFlag q idx sur) s = .next (takeSlot (goes flags (desc (b2n o.ovf) 0) 0 0) q)) ∧
    (batonOpOk b o = true → gone transfer = none → o.op = 5 →
      exec (.batonSendTransfer q idx sur) s = .next (takeSlot (goes transfer (desc o.dst o.len) o.src o.len) q)) ∧
    (batonOpOk b o = true → o.op = 4 → exec (.batonSendManifest q idx sur) s =
      .next (takeSlot (settleMil (others.foldl (fun s n => launch s sur e (participantHead s 4 n o.len) [] o.src o.len)
        (beginMil s e o)) q idx) q)) ∧
    (batonOpOk b o = true → o.op = 2 →
      let first := formedBefore s o.round
      (slotRoom s = 0 → exec (.batonSendBaton q idx sur) s = .next (takeSlot (endCmd s q idx 0x01 33 []) q)) ∧
      (slotRoom s ≠ 0 → (cbzSlot s o.codec).hasCurrent = false →
        exec (.batonSendBaton q idx sur) s = .next (takeSlot (endCmd s q idx 0x01 13 []) q)) ∧
      (slotRoom s ≠ 0 → (cbzSlot s o.codec).hasCurrent = true → exec (.batonSendBaton q idx sur) s =
        .next (takeSlot (settleMil (noteFormed ((List.range o.len).foldl (sendBaton sur o e first) (beginMil s e o)) o.round
          (first + o.len)) q idx) q))) ∧
    (batonOpOk b o = true → o.op = 3 → updFree s = true →
      exec (.batonSendMerge q idx sur) s = .next (takeSlot (runMerge sur o s e) q)) ∧
    (batonOpOk b o = true → o.op = 6 → updFree s = true → exec (.batonSendRebase q idx sur) s =
      .next (takeSlot (overShards (mergeCtx sur o e) o e (rebaseShard (mergeCtx sur o e))
        (putCmd s { e with stage := .running })) q)) ∧
    (updFree s = false → exec (.batonSendMerge q idx sur) s = .next s ∧ exec (.batonSendRebase q idx sur) s = .next s)) ∧
  (∀ (s : State) (q idx : Nat) (sur : Surround), q < 64 → s.life = .running → sur.stage = {} →
    exec (.resendTimeout q idx sur) s = .next
      (((sendsOf s q idx).filter (fun m => !m.acked && !m.dead)).foldl (fun s m =>
        if s.mil.runs.any (fun r => r.q == q && r.idx == idx) then sendMsg s sur.hits m true (allPieces m) else s) s)) ∧
  (∀ (s : State) (q idx : Nat) (r : MilRun), q < 64 → s.life = .running →
    s.mil.runs.find? (fun r => r.q == q && r.idx == idx) = some r →
    ((r.op = 2 ∨ r.op = 4) → exec (.relayTimeout q idx) s = .next (settleMil { s with
      mil := { s.mil with sends := s.mil.sends.map (fun m =>
        if m.q = q ∧ m.idx = idx ∧ !m.acked then { m with dead := true } else m) } } q idx)) ∧
    (r.op ≠ 2 → r.op ≠ 4 → exec (.relayTimeout q idx) s = .next (endMil (((sendsOf s q idx).filter
      (fun m => !m.acked)).foldl (fun s m => sendCtlParcel (raiseEv s (pgMIL 0) ⟨0x5C04, 3⟩
        [m.head.dstRank, m.head.stream, m.head.seq]) m.head false [entryFor m.head 3]) s) q idx 0x0F 0)))

/-- Flits are taken in order, replayed, and lanes swapped for the spare. On a trained port a flit goes through the
decoder, which counts the symbols corrected on each lane and the codeword that begins in it where that is
uncorrectable; one with a bit in such a codeword, damaged or failing its CRC is counted and asks for a replay; the
expected flit's fields and payload are taken and acknowledged; a null flit's fields are taken; another is counted. A
timeout replays what is unacknowledged, or takes the port down at the limit. Loss of light takes it down with cause
2; loss of lock or corrected symbols past the limit ask for a swap; the ends agree, drain, train the spare and
resume, and a lost lane with the spare in use takes the port down. (11_stadium_fabric, 17_recovery) -/
def Obligations.LinkLayer : Prop :=
  (∀ (s : State) (n : Nat) (c : List Nat) (unc : Bool), tableWf (fun _ => ({} : PortSt)) s.fab.ports = true →
    let p := port s n
    let d := decodeFlit s n c unc
    let begins := p.rxBits = 0 ∨ 2570 < p.rxBits + 2048
    (d.2 = true ↔ ((begins ∧ unc = true) ∨ (p.rxBits ≠ 0 ∧ p.badWord = true))) ∧
    d.1 = { s with
      regs := d.1.regs, fab := { s.fab with ports := d.1.fab.ports } } ∧
    d.1.regs = (satF (satF s (PORT_FEC_corrected n) (c.take 8).sum) (PORT_FEC_uncorrectable n)
      (if begins ∧ unc = true then 1 else 0)).regs ∧
    (port d.1 n).rxBits = (p.rxBits + 2048) % 2570 ∧ (port d.1 n).badWord = (if begins then unc else p.badWord) ∧
    (tableWf (fun _ => (0 : Nat)) p.laneCorrected = true → ∀ l, l < 8 →
      tget (fun _ => 0) (port d.1 n).laneCorrected l = tget (fun _ => 0) p.laneCorrected l + c.getD l 0)) ∧
  (∀ (s : State) (n : Nat) (c : List Nat) (f : Flit) (unc par bad : Bool), n < 20 → s.life = .running →
    (port s n).train = .trained →
    let d := decodeFlit s n c unc
    let s1 := if par then satF d.1 DEV_REPLAY_path_replays 1 else d.1
    let good := d.2 = false ∧ par = false ∧ f.crc = crc32c (flitBytes f)
    (¬ good → exec (.flitReceive n f c unc par bad) s = .next (sendNak (satF s1 (PORT_CRC_crc_fail n) 1) n)) ∧
    (good → f.null = true → exec (.flitReceive n f c unc par bad) s = .next (takeFields s1 n f bad)) ∧
    (good → f.null = false → f.seq = (port s1 n).expected →
      let s2 := deliverFlit (takeFields s1 n f bad) n f
      (port s2 n).train = .trained → exec (.flitReceive n f c unc par bad) s = .next (sendNull (setPort s2 n
        { port s2 n with expected := ((port s2 n).expected + 1) % 65536, naking := false }) n false)) ∧
    (good → f.null = false → f.seq ≠ (port s1 n).expected →
      let s2 := takeFields (satF s1 (PORT_CRC_seq_fail n) 1) n f bad
      exec (.flitReceive n f c unc par bad) s = .next
        (if (port s2 n).train = .trained ∧ f.seq ≠ ((port s2 n).expected + 65535) % 65536 then sendNak s2 n else s2))) ∧
  (∀ (s : State) (n : Nat), n < 20 → s.life = .running →
    ((port s n).replay = [] → exec (.replayTimeout n false) s = .next s) ∧
    ((port s n).replay ≠ [] →
      let p := port s n
      let s1 := satF (setPort s n { p with replayRun := p.replayRun + 1, replayFrom := some (lastAcked p) })
        (PORT_REPLAY_replays n) 1
      (p.replayRun + 1 < replayLimit s1 n →
        exec (.replayTimeout n false) s = .next (p.replay.foldl (resendFlit n) s1)) ∧
      (replayLimit s1 n ≤ p.replayRun + 1 → exec (.replayTimeout n false) s =
        .next (portDown (raiseEv s1 pgFAB evReplayExhausted [n, lastAcked p]) n 1)) ∧
      exec (.replayTimeout n true) s = .next (portDown s n 1))) ∧
  (∀ (s : State) (n lane k : Nat), n < 20 → lane < 8 → s.life = .running → (port s n).train = .trained →
    let p := port s n
    let spare := isSet s (PORT_STATE_spare_used n)
    exec (.lossOfLight n) s = .next (portDown s n 2) ∧
    (spare = true → getF s (PORT_STATE_spare_for n) = lane → exec (.laneLossOfLock n lane) s = .next (portDown s n 3)) ∧
    (spare = true → getF s (PORT_STATE_spare_for n) ≠ lane →
      exec (.laneLossOfLock n lane) s = .next (portDown (raiseEv s (pgPORT n) ⟨0x5404, 3⟩ [n, lane]) n 4)) ∧
    (spare = false → p.swap = .none → isSet s (PORT_LANE_auto_swap n) = false →
      exec (.laneLossOfLock n lane) s = .next (portDown s n 3)) ∧
    (spare = false → p.swap = .none → isSet s (PORT_LANE_auto_swap n) = true →
      exec (.laneLossOfLock n lane) s = .next (requestSwap s n lane true) ∧
      (2 ^ getF s (PORT_LANE_lane_log2 n) < k → exec (.correctedSymbolLimit n lane k) s = .next (requestSwap s n lane false)) ∧
      (k ≤ 2 ^ getF s (PORT_LANE_lane_log2 n) → exec (.correctedSymbolLimit n lane k) s = .next s)) ∧
    (spare = true → getF s (PORT_STATE_spare_for n) = lane → exec (.swapRequestReceived n lane false) s = .next s) ∧
    (spare = true → getF s (PORT_STATE_spare_for n) ≠ lane → exec (.swapRequestReceived n lane false) s =
      .next (portDown (raiseEv s (pgPORT n) ⟨0x5404, 3⟩ [n, lane]) n 4)) ∧
    (spare = false → p.swap = .none → exec (.swapRequestReceived n lane false) s =
      .next (let s1 := sendCtl (setPort s n { p with swap := .none }) n (.swapAnswer lane)
        setPort s1 n { port s1 n with swap := .draining lane })) ∧
    (p.swap = .requested lane →
      exec (.swapRequestReceived n lane true) s = .next (setPort s n { p with swap := .draining lane })) ∧
    (p.swap = .draining lane → p.replay = [] → enginesBusy s < 4 →
      exec (.swapDrainDone n) s = .next (setPort s n { p with swap := .training lane })) ∧
    (p.swap = .training lane → p.swapNext = none →
      let s1 := freshTaps (setPort s n { p with swap := .none, swapNext := none, swapLock := false }) n
      let s2 := setF (setF (setF s1 (PORT_STATE_spare_used n) 1) (PORT_STATE_spare_for n) lane) (PORT_LANE_swap n) 0
      exec (.spareLaneTrained n k) s = .next (pump (raiseEv s2 (pgPORT n) ⟨0x5403, 2⟩ [n, lane, k]) n))) ∧
  (∀ (s : State) (n : Nat) (v : Word), n < 20 → regsOpen s (pgPORT n) = true →
    let w := (v ||| 8).toNat
    let s1 := setF (setF (setF s (PORT_LANE_swap_lane n) w) (PORT_LANE_auto_swap n) (bitsOf w 4 1))
      (PORT_LANE_lane_log2 n) (bitsOf w 8 5)
    ((isSet s1 (PORT_STATE_spare_used n) = true ∨ (port s n).train ≠ .trained) → exec (.laneSwapHost n v) s = .next s1) ∧
    (isSet s1 (PORT_STATE_spare_used n) = false → (port s n).train = .trained →
      exec (.laneSwapHost n v) s = .next (requestSwap s1 n (w % 8) false)))

/-- Requests are performed in order, answered, forwarded or lost. A packet for this module leaves its receive buffer and
arrives; a request before fabric-ready is answered not-ready; the next in order is performed and those it uncovers
after it; an early one is kept, a performed one answered again. A read of sound memory is answered with its bytes, a
write stores them, an atomic returns the old value, a watch is answered once reached, else held; one whose word is
lost on the way to memory is refused, with dev.path.failed. A response frees its transaction, one that says route
down reroutes, one that fails parity is asked for again; unmatched it is counted. A packet for another device is
sent on, but before fabric-ready a request is answered not-ready. A transaction past its timeout is lost, except a
watch; a reroute's drain expiry finishes it. (11_stadium_fabric, 04_registers_host, 05_commands) -/
def Obligations.FabricRequests : Prop :=
  (∀ (s t : State) (n c : Nat) (p : Packet) (x : Meet), n < 20 → s.life = .running → takePacket s n p = some (c, t) →
    let mem := memChannel p.vc = true
    (p.dst = myId s → ∀ row ∈ [(Instr.fabricRead n p x, 1), (.fabricWrite n p x, 2), (.fabricMaskedWrite n p x, 3),
        (.fabricAtomicAdd n p x, 4), (.fabricAtomicSwap n p x, 5), (.fabricCompareAndSwap n p x, 6), (.fabricWatch n p x, 7)],
      mem → p.op = row.2 → exec row.1 s = .next (arrive t p x)) ∧
    (p.dst = myId s → p.vc = 6 → (p.op = 1 ∨ p.op = 2) → exec (.partnerRegisterAccess n p x) s = .next (arrive t p x)) ∧
    (p.dst = myId s → p.vc = 6 → p.op = 8 → exec (.insertRequest n p x) s = .next (arrive t p x)) ∧
    (p.dst = myId s → p.vc = 6 → p.op = 9 → exec (.insertForward n p x) s = .next (arrive t p x)) ∧
    (p.dst = myId s → p.vc = 3 → t.fab.txns.find? (fun e => e.pkt.tag == p.tag) = none →
      exec (.fabricResponse n p false) s = .next (satF t FAB_DUP_unmatched 1)) ∧
    (∀ e, p.dst = myId s → p.vc = 3 → t.fab.txns.find? (fun e => e.pkt.tag == p.tag) = some e →
      (p.status = 4 → exec (.fabricResponse n p false) s =
        .next (settleReroute (startReroute (putTxn t { e with down := true }) e.pkt.dst 2) e.pkt.dst)) ∧
      exec (.fabricResponse n p true) s = .next (damagedResponse t e)) ∧
    (∀ e, p.dst = myId s → p.vc = 3 → t.fab.txns.find? (fun e => e.pkt.tag == p.tag) = some e → p.status ≠ 4 →
      exec (.fabricResponse n p false) s = .next (settleReroute (deliver (dropTxn t e.pkt.tag) e
        (if p.status = 3 then 4 else p.status) (bytesAt p.data 0 p.length)) e.pkt.dst)) ∧
    (p.dst ≠ myId s →
      let next := nextPort t p.dst p.route
      let early := memChannel p.vc && !isSet t DEV_START_fabric_ready
      (early = true → exec (.packetForward n p) s = .next (respond t p 2 [])) ∧
      (early = false → portState t next = 3 → exec (.packetForward n p) s =
        .next (enqueue t next (flitsOf p (hopClass t p.dst p.route next (some (n, c)))))) ∧
      (early = false → portState t next ≠ 3 → p.vc = 3 → exec (.packetForward n p) s = .next t) ∧
      (early = false → portState t next ≠ 3 → p.vc ≠ 3 → exec (.packetForward n p) s = .next (respond t p 4 [])))) ∧
  (∀ (s : State) (p : Packet) (x : Meet),
    let key := p.src * 8 + p.vc
    let d := (p.seq + 2 ^ 32 - tget (fun _ => 0) s.fab.inSeq key) % 2 ^ 32
    let known := s.fab.inSeq.any (fun e => e.1 == key)
    let open' := p.vc = 6 ∨ isSet s DEV_START_fabric_ready = true
    let inOrder := known = false ∨ (p.first = true ∧ p.reissue = false) ∨ d = 0
    (¬ open' → arrive s p x = respond s p 2 []) ∧
    (open' → inOrder → arrive s p x = performEarly 64 (perform { s with
      fab := { s.fab with inSeq := tput key ((p.seq + 1) % 2 ^ 32) s.fab.inSeq } } p x) key) ∧
    (open' → ¬ inOrder → d < 4096 → s.fab.early.length < 64 →
      arrive s p x = { s with fab := { s.fab with early := s.fab.early ++ [(p, x)] } }) ∧
    (open' → ¬ inOrder → 4096 ≤ d → (p.op = 2 ∨ p.op = 3) → arrive s p x = respond (satF s FAB_DUP_duplicates 1) p 0 [])) ∧
  (∀ (s : State) (p : Packet) (x : Meet) (k : Nat) (o : Bool), x.bad = false → p.vc = 2 → regionOf p.addr ≠ .pages →
    x.stage = ⟨k, some o⟩ → perform s p x =
      respond (pathFailed (if k = 0 then s else satF s DEV_REPLAY_path_replays k) pgFAB p.src o) p 1 []) ∧
  (∀ (s : State) (p : Packet) (x : Meet), x.hits = [] → x.bad = false → x.stage = {} →
    (p.vc = 2 ∨ p.vc = 4 ∨ p.vc = 5) → s.memWf = true →
    memoryUp s p.addr p.length = true → Sound s p.addr p.length →
    let old := leNat (peek s p.addr 8)
    let bytes := bytesAt p.data 0 p.length
    (p.op = 1 → rangeOk p = true → perform s p x = respond s p 0 (peek s p.addr p.length)) ∧
    let held := ∀ l ∈ linesOf p.addr p.length, initialised s l = true
    (p.op = 2 → rangeOk p = true → ∃ t, perform s p x = respond t p 0 [] ∧ (held → t = { s with mem := t.mem }) ∧
      t = { s with
        mem := t.mem, regs := t.regs, ev := t.ev, out := t.out } ∧
      ∀ a, memByte t a = if p.addr ≤ a ∧ a < p.addr + p.length then bytes.getD (a - p.addr) 0 else memByte s a) ∧
    (p.op = 4 → p.length = 8 → p.addr % 8 = 0 → ∃ t, perform s p x = respond t p 0 (natLe 8 old) ∧
      peek t p.addr 8 = natLe 8 ((old + p.operand) % 2 ^ 64) ∧
      (∀ a, (a < p.addr ∨ p.addr + 8 ≤ a) → memByte t a = memByte s a) ∧ (held → t.regs = s.regs) ∧ t.lanes = s.lanes ∧
      t.fab.results.getLast? = some ⟨p.src, p.vc, p.seq, old⟩)) ∧
  (∀ (s : State) (p : Packet) (x : Meet) (n : Nat), x.bad = false → x.stage = {} → x.counterFails = false → p.vc = 2 → p.op = 7 → n < 4096 →
    p.addr = 0x120000000000 + 8 * n → lapHeld s n = false →
    (lapReached s n p.operand = true → perform s p x = respond s p 0 []) ∧
    (lapReached s n p.operand = false → s.laps.watches.length < 1024 → perform s p x = { s with
      laps := { s.laps with watches := s.laps.watches ++ [{ pkt := p, counter := n, value := p.operand }] } })) ∧
  (∀ (s : State) (tag : Nat) (e : Txn), s.life = .running → s.fab.txns.find? (fun t => t.pkt.tag == tag) = some e →
    (e.pkt.op = 7 → exec (.txnTimeout tag) s = .next s) ∧
    (e.pkt.op ≠ 7 → exec (.txnTimeout tag) s = .next (settleReroute (declareLost s e) e.pkt.dst))) ∧
  (∀ (s : State) (d why : Nat), s.life = .running →
    (s.fab.rerouting.find? (fun e => e.1 == d) = some (d, why) →
      exec (.rerouteDrainExpiry d) s = .next (finishReroute s d why)) ∧
    (s.fab.rerouting.find? (fun e => e.1 == d) = none → exec (.rerouteDrainExpiry d) s = .next s))

/-- Milant links, frames, parcels and erasure groups. A port in the profile's set comes up, where REFCLK_NET is there,
and goes down, with its event and its page's state; a foreign frame on a live link is counted. A frame adds its
codewords to the FEC counters; one of another sender, or not of 64 to 9,216 bytes, is dropped and counted. One under
an association not installed, or whose ICV fails, is dropped and counted high; one behind the replay window low;
another moves the association on, is kept for its group, and its parcel is taken with those of the frames that its
groups give back. A parcel handed over by a device counts from fabric-ready on; one bound elsewhere is noted and
sent there; one that lands joins its message, and what may be delivered is. Control entries act: an acknowledge
marks the message and settles its command, a re-send sends the parcels named, a withdraw of a stream not yet known
skips the number. An acknowledge that says a baton passed on is stored is heard. At its hold a group's four repair
frames leave; a repair frame joins its group, kept while more frames lack than repairs came; at the wait's end the
group is counted and abandoned, and the messages of that port, put together here or handed on, ask for what they
lack. (14_milant) -/
def Obligations.MilantRows : Prop :=
  (∀ (s : State) (n : Nat), n < 2 → s.life = .running →
    (bitOf s.pac.milPorts n = true → isSet s DEV_START_steward_ready = true →
      (milUp s n = false → isSet s CLK_STATUS_net_ref_ok = false → exec (.milantLinkUp n) s = .next s) ∧
      (milUp s n = false → isSet s CLK_STATUS_net_ref_ok = true → exec (.milantLinkUp n) s =
        .next (raiseEv (upBlock (freshTaps (setF s (MIL_PORT_STATE_link n) 2) (20 + n)) (pgMIL n)) (pgMIL n) ⟨0x5C02, 1⟩ [n])) ∧
      (milUp s n = true → exec (.milantLinkDown n) s =
        .next (raiseEv (downBlock (setF s (MIL_PORT_STATE_link n) 0) (pgMIL n)) (pgMIL n) ⟨0x5C01, 3⟩ [n]))) ∧
    (milUp s n = true → exec (.foreignFrame n) s = .next (satF s (MIL_DROP_low n) 1)) ∧
    (milUp s n = false → exec (.foreignFrame n) s = .next s) ∧
    ((milPort s n).group = [] → exec (.groupHoldExpiry n) s = .next s) ∧
    ((milPort s n).group ≠ [] →
      let p := milPort s n
      let out := (List.range 4).map (fun j => Output.repair n (toPeer s n) (repairOf (p.live.getD 0) p.groupNo j p.group))
      exec (.groupHoldExpiry n) s =
        .next (setMilPort { s with out := s.out ++ out } n { p with group := [], groupNo := p.groupNo + 1 }))) ∧
  (∀ (s : State) (n : Nat) (f : DataFrame) (found : List DataFrame) (x : Meet), n < 2 → s.life = .running → milUp s n = true →
    let p := milPort s n
    let s1 := satF (satF s (MIL_FEC_low n) f.wire.corrected) (MIL_FEC_high n) f.wire.uncorrectable
    let bytes := 16 + 4 * b2n f.wire.vlan + f.span.length
    ∀ row ∈ [(Instr.relayParcel n f found x, f.parcel.kind == 1 || f.parcel.kind == 0 || decide (7 ≤ f.parcel.kind)),
        (.flagParcel n f found x, f.parcel.kind == 2), (.batonParcel n f found x, f.parcel.kind == 3),
        (.manifestParcel n f found x, f.parcel.kind == 4), (.transferParcel n f found x, f.parcel.kind == 5),
        (.controlAcknowledge n f found x, f.parcel.kind == 6 && ctlCode f.parcel != 2 && ctlCode f.parcel != 3),
        (.controlResend n f found x, f.parcel.kind == 6 && ctlCode f.parcel == 2),
        (.controlWithdraw n f found x, f.parcel.kind == 6 && ctlCode f.parcel == 3)], row.2 = true →
      (f.wire.peer ≠ peerAddr s n ∨ bytes < 64 ∨ 9216 < bytes → exec row.1 s = .next (satF s1 (MIL_DROP_low n) 1)) ∧
      (f.wire.peer = peerAddr s n → 64 ≤ bytes → bytes ≤ 9216 →
        (p.rx.find? (fun a => a.an == f.an) = none → exec row.1 s = .next (satF s1 (MIL_DROP_high n) 1)) ∧
        (∀ a, p.rx.find? (fun a => a.an == f.an) = some a →
          (f.icv = false → exec row.1 s = .next (satF s1 (MIL_DROP_high n) 1)) ∧
          (f.icv = true → f.pn + 8192 ≤ a.pn → exec row.1 s = .next (satF s1 (MIL_DROP_low n) 1)) ∧
          (f.icv = true → a.pn < f.pn + 8192 →
            let rx := p.rx.map (fun y => if y.an = f.an then { y with pn := max y.pn f.pn } else y)
            let t := setMilPort (setMilPort s1 n { p with rx := rx }) n { p with
              rx := rx,
              recent := ((f.an, f.pn, f.span) :: p.recent).take 8192 }
            let r := resolveGroups t n found
            exec row.1 s = .next ((f :: r.2).foldl (fun s g => takeParcel s n x g.parcel) r.1) ∧
            (p.groups = [] → r = (t, [])))))) ∧
  (∀ (s : State) (f : DataFrame) (found : List DataFrame) (x : Meet), s.life = .running →
    (isSet s DEV_START_fabric_ready = false → ∀ row ∈ [(Instr.relayParcel 2 f found x, 1), (.flagParcel 2 f found x, 2),
        (.batonParcel 2 f found x, 3), (.manifestParcel 2 f found x, 4), (.transferParcel 2 f found x, 5),
        (.controlAcknowledge 2 f found x, 6), (.controlResend 2 f found x, 6), (.controlWithdraw 2 f found x, 6)],
      f.parcel.kind = row.2 → exec row.1 s = .next s) ∧
    (isSet s DEV_START_fabric_ready = true →
    (∀ row ∈ [(Instr.relayParcel 2 f found x, 1), (.flagParcel 2 f found x, 2), (.batonParcel 2 f found x, 3),
        (.manifestParcel 2 f found x, 4), (.transferParcel 2 f found x, 5)], f.parcel.kind = row.2 →
      (hopOf s f.parcel = .here → exec row.1 s = .next (deliverAll (collect s 2 f.parcel) x)) ∧
      ((row.2 ≠ 3 ∨ f.parcel.dstBld ≠ myParticipant s) → hopOf s f.parcel ≠ .here →
        exec row.1 s = .next (sendHop (endTransit (noteTransit s 2 f.parcel) f.parcel) (hopOf s f.parcel) f.parcel))) ∧
    (f.parcel.kind = 6 → s.mil.waits.any (saysStored f.parcel) = true → ctlCode f.parcel = 1 →
      exec (.controlAcknowledge 2 f found x) s = .next (hearStored s 2 f.parcel)) ∧
    (f.parcel.kind = 6 → s.mil.waits.any (saysStored f.parcel) = false → hopOf s f.parcel = .here →
      let t := deliverAll ((ctlEntries f.parcel.body).foldl (fun s c =>
        if c.code = 1 then onAckEntry s f.parcel.srcBld c
        else if c.code = 2 then onResendEntry s x.hits f.parcel.srcBld c
        else if c.code = 3 then onWithdrawEntry s f.parcel.dstBld c else s) s) x
      (ctlCode f.parcel ≠ 2 → ctlCode f.parcel ≠ 3 → exec (.controlAcknowledge 2 f found x) s = .next t) ∧
      (ctlCode f.parcel = 2 → exec (.controlResend 2 f found x) s = .next t) ∧
      (ctlCode f.parcel = 3 → exec (.controlWithdraw 2 f found x) s = .next t)) ∧
    (f.parcel.kind = 6 → s.mil.waits.any (saysStored f.parcel) = false → ∀ c, ctlEntries f.parcel.body = [c] →
      (hopOf s f.parcel = .here →
        (c.code = 1 → exec (.controlAcknowledge 2 f found x) s = .next (deliverAll (onAckEntry s f.parcel.srcBld c) x)) ∧
        (c.code = 2 → exec (.controlResend 2 f found x) s = .next (deliverAll (onResendEntry s x.hits f.parcel.srcBld c) x)) ∧
        (c.code = 3 → exec (.controlWithdraw 2 f found x) s = .next (deliverAll (onWithdrawEntry s f.parcel.dstBld c) x))) ∧
      (hopOf s f.parcel ≠ .here →
        let t := sendHop (endTransit (noteTransit s 2 f.parcel) f.parcel) (hopOf s f.parcel) f.parcel
        (c.code = 1 → exec (.controlAcknowledge 2 f found x) s = .next t) ∧
        (c.code = 2 → exec (.controlResend 2 f found x) s = .next t) ∧
        (c.code = 3 → exec (.controlWithdraw 2 f found x) s = .next t))))) ∧
  (∀ (s : State) (m : MsgTx) (c : CtlEntry),
    let is := fun (y : MsgTx) => y.head.stream == c.stream && y.head.seq == c.seq && (streamOf y.head).src == c.src &&
      (streamOf y.head).dst == c.dst && y.head.dstBld == m.head.dstBld
    s.mil.sends.find? is = some m → onAckEntry s m.head.dstBld c =
      settleMil { s with mil := { s.mil with
        sends := s.mil.sends.map (fun y => if is y then { y with acked := true } else y) } } m.q m.idx) ∧
  (∀ (s : State) (d : Nat) (c : CtlEntry), findStream s ⟨c.stream, c.src, c.dst, d⟩ = none →
    findStream (onWithdrawEntry s d c) ⟨c.stream, c.src, c.dst, d⟩ =
      some { key := ⟨c.stream, c.src, c.dst, d⟩, began := 0, expected := c.seq + 1, skipped := [c.seq] }) ∧
  (∀ (s : State) (n : Nat) (r : Repair) (found : List DataFrame) (x : Meet), n < 2 → s.life = .running →
    (milUp s n = false → exec (.repairFrame n r found x) s = .next s) ∧
    let s1 := satF (satF s (MIL_FEC_low n) r.wire.corrected) (MIL_FEC_high n) r.wire.uncorrectable
    let bytes := 162 + 4 * b2n r.wire.vlan + r.bytes.length
    (milUp s n = true → (r.wire.peer ≠ peerAddr s n ∨ 9216 < bytes) →
      exec (.repairFrame n r found x) s = .next (satF s1 (MIL_DROP_low n) 1)) ∧
    (milUp s n = true → r.wire.peer = peerAddr s n → bytes ≤ 9216 → (4 ≤ r.j ∨ r.n = 0 ∨ 32 < r.n) →
      exec (.repairFrame n r found x) s = .next s1) ∧
    (milUp s n = true → r.wire.peer = peerAddr s n → bytes ≤ 9216 → r.j < 4 → 0 < r.n → r.n ≤ 32 → (milPort s n).groups = [] →
      let p := milPort s n
      let g : GroupRx := ⟨r.an, r.pnFirst, r.n, r.len, r.entries, [(r.j, r.bytes)], false⟩
      2 ≤ (missingOf p g).length →
        exec (.repairFrame n r found x) s = .next (setMilPort s1 n { p with groups := [g] }))) ∧
  (∀ (s : State) (n first : Nat), n < 2 → s.life = .running →
    let open' := fun (g : GroupRx) => g.pnFirst == first && !g.closed
    ((milPort s n).groups.find? open' = none → exec (.groupWaitExpiry n first) s = .next s) ∧
    (∀ g, (milPort s n).groups.find? open' = some g →
      let t := raiseEv (satF (closeRx s n g) (MIL_GROUPS_high n) 1) (pgMIL n) ⟨0x5C03, 2⟩
        [n, first, (missingOf (milPort s n) g).length]
      exec (.groupWaitExpiry n first) s = .next (((t.mil.msgs ++ t.mil.transit).filter (fun m => m.port == n)).foldl askResend t)))

/-- Time exchanges, PTP, the servo's holdover and the site master. Over a trained stadium port the slave asks its
source, a served port answers with its stamps, and the source's answer is an exchange; an exchange before the fourth
is kept with its round trip and offset, the fourth gives the offset of the smallest round trip, by which the clock
steps once, or is slewed: each idle nanosecond takes the frequency term and, for one interval, the phase term out of
it. In holdover the servo acquires again. A PTP message of the peer that passes its ICV and is of the domain acts:
Sync is stamped less the receive delay, Follow_Up of the same number is followed by Delay_Req, a served port answers
it, and Delay_Resp is an exchange with the asymmetry; of another domain it does nothing more. One sent is addressed
to 01-80-C2-00-00-0E, in the domain, under the next packet number. The sync timer sends Sync and Follow_Up; a lost
source starts holdover with its event. A write of TIM_SET_HI arms the seconds; the edge takes them, or rounds to the
nearest second, with the nanoseconds at 0, and the first armed edge makes the time valid. (14_milant,
03_first_second) -/
def Obligations.TimeRows : Prop :=
  (∀ (s : State) (n stamp : Nat), n < 20 → s.life = .running → (port s n).train = .trained →
    (getF s TIM_SRC_source = n →
      exec (.stadiumTimeExchange n none stamp) s = .next (sendCtl s n (.timeRequest (nowPs s))) ∧
      ∀ t1 t3 t4, exec (.stadiumTimeExchange n (some (.timeAnswer t3 t4 t1)) stamp) s =
        .next (takeExchange s t1 stamp t3 t4 0)) ∧
    (getF s TIM_SRC_source ≠ n → exec (.stadiumTimeExchange n none stamp) s = .next s ∧
      ∀ t1 t3 t4, exec (.stadiumTimeExchange n (some (.timeAnswer t3 t4 t1)) stamp) s = .next s) ∧
    (∀ t3, bitOf (getF s TIM_SERVE_stadium) n = true →
      exec (.stadiumTimeExchange n (some (.timeRequest t3)) stamp) s = .next (sendCtl s n (.timeAnswer t3 stamp (nowPs s)))) ∧
    (∀ t3, bitOf (getF s TIM_SERVE_stadium) n = false →
      exec (.stadiumTimeExchange n (some (.timeRequest t3)) stamp) s = .next s)) ∧
  (∀ (s : State) (t1 t2 t3 t4 a : Int), s.tim.exch.length < 3 →
    let kept := s.tim.exch ++ [((t4 - t1) - (t3 - t2), ((t2 - t1) - (t4 - t3) - a).tdiv 2)]
    let s1 := setF (setF s TIM_SERVO_state 1) TIM_SERVO_lock_count 0
    (getF s TIM_SERVO_state ≠ 3 → takeExchange s t1 t2 t3 t4 a = { s with tim := { s.tim with exch := kept } }) ∧
    (getF s TIM_SERVO_state = 3 → takeExchange s t1 t2 t3 t4 a = { s1 with tim := { s.tim with exch := kept } })) ∧
  (∀ (s : State) (t1 t2 t3 t4 a : Int), s.tim.exch.length = 3 → getF s TIM_SERVO_state ≠ 3 →
    let four := s.tim.exch ++ [((t4 - t1) - (t3 - t2), ((t2 - t1) - (t4 - t3) - a).tdiv 2)]
    ∃ best ∈ four, (∀ x ∈ four, best.1 ≤ x.1) ∧
      takeExchange s t1 t2 t3 t4 a = applyOffset { s with tim := { s.tim with exch := [] } } best.2) ∧
  (∀ (s : State) (theta : Int),
    let step := decide (getF s TIM_SERVO_state = 1 ∧ getF s TIM_GAIN_step_ns * 1000 < theta.natAbs)
    (step = true → ∃ k, applyOffset s theta = raiseEv (noteOffset { setPs s ((nowPs s : Int) - theta) with
        tim := { (setPs s ((nowPs s : Int) - theta)).tim with stepped := k } } theta) pgTIM ⟨0x6003, 2⟩ [unsigned 64 (theta / 1000)]) ∧
    (step = false → applyOffset s theta = settleTime (noteOffset { s with
        tim := { s.tim with
          freq := s.tim.freq + theta / 2 ^ getF s TIM_GAIN_ki_log2
          phase := theta / 2 ^ getF s TIM_GAIN_kp_log2
          phaseLeft := 250000000 } } theta))) ∧
  (∀ (s : State),
    let due := s.tim.slew + (s.tim.freq + (if 0 < s.tim.phaseLeft then s.tim.phase else 0)) * 65536
    let clock := fun (s : State) => (s.deviceTime : Int) * 65536 + s.tim.frac
    let t := tickClock s
    0 ≤ clock s + 65536 - due / 250000000000 → s.tim.frac < 65536 →
      clock t = clock s + 65536 - due / 250000000000 ∧ t.tim.frac < 65536 ∧ t.tim.slew = due % 250000000000 ∧
      t.tim.phaseLeft = s.tim.phaseLeft - 1 ∧
      { t with
        deviceTime := s.deviceTime,
        tim := s.tim } = s) ∧
  (∀ (s : State) (n : Nat) (m : PtpMsg) (a : Assoc), (milPort s n).liveTx = some a → milUp s n = true → a.pn < 2 ^ 62 →
    let dest : Addressing := ⟨0x0180C200000E, ownAddr s n,
      if isSet s (MIL_PORT_STATE_vlan_en n) then some (getF s (MIL_PORT_STATE_vlan_id n)) else none⟩
    sendPtp s n m = takePn { s with out := s.out ++ [.ptp n dest a.an a.pn (getF s TIM_SRC_domain) m] } n a) ∧
  (∀ (s : State) (n an pn domain stamp : Nat) (a : Assoc) (m : PtpMsg) (w : Wire), n < 2 → s.life = .running → milUp s n = true →
    let s1 := satF (satF s (MIL_FEC_low n) w.corrected) (MIL_FEC_high n) w.uncorrectable
    (∀ icv, w.peer ≠ peerAddr s n → exec (.ptpMessage n an pn icv domain ⟨m, w⟩ stamp) s = .next (satF s1 (MIL_DROP_low n) 1)) ∧
    (w.peer = peerAddr s n → (milPort s n).rx.find? (fun y => y.an == an) = none →
      ∀ icv, exec (.ptpMessage n an pn icv domain ⟨m, w⟩ stamp) s = .next (satF s1 (MIL_DROP_high n) 1)) ∧
    (w.peer = peerAddr s n → (milPort s n).rx.find? (fun y => y.an == an) = some a →
      (exec (.ptpMessage n an pn false domain ⟨m, w⟩ stamp) s = .next (satF s1 (MIL_DROP_high n) 1)) ∧
      (pn + 8192 ≤ a.pn → exec (.ptpMessage n an pn true domain ⟨m, w⟩ stamp) s = .next (satF s1 (MIL_DROP_low n) 1)) ∧
      (a.pn < pn + 8192 →
        let p := milPort s n
        let t := setMilPort s1 n { p with
          rx := p.rx.map (fun y => if y.an = an then { y with pn := max y.pn pn } else y) }
        (domain ≠ getF s TIM_SRC_domain → exec (.ptpMessage n an pn true domain ⟨m, w⟩ stamp) s = .next t) ∧
        (domain = getF s TIM_SRC_domain → exec (.ptpMessage n an pn true domain ⟨m, w⟩ stamp) s = .next (ptpIn t n m stamp))))) ∧
  (∀ (s : State) (n stamp q t1 t4 : Nat),
    let rx := ((stamp : Int) - rxDelay s n).toNat
    (getF s TIM_SRC_source = 20 + n →
      ptpIn s n (.sync q) stamp = { s with tim := { s.tim with sync := some (q, rx) } } ∧
      (∀ t2, s.tim.sync = some (q, t2) →
        let k := s.tim.seqOut % 65536
        let t3 := ((nowPs s : Int) + txDelay s n).toNat
        ptpIn s n (.followUp q t1) stamp = sendPtp { s with tim := { s.tim with
          sync := none
          asked := some (k, t1, t2, t3)
          seqOut := k + 1 } } n (.delayReq k)) ∧
      (∀ u1 u2 u3, s.tim.asked = some (q, u1, u2, u3) → ptpIn s n (.delayResp q t4) stamp =
        takeExchange { s with tim := { s.tim with asked := none } } u1 u2 u3 t4 (asymOf s n))) ∧
    (getF s TIM_SRC_source ≠ 20 + n → ptpIn s n (.sync q) stamp = s) ∧
    (bitOf (getF s TIM_SERVE_milant) n = true → ptpIn s n (.delayReq q) stamp = sendPtp s n (.delayResp q rx)) ∧
    (bitOf (getF s TIM_SERVE_milant) n = false → ptpIn s n (.delayReq q) stamp = s)) ∧
  (∀ (s : State) (n : Nat), n < 2 → s.life = .running →
    (bitOf (getF s TIM_SERVE_milant) n = false → exec (.ptpSyncTimer n) s = .next s) ∧
    (bitOf (getF s TIM_SERVE_milant) n = true →
      let k := s.tim.seqOut % 65536
      let t1 := ((nowPs s : Int) + txDelay s n).toNat
      exec (.ptpSyncTimer n) s =
        .next (sendPtp (sendPtp { s with tim := { s.tim with seqOut := k + 1 } } n (.sync k)) n (.followUp k t1)))) ∧
  (∀ (s : State), s.life = .running →
    ((getF s TIM_SRC_source < 22 ∧ (getF s TIM_SERVO_state = 1 ∨ getF s TIM_SERVO_state = 2)) →
      exec .timeSourceLost s = .next (raiseEv (setF { s with tim := { s.tim with
        exch := []
        sync := none
        asked := none } } TIM_SERVO_state 3) pgTIM ⟨0x6002, 2⟩ [getF s TIM_SRC_source])) ∧
    ((22 ≤ getF s TIM_SRC_source ∨ getF s TIM_SERVO_state = 0 ∨ getF s TIM_SERVO_state = 3) →
      exec .timeSourceLost s = .next s) ∧
    (getF s TIM_SRC_source ≠ 30 → exec .ppsEdge s = .next s) ∧
    (getF s TIM_SRC_source = 30 → s.tim.armed = none → ∃ t, exec .ppsEdge s = .next t ∧
      t.deviceTime = (s.deviceTime + 500000000) / 1000000000 * 1000000000 ∧ t.tim.frac = 0 ∧ t.regs = s.regs ∧
      { t with
        deviceTime := s.deviceTime,
        tim := s.tim } = s) ∧
    (∀ secs, s.regsWf = true → getF s TIM_SRC_source = 30 → s.tim.armed = some secs → ∃ t, exec .ppsEdge s = .next t ∧
      t.deviceTime = secs * 1000000000 ∧ t.tim.frac = 0 ∧ t.tim.armed = none ∧ getF t TIM_SERVO_state = 2 ∧
      isSet t DEV_START_time_valid = true ∧ (isSet s DEV_START_time_valid = true → t.ev = s.ev))) ∧
  (∀ (s : State) (v : Word), s.regsWf = true → regsOpen s pgTIM = true → ∃ t, exec (.timSetArm v) s = .next t ∧
    t.tim = { s.tim with armed := some (getF s TIM_SET_LO_seconds + 2 ^ 32 * (v.toNat % 65536)) } ∧
    getF t TIM_SET_HI_seconds = v.toNat % 65536 ∧ t.deviceTime = s.deviceTime ∧ t.ev = s.ev)

/-- Associations are installed, erased, scheduled, switched and retired. KEY_INSTALL fails, with nothing installed,
where the key does not unwrap or there is no key-encryption key (1, with its event), for an association number in
use (2) or a third one (3), and else installs: a receive association starts behind every packet number, a transmit
one at 1 and live where none is. KEY_ERASE refuses one not installed (4) or live (2), else erases. KEY_SCHED is
refused for time not valid, an instant nearer than 1 ms, or a transmit number not installed, in that order, else
armed with a grace of at least 1 ms. At the instant the transmitter closes its group, goes over and keeps the old
one until its last frame has left; the receiver's old one is in grace, and erased at its end with key.retired. With
a receive association go the frames and groups held of its number. (14_milant) -/
def Obligations.KeyRows : Prop :=
  (∀ (s : State) (v : Word), regsOpen s pgKEY = true →
    let n := bitsOf v.toNat 0 1
    let rx := bitOf v.toNat 1
    let an := bitsOf v.toNat 2 2
    let t := setF (setF (setF s KEY_INSTALL_port n) KEY_INSTALL_dir (bitsOf v.toNat 1 1)) KEY_INSTALL_an an
    let p := milPort t n
    let others := (if rx then p.rx else p.tx).filter (fun a => a.an != an)
    let used := if rx then p.rx.any (fun a => a.an == an) else p.live == some an
    let key := keyNumber t
    (∀ ok, ok = false ∨ s.stw.kek = none → exec (.keyInstall v ok) s =
      .next (raiseEv (setF t KEY_INSTALL_result 1) pgKEY ⟨0x6402, 3⟩ [n, b2n rx, an])) ∧
    (s.stw.kek.isSome = true → used = true → exec (.keyInstall v true) s = .next (setF t KEY_INSTALL_result 2)) ∧
    (s.stw.kek.isSome = true → used = false → 2 ≤ others.length →
      exec (.keyInstall v true) s = .next (setF t KEY_INSTALL_result 3)) ∧
    (used = false → others.length < 2 → s.stw.kek.isSome = true → rx = true → exec (.keyInstall v true) s =
      .next (raiseEv (showKeys (setF (setMilPort t n { p with rx := p.rx ++ [⟨an, key, 0⟩] }) KEY_INSTALL_result 0))
        pgKEY ⟨0x6401, 1⟩ [n, 1, an])) ∧
    (used = false → others.length < 2 → s.stw.kek.isSome = true → rx = false → exec (.keyInstall v true) s =
      .next (raiseEv (showKeys (setF (setMilPort t n { p with
        tx := others ++ [⟨an, key, 1⟩]
        live := if p.live.isNone then some an else p.live
        exhausted := p.exhausted && p.live.isSome }) KEY_INSTALL_result 0)) pgKEY ⟨0x6401, 1⟩ [n, 0, an])) ∧
    ((if rx then p.rx else p.tx).any (fun a => a.an == an) = false →
      exec (.keyErase v) s = .next (setF t KEY_INSTALL_result 4)) ∧
    (rx = false → p.tx.any (fun a => a.an == an) = true → p.live = some an →
      exec (.keyErase v) s = .next (setF t KEY_INSTALL_result 2)) ∧
    (rx = false → p.tx.any (fun a => a.an == an) = true → p.live ≠ some an → exec (.keyErase v) s =
      .next (showKeys (setF (setMilPort t n { p with
        tx := others
        oldTx := if p.oldTx = some an then none else p.oldTx }) KEY_INSTALL_result 0))) ∧
    (rx = true → p.rx.any (fun a => a.an == an) = true → exec (.keyErase v) s =
      .next (showKeys (setF (setMilPort t n { p with
        rx := others
        recent := p.recent.filter (fun r => r.1 != an)
        groups := p.groups.filter (fun g => g.an != an)
        grace := p.grace.filter (· != an) }) KEY_INSTALL_result 0)))) ∧
  (∀ (s : State) (v : Word), regsOpen s pgKEY = true →
    let n := bitsOf v.toNat 0 1
    let rx := bitOf v.toNat 1
    let an := bitsOf v.toNat 2 2
    let ms := bitsOf v.toNat 16 16
    let t := setF (setF (setF (setF s KEY_SCHED_port n) KEY_SCHED_dir (b2n rx)) KEY_SCHED_an an) KEY_SCHED_grace_ms ms
    let p := milPort t n
    let no := fun (r : Nat) => exec (.keySchedArm v) s =
      .next (raiseEv (setF t KEY_SCHED_refused 1) pgKEY ⟨0x6406, 2⟩ [n, b2n rx, r])
    let valid := isSet t DEV_START_time_valid
    let early := keyAt t < s.deviceTime + 1000000
    (valid = false → no 1) ∧ (valid = true → early → no 2) ∧
    (valid = true → ¬ early → rx = false → p.tx.any (fun a => a.an == an) = false → no 3) ∧
    (valid = true → ¬ early → rx = false → p.tx.any (fun a => a.an == an) = true → exec (.keySchedArm v) s =
      .next (showKeys (setF (setMilPort t n { p with armTx := some (an, keyAt t) }) KEY_SCHED_refused 0))) ∧
    (valid = true → ¬ early → rx = true → exec (.keySchedArm v) s =
      .next (showKeys (setF (setMilPort t n { p with armRx := some (an, keyAt t, max 1 ms) }) KEY_SCHED_refused 0)))) ∧
  (∀ (s : State) (n : Nat), n < 2 → s.life = .running →
    let p := milPort s n
    (∀ an at', p.armTx = some (an, at') →
      let c := closeGroup s n
      let q := milPort c n
      (q.tx.any (fun a => a.an == an) = true → exec (.keyChangeInstant n false) s =
        .next (raiseEv (showKeys (setMilPort c n { q with
          armTx := none
          live := some an
          exhausted := false
          oldTx := if q.live = some an then none else q.live })) pgKEY ⟨0x6403, 1⟩ [n, q.live.getD an, an, at'])) ∧
      (q.tx.any (fun a => a.an == an) = false → exec (.keyChangeInstant n false) s =
        .next (showKeys (setMilPort c n { q with armTx := none })))) ∧
    (∀ an at' ms, p.armRx = some (an, at', ms) → exec (.keyChangeInstant n true) s =
      .next (showKeys (setMilPort s n { p with
        armRx := none
        grace := an :: p.grace }))) ∧
    (p.armTx = none → exec (.keyChangeInstant n false) s = .next s) ∧
    (p.armRx = none → exec (.keyChangeInstant n true) s = .next s) ∧
    (∀ an, p.oldTx = some an → exec (.oldTxAssocErase n) s = .next (showKeys (setMilPort s n { p with
      tx := p.tx.filter (fun a => a.an != an)
      oldTx := none }))) ∧
    (p.oldTx = none → exec (.oldTxAssocErase n) s = .next s) ∧
    (p.grace = [] → exec (.keyGraceExpiry n) s = .next s) ∧
    (∀ an, p.grace.getLast? = some an → exec (.keyGraceExpiry n) s =
      .next (raiseEv (showKeys (setMilPort s n { p with
        rx := p.rx.filter (fun a => a.an != an)
        recent := p.recent.filter (fun r => r.1 != an)
        groups := p.groups.filter (fun g => g.an != an)
        grace := p.grace.dropLast })) pgKEY ⟨0x6404, 1⟩ [n, an])))

/-- Watchdogs, updates, the trial and the identity services. A watchdog's expiry is counted, announced, is kept in the
flash's logs, lapses a trial start not yet ready, ends the running export and import commands with UNIT_FAULT and
restarts the Steward; the third within an hour holds it with FAULT_N. A verified image brings it back, and the
request that came meanwhile is discarded; one that does not leaves it away. A request made while it is down stands
in the mailbox. A manifest that fails is refused with its reason; one that passes is staged with an empty bitmap. A
piece that does not fit is refused, one held already acknowledged, a new one stored. A status request returns the
bitmap. An application whose stream, flash or result fails keeps the pieces and reports; one whose bank verifies
makes it pending. Confirm, revert, abandon and apply act in their states and are ignored otherwise. Reports,
endorsements and challenges are answered, a data object of more than 128 KiB with an error; the key-encryption key
is set unless debug is open; a debug token serves one challenge, and one that verifies erases the keys.
(15_steward_security) -/
def Obligations.StewardRows : Prop :=
  (∀ (s : State) (w : Nat), w < 6 →
    ((s.life ≠ .running ∨ isSet s DEV_START_fuses_done = false ∨ isSet s STW_STATE_held = true) →
      exec (.watchdogExpiry w) s = .next s) ∧
    (s.life = .running → isSet s DEV_START_fuses_done = true → isSet s STW_STATE_held = false →
      let near := s.stw.expiries.filter (fun t => decide (elapsed s ≤ t + 3600000000000)) ++ [elapsed s]
      let s0 := satF { s with stw := { s.stw with expiries := near } } STW_STATE_expiries 1
      let s1 := lapseTrial (raiseEv { s0 with flash := { s0.flash with
        watchdogs := s0.flash.watchdogs ++ [(w, timeNow s0)]
        crashes := if w < 4 then s0.flash.crashes ++ [(w, timeNow s0)] else s0.flash.crashes } } pgSTW ⟨0x1C01, 4⟩ [w, near.length])
      let s2 := (s1.cmds.table.filter (fun e => e.cls == 7 && e.stage == .running)).foldl
        (fun s e => endCmd s e.q e.idx stUnitFault 0 []) s1
      let s3 := setBlk { s2 with stw := { s2.stw with
        restarting := true
        applying := false
        downAt := elapsed s2 } } pgSTW 1
      (near.length < 3 → exec (.watchdogExpiry w) s = .next s3) ∧
      (3 ≤ near.length → exec (.watchdogExpiry w) s = .next (blkFault
        (setF { s3 with pins := { s3.pins with faultN := true } } STW_STATE_held 1) pgSTW 0x1C01)))) ∧
  (∀ (s : State), s.life = .running → s.stw.restarting = true → isSet s STW_STATE_held = false →
    isSet s DEV_START_steward_ready = true →
    let s1 := setBlk { s with stw := { s.stw with restarting := false } } pgSTW 2
    let s2 := raiseEv s1 pgSTW ⟨0x1C02, 1⟩ [(elapsed s1 - s1.stw.downAt) / 1000000]
    let bank := bankBytes s.flash (isSet s DEV_START_boot_bank)
    (bankOk s.fuses (getF s DEV_INFO_arith_rev) bank = true →
      (s2.host.doe = none → exec (.stewardRestarted true) s = .next (maybeApply s2)) ∧
      (s2.host.doe ≠ none → exec (.stewardRestarted true) s = .next (maybeApply { s2 with
        host := { s2.host with doe := none },
        out := s2.out ++ [.doeAborted] }))) ∧
    (bankOk s.fuses (getF s DEV_INFO_arith_rev) bank = false → exec (.stewardRestarted true) s = .next s) ∧
    exec (.stewardRestarted false) s = .next s) ∧
  (∀ (s : State) (readOk : Bool), (s.life ≠ .running ∨ s.stw.restarting = false ∨ isSet s STW_STATE_held = true ∨
    isSet s DEV_START_steward_ready = false) → exec (.stewardRestarted readOk) s = .next s) ∧
  (∀ (s : State) (r : List Byte) (hi : Word) (hits : List Hit), s.life = .running → stewardUp s = false →
    isSet s DEV_START_steward_ready = true → ∀ i ∈ [Instr.updateManifest true r hi hits,
      .updatePiece true r hi hits, .updateStatus true r hi hits],
    (r.length ≤ 131064 → exec i s = .next { s with host := { s.host with doe := some (2, r) } }) ∧
    (131064 < r.length → exec i s = .next (emit s (.doeError 2)))) ∧
  (∀ (s : State) (r : List Byte) (hi : Word) (hits : List Hit), stewardUp s = true → 131064 < r.length →
    ∀ i ∈ [Instr.updateManifest true r hi hits, .updatePiece true r hi hits, .updateStatus true r hi hits],
    exec i s = .next (emit s (.doeError 2))) ∧
  (∀ (s u : State) (mailbox : Bool) (record r : List Byte) (hi : Word) (hits : List Hit), stewardUp s = true →
    (mailbox = true ∧ record = r ∧ u = s ∧ r.length ≤ 131064) ∨ (mailbox = false ∧ readRecord s none hi hits = (u, some r)) →
    let m := r.drop 32
    let say := fun (t : State) (code : Nat) (more : List Byte) =>
      if mailbox = false then t else emit t (.doe 2 (natLe 4 code ++ natLe 4 t.flash.pieces.length ++ more))
    (leAt r 8 1 = 1 → recordOk r = false → exec (.updateManifest mailbox record hi hits) s =
      .next (say (raiseEv u pgFWU ⟨0x2001, 2⟩ [leAt m 8 8, 1]) 1 [])) ∧
    (∀ why, leAt r 8 1 = 1 → recordOk r = true → manifestFault u m = some why →
      exec (.updateManifest mailbox record hi hits) s = .next (say (raiseEv u pgFWU ⟨0x2001, 2⟩ [leAt m 8 8, why]) 1 [])) ∧
    (leAt r 8 1 = 1 → recordOk r = true → manifestFault u m = none →
      exec (.updateManifest mailbox record hi hits) s = .next (say (showUpdate { u with flash := { u.flash with
        manifest := m
        pieces := []
        journal := 0 } }) 0 [])) ∧
    (leAt r 8 1 = 2 → pieceOk u r = false → exec (.updatePiece mailbox record hi hits) s =
      .next (say (raiseEv u pgFWU ⟨0x2002, 2⟩ [leAt r 0 8, leAt r 12 4]) 1 [])) ∧
    (leAt r 8 1 = 2 → pieceOk u r = true → u.flash.pieces.any (fun p => p.1 == leAt r 12 4) = true →
      exec (.updatePiece mailbox record hi hits) s = .next (say u 0 [])) ∧
    (leAt r 8 1 = 2 → pieceOk u r = true → u.flash.pieces.any (fun p => p.1 == leAt r 12 4) = false →
      exec (.updatePiece mailbox record hi hits) s = .next (say (maybeApply { u with flash := { u.flash with
        pieces := tput (leAt r 12 4) m u.flash.pieces } }) 0 [])) ∧
    (leAt r 8 1 = 3 → exec (.updateStatus mailbox record hi hits) s = .next (say u 0 (pieceMap u))) ∧
    (leAt r 8 1 ≠ 1 → leAt r 8 1 ≠ 2 → leAt r 8 1 ≠ 3 → exec (.updateStatus mailbox record hi hits) s = .next (say u 1 []))) ∧
  (∀ (s : State) (x : Option Nat), (stewardUp s = false ∨ s.stw.applying = false) → exec (.updateApplyDone x) s = .next s) ∧
  (∀ (s : State), stewardUp s = true → s.stw.applying = true →
    let b := !s.flash.boot.active
    let st := patchStream s
    let s1 := { s with stw := { s.stw with applying := false } }
    let out := runPatch (bankBytes s.flash s.flash.boot.active) (st.length / 16 + 1) 0 st []
    (∀ off, exec (.updateApplyDone (some off)) s = .next (applyFails s1 off)) ∧
    (∀ off, out = .error off → exec (.updateApplyDone none) s = .next (applyFails s1 off)) ∧
    (∀ bank, out = .ok bank →
      let s2 := { s1 with flash := if b then { s.flash with bankB := bank } else { s.flash with bankA := bank } }
      (builtOk s2 bank = false → exec (.updateApplyDone none) s = .next (applyFails s2 st.length)) ∧
      (builtOk s2 bank = true →
        let s3 := writeBoot s2 { markBank s2.flash.boot b false with pending := some b }
        let s4 := showUpdate { s3 with flash := { s3.flash with journal := 3 } }
        exec (.updateApplyDone none) s =
          .next (raiseEv (setF s4 STW_STATE_pending 1) pgFWU ⟨0x2003, 1⟩ [updateId s4, b2n b])))) ∧
  (∀ (s : State), stewardUp s = false → ∀ i ∈ [Instr.fwuConfirm, .fwuRevert, .fwuAbandon, .fwuApply], exec i s = .next s) ∧
  (∀ (s : State), stewardUp s = true → regsOpen s pgFWU = true →
    (s.flash.boot.trial = false → exec .fwuConfirm s = .next s ∧ exec .fwuRevert s = .next s) ∧
    (s.flash.boot.trial = true →
      (let b := s.flash.boot.active
       let s1 := writeBoot s { s.flash.boot with trial := false }
       let s2 := dropStaging (setF { s1 with fuses := { s1.fuses with confirmDue := some b } } STW_STATE_trial 0)
       exec .fwuConfirm s = .next (if 41000 < s2.pins.bladeA ∧ 41000 < s2.pins.bladeB then confirmBurn s2 b else s2)) ∧
      exec .fwuRevert s = .next (dropStaging (setF (setF (writeBoot s { s.flash.boot with
        trial := false
        pending := some (!s.flash.boot.active) }) STW_STATE_trial 0) STW_STATE_pending 1))) ∧
    (s.stw.applying = true → exec .fwuAbandon s = .next s ∧ exec .fwuApply s = .next s) ∧
    (s.stw.applying = false → exec .fwuAbandon s = .next (showUpdate { s with flash := { s.flash with
      manifest := []
      pieces := []
      journal := 0 } })) ∧
    (s.stw.applying = false → isSet s FWU_CTRL_hold_apply = true → updComplete s = true → s.flash.journal ≠ 3 →
      exec .fwuApply s = .next (beginApply s)) ∧
    ((isSet s FWU_CTRL_hold_apply = false ∨ updComplete s = false ∨ s.flash.journal = 3) → exec .fwuApply s = .next s)) ∧
  (∀ (s : State) (nonce ct key challenge sig : List Byte) (serial scope : Nat), s.life = .running → stewardUp s = false →
    isSet s DEV_START_steward_ready = true →
    ∀ row ∈ [(Instr.attestReport nonce, attestHead 1 ++ nonce), (.attestEndorsement, attestHead 2),
      (.setKek ct, attestHead 3 ++ ct), (.debugChallenge, attestHead 4),
      (.debugUnlock key serial challenge scope sig,
        attestHead 5 ++ key ++ natLe 8 serial ++ challenge ++ natLe 1 scope ++ sig)],
      row.2.length ≤ 131064 → exec row.1 s = .next { s with host := { s.host with doe := some (1, row.2) } }) ∧
  (∀ (s : State) (nonce ct key challenge sig : List Byte) (serial scope : Nat), stewardUp s = true →
    (nonce.length ≤ 131060 → let body := reportBody s nonce
     exec (.attestReport nonce) s = .next (emit { s with freeCtr := s.freeCtr + 385 }
      (.doe 1 (body ++ bytesAt (Config.signature (idSeed s) (sha3 body) s.freeCtr) 0 2420)))) ∧
    (exec .attestEndorsement s =
      .next (emit s (.doe 1 (natLe 8 s.fuses.serial ++ idKey s ++ bytesAt s.flash.endorsement 0 3309)))) ∧
    ((131060 < nonce.length → exec (.attestReport nonce) s = .next (emit s (.doeError 1))) ∧
      (131060 < ct.length → exec (.setKek ct) s = .next (emit s (.doeError 1)))) ∧
    ((isSet s SEC_STATE_debug = true ∨ ct.length ≠ 1088) → exec (.setKek ct) s = .next (emit s (.doeError 1))) ∧
    (isSet s SEC_STATE_debug = false → ct.length = 1088 → exec (.setKek ct) s =
      .next (emit (raiseEv (setF { s with stw := { s.stw with
        kek := some (bytesAt (Config.decapsulated (kemSeed s) ct) 0 32)
        kekCount := s.stw.kekCount + 1 } } SEC_STATE_kek_set 1) pgSEC ⟨0x1801, 1⟩ [s.stw.kekCount + 1]) (.doe 1 []))) ∧
    (let c := natLe 32 (Config.freshBits s.freeCtr).toNat
     exec .debugChallenge s = .next (emit { s with
      freeCtr := s.freeCtr + 1
      stw := { s.stw with challenge := some c } } (.doe 1 c))) ∧
    (key.length + challenge.length + sig.length ≤ 131000 → let spent := { s with stw := { s.stw with challenge := none } }
     (∀ why, tokenFault s key serial challenge scope sig = some why → exec (.debugUnlock key serial challenge scope sig) s =
      .next (emit (raiseEv spent pgSEC ⟨0x1803, 2⟩ [why]) (.doeError 1))) ∧
     (tokenFault s key serial challenge scope sig = none → exec (.debugUnlock key serial challenge scope sig) s =
      .next (emit (raiseEv (setF (setF (showKeys (eraseAssocs (eraseAssocs { spent with
        stw := { spent.stw with kek := none } } 0) 1)) SEC_STATE_kek_set 0) SEC_STATE_debug 1) pgSEC ⟨0x1802, 4⟩ [scope])
        (.doe 1 [])))))

/-- The voltage, cap and thermal loops, and profiles written and switched. A voltage tick moves the die's setpoint one
step up for a slow count, down for one past the margin, within its limits; the hundredth tick in a row at the top
reports it. A cap tick keeps the mean of the last ten powers, raises the level when it passes the cap, and lowers it
after ten means below 97 percent. A thermal sample takes the coolant's temperatures and the hottest junction; ten at
100 C raise the level, the first with the warning, and a hundred below 97 C lower it. A profile write is ignored
while one is busy, and else checked, held busy and written once no update is applied, its result reported with its
event. A profile switch needs to be alone, its operands valid and its slot good, and then switches and ends OK.
(16_pacers) -/
def Obligations.PacerRows : Prop :=
  (∀ (s : State) (d count : Nat), d < 4 →
    ((stewardUp s = false ∨ isSet s (PAC_LOOP_X_freeze_volt d) = true) → exec (.voltageLoopTick d count) s = .next s) ∧
    (stewardUp s = true → isSet s (PAC_LOOP_X_freeze_volt d) = false →
      let speed : Int := count * (16 + getF s (PAC_STATE_level 0))
      let target : Int := 16 * roTarget s d
      let sp : Int := getF s (PAC_VOLT_setpoint_mv d)
      let step : Int := max 1 (getF s (PAC_LOOP_X_step_mv d))
      let put := fun (v : Int) => setF s (PAC_VOLT_setpoint_mv d) v.toNat
      let none' := fun (t : State) => { t with pac := { t.pac with atMax := tset (fun _ => 0) t.pac.atMax d 0 } }
      (target ≤ speed → speed * 100 ≤ target * (100 + roMargin s d) → vMin s d ≤ sp → sp ≤ vMax s d →
        exec (.voltageLoopTick d count) s = .next (none' (put sp))) ∧
      (target ≤ speed → target * (100 + roMargin s d) < speed * 100 → vMin s d ≤ sp - step → sp - step ≤ vMax s d →
        exec (.voltageLoopTick d count) s = .next (none' (put (sp - step)))) ∧
      (speed < target → vMin s d ≤ sp + step → sp + step < vMax s d →
        exec (.voltageLoopTick d count) s = .next (none' (put (sp + step)))) ∧
      (speed < target → vMin s d ≤ vMax s d → vMax s d ≤ sp + step →
        let n := tget (fun _ => 0) s.pac.atMax d + 1
        let t := put (vMax s d)
        let t := { t with pac := { t.pac with atMax := tset (fun _ => 0) t.pac.atMax d n } }
        exec (.voltageLoopTick d count) s =
          .next (if n = 100 then raiseEv t (pgPAC d) ⟨0x1004, 2⟩ [d, (vMax s d).toNat] else t)))) ∧
  (∀ (s : State) (mvA maA mvB maB : Nat),
    (stewardUp s = false → exec (.capLoopTick mvA maA mvB maB) s = .next s) ∧
    (stewardUp s = true →
      let xs := ((mvA * maA + mvB * maB) / 1000 :: s.pac.power).take 10
      let sum := xs.foldl (· + ·) 0
      let mean := sum / (1000 * xs.length)
      let cap := getF s (PAC_CAP_cap_w 0) * 1000 * xs.length
      let level := getF s (PAC_STATE_cap_level 0)
      let s1 := { s with
        pins := { s.pins with
          bladeA := mvA
          bladeB := mvB }
        pac := { s.pac with
          power := xs
          mAmpA := maA
          mAmpB := maB } }
      let s2 := setF (setF (setF s1 DEV_SUPPLY_blade_a (mvA / 20)) DEV_SUPPLY_blade_b (mvB / 20)) (PAC_CAP_power_w 0)
        (min 4095 mean)
      let held := fun (n : Nat) => { s2 with pac := { s2.pac with capBelow := n } }
      (cap < sum → level = 0 → exec (.capLoopTick mvA maA mvB maB) s = .next (settleAlert (setPace
        (raiseEv (held 0) (pgPAC 0) ⟨0x1003, 1⟩ [getF (held 0) (PAC_CAP_cap_w 0), mean]) PAC_STATE_cap_level 1))) ∧
      (cap < sum → level ≠ 0 → exec (.capLoopTick mvA maA mvB maB) s =
        .next (settleAlert (setPace (held 0) PAC_STATE_cap_level (min 16 (level + 1))))) ∧
      (cap * 97 ≤ sum * 100 → sum ≤ cap → exec (.capLoopTick mvA maA mvB maB) s = .next (settleAlert (held 0))) ∧
      (sum * 100 < cap * 97 → s.pac.capBelow < 9 →
        exec (.capLoopTick mvA maA mvB maB) s = .next (settleAlert (held (s.pac.capBelow + 1)))) ∧
      (sum * 100 < cap * 97 → 9 ≤ s.pac.capBelow → exec (.capLoopTick mvA maA mvB maB) s =
        .next (settleAlert (setPace (held 0) PAC_STATE_cap_level (level - 1)))))) ∧
  (∀ (s : State) (raw : List Int) (inlet outlet : Int),
    (isSet s DEV_START_steward_ready = false → exec (.thermalSample ⟨raw, inlet, outlet⟩) s = .next s) ∧
    (s.life = .running → isSet s DEV_START_steward_ready = true →
      let xs := raw.mapIdx (fun d t => if d < 4 then t + tjTrim s d else t)
      let die := (hottestOf xs).1
      let hot := (hottestOf xs).2
      let s0 := { s with pac := { s.pac with
        inlet := inlet
        outlet := outlet } }
      let s1 := (List.range 4).foldl (fun s d => setF s (PAC_TEMP_tj d) (clampInt 0 4095 (xs.getD d 0)).toNat) s0
      let level := getF s1 (PAC_STATE_therm_level 0)
      let kept := fun (h c : Nat) => { s1 with pac := { s1.pac with
        hottest := hot
        hotSamples := h
        coolSamples := c
        throttled := if level = 0 then 0 else s1.pac.throttled + 1 } }
      (400 ≤ hot → s1.pac.hotSamples < 9 →
        exec (.thermalSample ⟨raw, inlet, outlet⟩) s = .next (settleAlert (kept (s1.pac.hotSamples + 1) 0))) ∧
      (400 ≤ hot → 9 ≤ s1.pac.hotSamples → 0 < level →
        exec (.thermalSample ⟨raw, inlet, outlet⟩) s = .next (settleAlert (setPace (kept 0 0) PAC_STATE_therm_level (min 16 (level + 1))))) ∧
      (400 ≤ hot → 9 ≤ s1.pac.hotSamples → level = 0 →
        let warn := { kept 0 0 with pins := { s1.pins with thermWarn := true } }
        exec (.thermalSample ⟨raw, inlet, outlet⟩) s = .next (settleAlert (setPace
          (raiseEv warn (pgPAC (min die 3)) ⟨0x1001, 2⟩ [die, unsigned 32 hot]) PAC_STATE_therm_level 1))) ∧
      (388 ≤ hot → hot < 400 → exec (.thermalSample ⟨raw, inlet, outlet⟩) s = .next (settleAlert (kept 0 0))) ∧
      (hot < 388 → (s1.pac.coolSamples < 99 ∨ level = 0) →
        exec (.thermalSample ⟨raw, inlet, outlet⟩) s = .next (settleAlert (kept 0 (s1.pac.coolSamples + 1)))) ∧
      (hot < 388 → 99 ≤ s1.pac.coolSamples → 1 < level →
        exec (.thermalSample ⟨raw, inlet, outlet⟩) s = .next (settleAlert (setPace (kept 0 0) PAC_STATE_therm_level (level - 1)))) ∧
      (hot < 388 → 99 ≤ s1.pac.coolSamples → level = 1 →
        let t := setPace (kept 0 0) PAC_STATE_therm_level 0
        exec (.thermalSample ⟨raw, inlet, outlet⟩) s = .next (settleAlert (raiseEv { t with pins := { t.pins with thermWarn := false } }
          (pgPAC (min die 3)) ⟨0x1002, 1⟩ [die, t.pac.throttled / 10]))))) ∧
  (∀ (s : State) (v : Word), stewardUp s = true → regsOpen s pgPRF = true →
    let slot := v.toNat % 4
    let s1 := setF s PRF_WRITE_slot slot
    (isSet s PRF_WRITE_busy = true → exec (.profileWrite v []) s = .next s) ∧
    (isSet s PRF_WRITE_busy = false → bitOf v.toNat 2 = false → exec (.profileWrite v []) s = .next s1) ∧
    (isSet s PRF_WRITE_busy = false → bitOf v.toNat 2 = true →
      let a := getF s1 PRF_SRC_LO_addr + 2 ^ 32 * getF s1 PRF_SRC_HI_addr
      let n := 64 + 520 * leAt (peek s a 64) 6 2
      ((a % 64 ≠ 0 ∨ inMemory a 64 = false) → exec (.profileWrite v []) s = .next (setF { s1 with stw := { s.stw with
          profileWrite := some (slot, [], if slot = 3 then 2 else 1) } } PRF_WRITE_busy 1)) ∧
      (a % 64 = 0 → inMemory a 64 = true → inMemory a n = true → Sound s a n →
        exec (.profileWrite v []) s = .next (setF { s1 with stw := { s.stw with profileWrite := some (slot, peek s a n,
          if slot = 3 then 2 else if profOk slot (peek s a n) then 0 else 1) } } PRF_WRITE_busy 1)))) ∧
  (∀ (s : State) (slot code : Nat) (bytes : List Byte), s.stw.profileWrite = some (slot, bytes, code) → stewardUp s = true →
    let done := { s with stw := { s.stw with profileWrite := none } }
    let put := fun (r : List Byte) => { done with flash := { s.flash with
      profiles := tset (fun _ => []) s.flash.profiles slot r } }
    let say := fun (t : State) (c : Nat) =>
      raiseEv (setF (setF t PRF_WRITE_busy 0) PRF_WRITE_result c) pgPRF ⟨0x1403, 1⟩ [slot, c]
    (∀ ok, s.stw.applying = true → exec (.profileWriteDone ok) s = .next s) ∧
    (s.stw.applying = false → code = 0 → exec (.profileWriteDone true) s = .next (say (put bytes) 0) ∧
      exec (.profileWriteDone false) s = .next (say (put []) 3)) ∧
    (∀ ok, s.stw.applying = false → (code = 1 ∨ code = 2) → exec (.profileWriteDone ok) s = .next (say done code))) ∧
  (∀ (s : State) (q idx : Nat) (e : CmdEntry) (sur : Surround), Dispatches s q idx e sur → e.opcode = 0x0701 →
    let n := leAt e.bytes 44 1 % 4
    let valid := leAt e.bytes 44 1 < 4 ∧ leAt e.bytes 45 1 < 2 ∧ zeroAt e.bytes 46 18 = true
    (1 < s.cmds.table.length → exec (.profileSwitch q idx sur) s = .next (takeSlot (endCmd s q idx stProfileBusy 0 []) q)) ∧
    (s.cmds.table.length ≤ 1 → ¬ valid →
      exec (.profileSwitch q idx sur) s = .next (takeSlot (endCmd s q idx stMalformed 35 []) q)) ∧
    (s.cmds.table.length ≤ 1 → valid → slotProfile s n = none →
      exec (.profileSwitch q idx sur) s = .next (takeSlot (endCmd s q idx stMalformed 34 []) q)) ∧
    (∀ p, s.cmds.table.length ≤ 1 → valid → slotProfile s n = some p →
      exec (.profileSwitch q idx sur) s = .next (takeSlot (endCmd
        (switchTo (putCmd s { e with stage := .running }) n p (bitOf (leAt e.bytes 45 1) 0)) q idx stOK 0 []) q)))
end

