-- ==== Sys2Proof/Laws/Boot.lean ====
section
/-! SUPPORT. Laws of the boot record (15_steward_security R365): what a write to it brings in force. -/

namespace Sys2Proof.Machine

theorem sealed_valid (r : BootRec) : r.sealed.valid = true := by simp [BootRec.sealed, BootCopy.valid]

theorem seqAbove_next (n : Nat) : seqAbove ((n + 1) % 2 ^ 32) n = true := by
  unfold seqAbove
  simp only [decide_eq_true_eq]
  omega

theorem not_seqAbove_next (n : Nat) : seqAbove n ((n + 1) % 2 ^ 32) = false := by
  unfold seqAbove
  simp only [decide_eq_false_iff_not]
  omega

theorem boot_of_useB {f : FlashSt} (h : f.useB = true) : f.boot = f.bootB.record := by
  unfold FlashSt.boot; rw [h]; rfl

theorem boot_of_not_useB {f : FlashSt} (h : f.useB = false) : f.boot = f.bootA.record := by
  unfold FlashSt.boot; rw [h]; rfl

/-- A valid copy of the next number, written over the one not in force, comes in force. -/
theorem useB_written {f : FlashSt} {c : BootCopy} (hv : c.valid = true) (hs : c.record.seq = (f.boot.seq + 1) % 2 ^ 32) :
    (f.useB = true → { f with bootA := c }.useB = false) ∧ (f.useB = false → { f with bootB := c }.useB = true) := by
  refine ⟨fun h => ?_, fun h => ?_⟩
  · unfold FlashSt.useB
    rw [hv, hs, boot_of_useB h, not_seqAbove_next, Bool.not_true, Bool.false_or, Bool.and_false]
  · unfold FlashSt.useB
    rw [hv, hs, boot_of_not_useB h, seqAbove_next, Bool.or_true, Bool.true_and]

/-- The record written is the one in force, with the next sequence number. -/
theorem writeBoot_boot (s : State) (r : BootRec) :
    (writeBoot s r).flash.boot = { r with seq := (s.flash.boot.seq + 1) % 2 ^ 32 } := by
  have h := useB_written (f := s.flash) (sealed_valid { r with seq := (s.flash.boot.seq + 1) % 2 ^ 32 }) rfl
  cases hb : s.flash.useB
  · have e : (writeBoot s r).flash = { s.flash with
        bootB := BootRec.sealed { r with seq := (s.flash.boot.seq + 1) % 2 ^ 32 } } := by unfold writeBoot; rw [hb]; rfl
    rw [e, boot_of_useB (h.2 hb)]
    rfl
  · have e : (writeBoot s r).flash = { s.flash with
        bootA := BootRec.sealed { r with seq := (s.flash.boot.seq + 1) % 2 ^ 32 } } := by unfold writeBoot; rw [hb]; rfl
    rw [e, boot_of_not_useB (h.1 hb)]
    rfl

/-- A write to the boot record changes nothing beside its two copies. -/
theorem writeBoot_frame (s : State) (r : BootRec) : ∃ a b, writeBoot s r = { s with flash := { s.flash with
    bootA := a
    bootB := b } } := by
  unfold writeBoot
  cases s.flash.useB
  · exact ⟨_, _, rfl⟩
  · exact ⟨_, _, rfl⟩

end Sys2Proof.Machine
end

