-- ==== Sys2Proof/Laws/Dispatch.lean ====
section
/-! SUPPORT. What dispatch does (R110, R111): a command that may be dispatched now has its body run on the state as it is. -/

namespace Sys2Proof.Machine

/-- A found command is the one of its queue and index. -/
theorem findCmd_key {s : State} {q idx : Nat} {e : CmdEntry} (h : findCmd s q idx = some e) : e.q = q ∧ e.idx = idx := by
  have := List.find?_some h
  simpa using this

theorem failEntries_none (s : State) {sur : Surround} (h1 : sur.routeFails = []) (h2 : sur.roleFails = []) :
    failEntries s sur = s := by simp [failEntries, h1, h2]

theorem refEnd_of_local {s : State} {r : Nat} (h : usesRemote r = false) : refEnd s r = none := by simp [refEnd, h]

theorem admitCmd_of_dispatches {s : State} {q idx : Nat} {e : CmdEntry} {sur : Surround}
    (h : Dispatches s q idx e sur) : admitCmd s e false = (s, true) := by
  obtain ⟨-, -, hf, -, -, -, hst, hr, ho, hse, hw, he, hh, hou, hd, hu⟩ := h
  obtain ⟨rfl, rfl⟩ := findCmd_key hf
  have hr' := hr
  simp only [anyRemoteRef, Bool.or_eq_false_iff] at hr'
  obtain ⟨⟨h0, h1⟩, h2⟩ := hr'
  have hs0 : sendWatch s e 0 = (s, true) := by simp [sendWatch, h0]
  have hs1 : sendWatch s e 1 = (s, true) := by simp [sendWatch, h1]
  simp [admitCmd, hst, ho, hse, hr, List.findSome?, refEnd_of_local h0, refEnd_of_local h1, refEnd_of_local h2, hs0, hf,
    hs1, hw, he, hh, hou, hd, hu]

/-- The body of a row runs on the command dispatched now, which takes a slot of its queue's round. -/
theorem onDispatch_of_dispatches {s : State} {q idx : Nat} {e : CmdEntry} {sur : Surround}
    (h : Dispatches s q idx e sur) (ok : CmdEntry → Bool) (body : State → CmdEntry → State) :
    onDispatch s q idx ok sur body = if ok e then takeSlot (body s e) q else s := by
  have ha := admitCmd_of_dispatches h
  obtain ⟨-, -, hf, h1, h2, h3, -⟩ := h
  simp only [onDispatch, hf, failEntries_none s h1 h2, h3, ha]
  cases ok e <;> simp

/-- A row of a placed command that is first on its lanes runs its body. -/
theorem onLanes_of_runsNow {s : State} {q idx : Nat} {e : CmdEntry} {sur : Surround} (h : RunsNow s q idx e sur)
    (ok : CmdEntry → Bool) (body : State → CmdEntry → State) :
    onLanes s q idx ok sur body =
      if ok e then body (putCmd s { e with stage := .running }) { e with stage := .running } else s := by
  obtain ⟨-, -, hf, h1, h2, hst, hat⟩ := h
  have hd : onDispatch s q idx ok sur placeCmd = s := by
    simp only [onDispatch, hf, failEntries_none s h1 h2]
    cases ok e <;> simp [admitCmd, hst]
  simp only [onLanes, hd, hf, hst, hat]
  cases ok e <;> simp

/-- An engine's body runs where its path loses no word, and else the command ends with PARITY, detail 10 (R392). -/
theorem onStages_none (page : Nat) {sur : Surround} (h : sur.stage = {}) (body : State → CmdEntry → State) (s : State)
    (e : CmdEntry) : onStages page sur body s e = body s e := by
  unfold onStages; rw [h]; rfl

theorem onStages_lost (page : Nat) {sur : Surround} {k : Nat} {o : Bool} (h : sur.stage = ⟨k, some o⟩)
    (body : State → CmdEntry → State) (s : State) (e : CmdEntry) : onStages page sur body s e =
      endCmd (pathFailed (if k = 0 then s else satF s DEV_REPLAY_path_replays k) page e.cmdId o) e.q e.idx 0x0B 10 [] := by
  unfold onStages; rw [h]; rfl

end Sys2Proof.Machine
end

