-- ==== Sys2Proof/Laws/State.lean ====
section
/-! SUPPORT. Laws of the state: one lemma for each field an update leaves as it was, so that no proof unfolds a record
update. -/

namespace Sys2Proof.Machine

variable (s : State)

/-! `setReg` -/
@[simp] theorem setReg_pending (a : Nat) (w : Word) : (setReg s a w).pending = s.pending := (rfl)
@[simp] theorem setReg_out (a : Nat) (w : Word) : (setReg s a w).out = s.out := (rfl)
@[simp] theorem setReg_freeCtr (a : Nat) (w : Word) : (setReg s a w).freeCtr = s.freeCtr := (rfl)
@[simp] theorem setReg_life (a : Nat) (w : Word) : (setReg s a w).life = s.life := (rfl)
@[simp] theorem setReg_cause (a : Nat) (w : Word) : (setReg s a w).cause = s.cause := (rfl)
@[simp] theorem setReg_pins (a : Nat) (w : Word) : (setReg s a w).pins = s.pins := (rfl)
@[simp] theorem setReg_fuses (a : Nat) (w : Word) : (setReg s a w).fuses = s.fuses := (rfl)
@[simp] theorem setReg_flash (a : Nat) (w : Word) : (setReg s a w).flash = s.flash := (rfl)
@[simp] theorem setReg_ev (a : Nat) (w : Word) : (setReg s a w).ev = s.ev := (rfl)
@[simp] theorem setReg_host (a : Nat) (w : Word) : (setReg s a w).host = s.host := (rfl)
@[simp] theorem setReg_cmds (a : Nat) (w : Word) : (setReg s a w).cmds = s.cmds := (rfl)
@[simp] theorem setReg_laps (a : Nat) (w : Word) : (setReg s a w).laps = s.laps := (rfl)
@[simp] theorem setReg_lanes (a : Nat) (w : Word) : (setReg s a w).lanes = s.lanes := (rfl)
@[simp] theorem setReg_num (a : Nat) (w : Word) : (setReg s a w).num = s.num := (rfl)
@[simp] theorem setReg_mem (a : Nat) (w : Word) : (setReg s a w).mem = s.mem := (rfl)
@[simp] theorem setReg_cbz (a : Nat) (w : Word) : (setReg s a w).cbz = s.cbz := (rfl)
@[simp] theorem setReg_fab (a : Nat) (w : Word) : (setReg s a w).fab = s.fab := (rfl)
@[simp] theorem setReg_coll (a : Nat) (w : Word) : (setReg s a w).coll = s.coll := (rfl)
@[simp] theorem setReg_upd (a : Nat) (w : Word) : (setReg s a w).upd = s.upd := (rfl)
@[simp] theorem setReg_mil (a : Nat) (w : Word) : (setReg s a w).mil = s.mil := (rfl)
@[simp] theorem setReg_tim (a : Nat) (w : Word) : (setReg s a w).tim = s.tim := (rfl)
@[simp] theorem setReg_stw (a : Nat) (w : Word) : (setReg s a w).stw = s.stw := (rfl)
@[simp] theorem setReg_pac (a : Nat) (w : Word) : (setReg s a w).pac = s.pac := (rfl)
@[simp] theorem setReg_hot (a : Nat) (w : Word) : (setReg s a w).hot = s.hot := (rfl)
@[simp] theorem setReg_pulsed (a : Nat) (w : Word) : (setReg s a w).pulsed = s.pulsed := (rfl)
@[simp] theorem setReg_deviceTime (a : Nat) (w : Word) : (setReg s a w).deviceTime = s.deviceTime := (rfl)

/-! `setF` -/
@[simp] theorem setF_pending (f : Fld) (v : Nat) : (setF s f v).pending = s.pending := (rfl)
@[simp] theorem setF_out (f : Fld) (v : Nat) : (setF s f v).out = s.out := (rfl)
@[simp] theorem setF_freeCtr (f : Fld) (v : Nat) : (setF s f v).freeCtr = s.freeCtr := (rfl)
@[simp] theorem setF_life (f : Fld) (v : Nat) : (setF s f v).life = s.life := (rfl)
@[simp] theorem setF_cause (f : Fld) (v : Nat) : (setF s f v).cause = s.cause := (rfl)
@[simp] theorem setF_pins (f : Fld) (v : Nat) : (setF s f v).pins = s.pins := (rfl)
@[simp] theorem setF_fuses (f : Fld) (v : Nat) : (setF s f v).fuses = s.fuses := (rfl)
@[simp] theorem setF_flash (f : Fld) (v : Nat) : (setF s f v).flash = s.flash := (rfl)
@[simp] theorem setF_ev (f : Fld) (v : Nat) : (setF s f v).ev = s.ev := (rfl)
@[simp] theorem setF_host (f : Fld) (v : Nat) : (setF s f v).host = s.host := (rfl)
@[simp] theorem setF_cmds (f : Fld) (v : Nat) : (setF s f v).cmds = s.cmds := (rfl)
@[simp] theorem setF_laps (f : Fld) (v : Nat) : (setF s f v).laps = s.laps := (rfl)
@[simp] theorem setF_lanes (f : Fld) (v : Nat) : (setF s f v).lanes = s.lanes := (rfl)
@[simp] theorem setF_num (f : Fld) (v : Nat) : (setF s f v).num = s.num := (rfl)
@[simp] theorem setF_mem (f : Fld) (v : Nat) : (setF s f v).mem = s.mem := (rfl)
@[simp] theorem setF_cbz (f : Fld) (v : Nat) : (setF s f v).cbz = s.cbz := (rfl)
@[simp] theorem setF_fab (f : Fld) (v : Nat) : (setF s f v).fab = s.fab := (rfl)
@[simp] theorem setF_coll (f : Fld) (v : Nat) : (setF s f v).coll = s.coll := (rfl)
@[simp] theorem setF_upd (f : Fld) (v : Nat) : (setF s f v).upd = s.upd := (rfl)
@[simp] theorem setF_mil (f : Fld) (v : Nat) : (setF s f v).mil = s.mil := (rfl)
@[simp] theorem setF_tim (f : Fld) (v : Nat) : (setF s f v).tim = s.tim := (rfl)
@[simp] theorem setF_stw (f : Fld) (v : Nat) : (setF s f v).stw = s.stw := (rfl)
@[simp] theorem setF_pac (f : Fld) (v : Nat) : (setF s f v).pac = s.pac := (rfl)
@[simp] theorem setF_hot (f : Fld) (v : Nat) : (setF s f v).hot = s.hot := (rfl)
@[simp] theorem setF_pulsed (f : Fld) (v : Nat) : (setF s f v).pulsed = s.pulsed := (rfl)
@[simp] theorem setF_deviceTime (f : Fld) (v : Nat) : (setF s f v).deviceTime = s.deviceTime := (rfl)

/-! `satF` -/
@[simp] theorem satF_pending (f : Fld) (k : Nat) : (satF s f k).pending = s.pending := (rfl)
@[simp] theorem satF_out (f : Fld) (k : Nat) : (satF s f k).out = s.out := (rfl)
@[simp] theorem satF_freeCtr (f : Fld) (k : Nat) : (satF s f k).freeCtr = s.freeCtr := (rfl)
@[simp] theorem satF_life (f : Fld) (k : Nat) : (satF s f k).life = s.life := (rfl)
@[simp] theorem satF_cause (f : Fld) (k : Nat) : (satF s f k).cause = s.cause := (rfl)
@[simp] theorem satF_pins (f : Fld) (k : Nat) : (satF s f k).pins = s.pins := (rfl)
@[simp] theorem satF_fuses (f : Fld) (k : Nat) : (satF s f k).fuses = s.fuses := (rfl)
@[simp] theorem satF_flash (f : Fld) (k : Nat) : (satF s f k).flash = s.flash := (rfl)
@[simp] theorem satF_ev (f : Fld) (k : Nat) : (satF s f k).ev = s.ev := (rfl)
@[simp] theorem satF_host (f : Fld) (k : Nat) : (satF s f k).host = s.host := (rfl)
@[simp] theorem satF_cmds (f : Fld) (k : Nat) : (satF s f k).cmds = s.cmds := (rfl)
@[simp] theorem satF_laps (f : Fld) (k : Nat) : (satF s f k).laps = s.laps := (rfl)
@[simp] theorem satF_lanes (f : Fld) (k : Nat) : (satF s f k).lanes = s.lanes := (rfl)
@[simp] theorem satF_num (f : Fld) (k : Nat) : (satF s f k).num = s.num := (rfl)
@[simp] theorem satF_mem (f : Fld) (k : Nat) : (satF s f k).mem = s.mem := (rfl)
@[simp] theorem satF_cbz (f : Fld) (k : Nat) : (satF s f k).cbz = s.cbz := (rfl)
@[simp] theorem satF_fab (f : Fld) (k : Nat) : (satF s f k).fab = s.fab := (rfl)
@[simp] theorem satF_coll (f : Fld) (k : Nat) : (satF s f k).coll = s.coll := (rfl)
@[simp] theorem satF_upd (f : Fld) (k : Nat) : (satF s f k).upd = s.upd := (rfl)
@[simp] theorem satF_mil (f : Fld) (k : Nat) : (satF s f k).mil = s.mil := (rfl)
@[simp] theorem satF_tim (f : Fld) (k : Nat) : (satF s f k).tim = s.tim := (rfl)
@[simp] theorem satF_stw (f : Fld) (k : Nat) : (satF s f k).stw = s.stw := (rfl)
@[simp] theorem satF_pac (f : Fld) (k : Nat) : (satF s f k).pac = s.pac := (rfl)
@[simp] theorem satF_hot (f : Fld) (k : Nat) : (satF s f k).hot = s.hot := (rfl)
@[simp] theorem satF_pulsed (f : Fld) (k : Nat) : (satF s f k).pulsed = s.pulsed := (rfl)
@[simp] theorem satF_deviceTime (f : Fld) (k : Nat) : (satF s f k).deviceTime = s.deviceTime := (rfl)

/-! `setBlk` -/
@[simp] theorem setBlk_pending (p v : Nat) : (setBlk s p v).pending = s.pending := (rfl)
@[simp] theorem setBlk_out (p v : Nat) : (setBlk s p v).out = s.out := (rfl)
@[simp] theorem setBlk_freeCtr (p v : Nat) : (setBlk s p v).freeCtr = s.freeCtr := (rfl)
@[simp] theorem setBlk_life (p v : Nat) : (setBlk s p v).life = s.life := (rfl)
@[simp] theorem setBlk_cause (p v : Nat) : (setBlk s p v).cause = s.cause := (rfl)
@[simp] theorem setBlk_pins (p v : Nat) : (setBlk s p v).pins = s.pins := (rfl)
@[simp] theorem setBlk_fuses (p v : Nat) : (setBlk s p v).fuses = s.fuses := (rfl)
@[simp] theorem setBlk_flash (p v : Nat) : (setBlk s p v).flash = s.flash := (rfl)
@[simp] theorem setBlk_ev (p v : Nat) : (setBlk s p v).ev = s.ev := (rfl)
@[simp] theorem setBlk_host (p v : Nat) : (setBlk s p v).host = s.host := (rfl)
@[simp] theorem setBlk_cmds (p v : Nat) : (setBlk s p v).cmds = s.cmds := (rfl)
@[simp] theorem setBlk_laps (p v : Nat) : (setBlk s p v).laps = s.laps := (rfl)
@[simp] theorem setBlk_lanes (p v : Nat) : (setBlk s p v).lanes = s.lanes := (rfl)
@[simp] theorem setBlk_num (p v : Nat) : (setBlk s p v).num = s.num := (rfl)
@[simp] theorem setBlk_mem (p v : Nat) : (setBlk s p v).mem = s.mem := (rfl)
@[simp] theorem setBlk_cbz (p v : Nat) : (setBlk s p v).cbz = s.cbz := (rfl)
@[simp] theorem setBlk_fab (p v : Nat) : (setBlk s p v).fab = s.fab := (rfl)
@[simp] theorem setBlk_coll (p v : Nat) : (setBlk s p v).coll = s.coll := (rfl)
@[simp] theorem setBlk_upd (p v : Nat) : (setBlk s p v).upd = s.upd := (rfl)
@[simp] theorem setBlk_mil (p v : Nat) : (setBlk s p v).mil = s.mil := (rfl)
@[simp] theorem setBlk_tim (p v : Nat) : (setBlk s p v).tim = s.tim := (rfl)
@[simp] theorem setBlk_stw (p v : Nat) : (setBlk s p v).stw = s.stw := (rfl)
@[simp] theorem setBlk_pac (p v : Nat) : (setBlk s p v).pac = s.pac := (rfl)
@[simp] theorem setBlk_hot (p v : Nat) : (setBlk s p v).hot = s.hot := (rfl)
@[simp] theorem setBlk_pulsed (p v : Nat) : (setBlk s p v).pulsed = s.pulsed := (rfl)
@[simp] theorem setBlk_deviceTime (p v : Nat) : (setBlk s p v).deviceTime = s.deviceTime := (rfl)

/-! `blkFault` -/
@[simp] theorem blkFault_pending (p c : Nat) : (blkFault s p c).pending = s.pending := by simp [blkFault]
@[simp] theorem blkFault_out (p c : Nat) : (blkFault s p c).out = s.out := by simp [blkFault]
@[simp] theorem blkFault_freeCtr (p c : Nat) : (blkFault s p c).freeCtr = s.freeCtr := by simp [blkFault]
@[simp] theorem blkFault_life (p c : Nat) : (blkFault s p c).life = s.life := by simp [blkFault]
@[simp] theorem blkFault_cause (p c : Nat) : (blkFault s p c).cause = s.cause := by simp [blkFault]
@[simp] theorem blkFault_pins (p c : Nat) : (blkFault s p c).pins = s.pins := by simp [blkFault]
@[simp] theorem blkFault_fuses (p c : Nat) : (blkFault s p c).fuses = s.fuses := by simp [blkFault]
@[simp] theorem blkFault_flash (p c : Nat) : (blkFault s p c).flash = s.flash := by simp [blkFault]
@[simp] theorem blkFault_ev (p c : Nat) : (blkFault s p c).ev = s.ev := by simp [blkFault]
@[simp] theorem blkFault_host (p c : Nat) : (blkFault s p c).host = s.host := by simp [blkFault]
@[simp] theorem blkFault_cmds (p c : Nat) : (blkFault s p c).cmds = s.cmds := by simp [blkFault]
@[simp] theorem blkFault_laps (p c : Nat) : (blkFault s p c).laps = s.laps := by simp [blkFault]
@[simp] theorem blkFault_lanes (p c : Nat) : (blkFault s p c).lanes = s.lanes := by simp [blkFault]
@[simp] theorem blkFault_num (p c : Nat) : (blkFault s p c).num = s.num := by simp [blkFault]
@[simp] theorem blkFault_mem (p c : Nat) : (blkFault s p c).mem = s.mem := by simp [blkFault]
@[simp] theorem blkFault_cbz (p c : Nat) : (blkFault s p c).cbz = s.cbz := by simp [blkFault]
@[simp] theorem blkFault_fab (p c : Nat) : (blkFault s p c).fab = s.fab := by simp [blkFault]
@[simp] theorem blkFault_coll (p c : Nat) : (blkFault s p c).coll = s.coll := by simp [blkFault]
@[simp] theorem blkFault_upd (p c : Nat) : (blkFault s p c).upd = s.upd := by simp [blkFault]
@[simp] theorem blkFault_mil (p c : Nat) : (blkFault s p c).mil = s.mil := by simp [blkFault]
@[simp] theorem blkFault_tim (p c : Nat) : (blkFault s p c).tim = s.tim := by simp [blkFault]
@[simp] theorem blkFault_stw (p c : Nat) : (blkFault s p c).stw = s.stw := by simp [blkFault]
@[simp] theorem blkFault_pac (p c : Nat) : (blkFault s p c).pac = s.pac := by simp [blkFault]
@[simp] theorem blkFault_hot (p c : Nat) : (blkFault s p c).hot = s.hot := by simp [blkFault]
@[simp] theorem blkFault_pulsed (p c : Nat) : (blkFault s p c).pulsed = s.pulsed := by simp [blkFault]
@[simp] theorem blkFault_deviceTime (p c : Nat) : (blkFault s p c).deviceTime = s.deviceTime := by simp [blkFault]

/-! `logError` -/
@[simp] theorem logError_pending (p c v : Nat) (l : List Nat) : (logError s p c v l).pending = s.pending := by simp [logError]
@[simp] theorem logError_out (p c v : Nat) (l : List Nat) : (logError s p c v l).out = s.out := by simp [logError]
@[simp] theorem logError_freeCtr (p c v : Nat) (l : List Nat) : (logError s p c v l).freeCtr = s.freeCtr := by simp [logError]
@[simp] theorem logError_life (p c v : Nat) (l : List Nat) : (logError s p c v l).life = s.life := by simp [logError]
@[simp] theorem logError_cause (p c v : Nat) (l : List Nat) : (logError s p c v l).cause = s.cause := by simp [logError]
@[simp] theorem logError_pins (p c v : Nat) (l : List Nat) : (logError s p c v l).pins = s.pins := by simp [logError]
@[simp] theorem logError_fuses (p c v : Nat) (l : List Nat) : (logError s p c v l).fuses = s.fuses := by simp [logError]
@[simp] theorem logError_flash (p c v : Nat) (l : List Nat) : (logError s p c v l).flash = s.flash := by simp [logError]
@[simp] theorem logError_ev (p c v : Nat) (l : List Nat) : (logError s p c v l).ev = s.ev := by simp [logError]
@[simp] theorem logError_host (p c v : Nat) (l : List Nat) : (logError s p c v l).host = s.host := by simp [logError]
@[simp] theorem logError_cmds (p c v : Nat) (l : List Nat) : (logError s p c v l).cmds = s.cmds := by simp [logError]
@[simp] theorem logError_laps (p c v : Nat) (l : List Nat) : (logError s p c v l).laps = s.laps := by simp [logError]
@[simp] theorem logError_lanes (p c v : Nat) (l : List Nat) : (logError s p c v l).lanes = s.lanes := by simp [logError]
@[simp] theorem logError_num (p c v : Nat) (l : List Nat) : (logError s p c v l).num = s.num := by simp [logError]
@[simp] theorem logError_mem (p c v : Nat) (l : List Nat) : (logError s p c v l).mem = s.mem := by simp [logError]
@[simp] theorem logError_cbz (p c v : Nat) (l : List Nat) : (logError s p c v l).cbz = s.cbz := by simp [logError]
@[simp] theorem logError_fab (p c v : Nat) (l : List Nat) : (logError s p c v l).fab = s.fab := by simp [logError]
@[simp] theorem logError_coll (p c v : Nat) (l : List Nat) : (logError s p c v l).coll = s.coll := by simp [logError]
@[simp] theorem logError_upd (p c v : Nat) (l : List Nat) : (logError s p c v l).upd = s.upd := by simp [logError]
@[simp] theorem logError_mil (p c v : Nat) (l : List Nat) : (logError s p c v l).mil = s.mil := by simp [logError]
@[simp] theorem logError_tim (p c v : Nat) (l : List Nat) : (logError s p c v l).tim = s.tim := by simp [logError]
@[simp] theorem logError_stw (p c v : Nat) (l : List Nat) : (logError s p c v l).stw = s.stw := by simp [logError]
@[simp] theorem logError_pac (p c v : Nat) (l : List Nat) : (logError s p c v l).pac = s.pac := by simp [logError]
@[simp] theorem logError_hot (p c v : Nat) (l : List Nat) : (logError s p c v l).hot = s.hot := by simp [logError]
@[simp] theorem logError_pulsed (p c v : Nat) (l : List Nat) : (logError s p c v l).pulsed = s.pulsed := by simp [logError]
@[simp] theorem logError_deviceTime (p c v : Nat) (l : List Nat) : (logError s p c v l).deviceTime = s.deviceTime := by simp [logError]

/-! `markEvent` -/
@[simp] theorem markEvent_pending (p c : Nat) : (markEvent s p c).pending = s.pending := by simp [markEvent]
@[simp] theorem markEvent_out (p c : Nat) : (markEvent s p c).out = s.out := by simp [markEvent]
@[simp] theorem markEvent_freeCtr (p c : Nat) : (markEvent s p c).freeCtr = s.freeCtr := by simp [markEvent]
@[simp] theorem markEvent_life (p c : Nat) : (markEvent s p c).life = s.life := by simp [markEvent]
@[simp] theorem markEvent_cause (p c : Nat) : (markEvent s p c).cause = s.cause := by simp [markEvent]
@[simp] theorem markEvent_pins (p c : Nat) : (markEvent s p c).pins = s.pins := by simp [markEvent]
@[simp] theorem markEvent_fuses (p c : Nat) : (markEvent s p c).fuses = s.fuses := by simp [markEvent]
@[simp] theorem markEvent_flash (p c : Nat) : (markEvent s p c).flash = s.flash := by simp [markEvent]
@[simp] theorem markEvent_ev (p c : Nat) : (markEvent s p c).ev = s.ev := by simp [markEvent]
@[simp] theorem markEvent_host (p c : Nat) : (markEvent s p c).host = s.host := by simp [markEvent]
@[simp] theorem markEvent_cmds (p c : Nat) : (markEvent s p c).cmds = s.cmds := by simp [markEvent]
@[simp] theorem markEvent_laps (p c : Nat) : (markEvent s p c).laps = s.laps := by simp [markEvent]
@[simp] theorem markEvent_lanes (p c : Nat) : (markEvent s p c).lanes = s.lanes := by simp [markEvent]
@[simp] theorem markEvent_num (p c : Nat) : (markEvent s p c).num = s.num := by simp [markEvent]
@[simp] theorem markEvent_mem (p c : Nat) : (markEvent s p c).mem = s.mem := by simp [markEvent]
@[simp] theorem markEvent_cbz (p c : Nat) : (markEvent s p c).cbz = s.cbz := by simp [markEvent]
@[simp] theorem markEvent_fab (p c : Nat) : (markEvent s p c).fab = s.fab := by simp [markEvent]
@[simp] theorem markEvent_coll (p c : Nat) : (markEvent s p c).coll = s.coll := by simp [markEvent]
@[simp] theorem markEvent_upd (p c : Nat) : (markEvent s p c).upd = s.upd := by simp [markEvent]
@[simp] theorem markEvent_mil (p c : Nat) : (markEvent s p c).mil = s.mil := by simp [markEvent]
@[simp] theorem markEvent_tim (p c : Nat) : (markEvent s p c).tim = s.tim := by simp [markEvent]
@[simp] theorem markEvent_stw (p c : Nat) : (markEvent s p c).stw = s.stw := by simp [markEvent]
@[simp] theorem markEvent_pac (p c : Nat) : (markEvent s p c).pac = s.pac := by simp [markEvent]
@[simp] theorem markEvent_hot (p c : Nat) : (markEvent s p c).hot = s.hot := by simp [markEvent]
@[simp] theorem markEvent_pulsed (p c : Nat) : (markEvent s p c).pulsed = s.pulsed := by simp [markEvent]
@[simp] theorem markEvent_deviceTime (p c : Nat) : (markEvent s p c).deviceTime = s.deviceTime := by simp [markEvent]

/-! `resetPages` -/
@[simp] theorem resetPages_pending (p : Nat → Bool) : (resetPages s p).pending = s.pending := (rfl)
@[simp] theorem resetPages_out (p : Nat → Bool) : (resetPages s p).out = s.out := (rfl)
@[simp] theorem resetPages_freeCtr (p : Nat → Bool) : (resetPages s p).freeCtr = s.freeCtr := (rfl)
@[simp] theorem resetPages_life (p : Nat → Bool) : (resetPages s p).life = s.life := (rfl)
@[simp] theorem resetPages_cause (p : Nat → Bool) : (resetPages s p).cause = s.cause := (rfl)
@[simp] theorem resetPages_pins (p : Nat → Bool) : (resetPages s p).pins = s.pins := (rfl)
@[simp] theorem resetPages_fuses (p : Nat → Bool) : (resetPages s p).fuses = s.fuses := (rfl)
@[simp] theorem resetPages_flash (p : Nat → Bool) : (resetPages s p).flash = s.flash := (rfl)
@[simp] theorem resetPages_ev (p : Nat → Bool) : (resetPages s p).ev = s.ev := (rfl)
@[simp] theorem resetPages_host (p : Nat → Bool) : (resetPages s p).host = s.host := (rfl)
@[simp] theorem resetPages_cmds (p : Nat → Bool) : (resetPages s p).cmds = s.cmds := (rfl)
@[simp] theorem resetPages_laps (p : Nat → Bool) : (resetPages s p).laps = s.laps := (rfl)
@[simp] theorem resetPages_lanes (p : Nat → Bool) : (resetPages s p).lanes = s.lanes := (rfl)
@[simp] theorem resetPages_num (p : Nat → Bool) : (resetPages s p).num = s.num := (rfl)
@[simp] theorem resetPages_mem (p : Nat → Bool) : (resetPages s p).mem = s.mem := (rfl)
@[simp] theorem resetPages_cbz (p : Nat → Bool) : (resetPages s p).cbz = s.cbz := (rfl)
@[simp] theorem resetPages_fab (p : Nat → Bool) : (resetPages s p).fab = s.fab := (rfl)
@[simp] theorem resetPages_coll (p : Nat → Bool) : (resetPages s p).coll = s.coll := (rfl)
@[simp] theorem resetPages_upd (p : Nat → Bool) : (resetPages s p).upd = s.upd := (rfl)
@[simp] theorem resetPages_mil (p : Nat → Bool) : (resetPages s p).mil = s.mil := (rfl)
@[simp] theorem resetPages_tim (p : Nat → Bool) : (resetPages s p).tim = s.tim := (rfl)
@[simp] theorem resetPages_stw (p : Nat → Bool) : (resetPages s p).stw = s.stw := (rfl)
@[simp] theorem resetPages_pac (p : Nat → Bool) : (resetPages s p).pac = s.pac := (rfl)
@[simp] theorem resetPages_hot (p : Nat → Bool) : (resetPages s p).hot = s.hot := (rfl)
@[simp] theorem resetPages_pulsed (p : Nat → Bool) : (resetPages s p).pulsed = s.pulsed := (rfl)
@[simp] theorem resetPages_deviceTime (p : Nat → Bool) : (resetPages s p).deviceTime = s.deviceTime := (rfl)

/-! `emit` -/
@[simp] theorem emit_pending (o : Output) : (emit s o).pending = s.pending := (rfl)
@[simp] theorem emit_freeCtr (o : Output) : (emit s o).freeCtr = s.freeCtr := (rfl)
@[simp] theorem emit_life (o : Output) : (emit s o).life = s.life := (rfl)
@[simp] theorem emit_cause (o : Output) : (emit s o).cause = s.cause := (rfl)
@[simp] theorem emit_pins (o : Output) : (emit s o).pins = s.pins := (rfl)
@[simp] theorem emit_fuses (o : Output) : (emit s o).fuses = s.fuses := (rfl)
@[simp] theorem emit_flash (o : Output) : (emit s o).flash = s.flash := (rfl)
@[simp] theorem emit_regs (o : Output) : (emit s o).regs = s.regs := (rfl)
@[simp] theorem emit_ev (o : Output) : (emit s o).ev = s.ev := (rfl)
@[simp] theorem emit_host (o : Output) : (emit s o).host = s.host := (rfl)
@[simp] theorem emit_cmds (o : Output) : (emit s o).cmds = s.cmds := (rfl)
@[simp] theorem emit_laps (o : Output) : (emit s o).laps = s.laps := (rfl)
@[simp] theorem emit_lanes (o : Output) : (emit s o).lanes = s.lanes := (rfl)
@[simp] theorem emit_num (o : Output) : (emit s o).num = s.num := (rfl)
@[simp] theorem emit_mem (o : Output) : (emit s o).mem = s.mem := (rfl)
@[simp] theorem emit_cbz (o : Output) : (emit s o).cbz = s.cbz := (rfl)
@[simp] theorem emit_fab (o : Output) : (emit s o).fab = s.fab := (rfl)
@[simp] theorem emit_coll (o : Output) : (emit s o).coll = s.coll := (rfl)
@[simp] theorem emit_upd (o : Output) : (emit s o).upd = s.upd := (rfl)
@[simp] theorem emit_mil (o : Output) : (emit s o).mil = s.mil := (rfl)
@[simp] theorem emit_tim (o : Output) : (emit s o).tim = s.tim := (rfl)
@[simp] theorem emit_stw (o : Output) : (emit s o).stw = s.stw := (rfl)
@[simp] theorem emit_pac (o : Output) : (emit s o).pac = s.pac := (rfl)
@[simp] theorem emit_hot (o : Output) : (emit s o).hot = s.hot := (rfl)
@[simp] theorem emit_pulsed (o : Output) : (emit s o).pulsed = s.pulsed := (rfl)
@[simp] theorem emit_deviceTime (o : Output) : (emit s o).deviceTime = s.deviceTime := (rfl)

/-! `sendMsix` -/
@[simp] theorem sendMsix_pending (v : Nat) : (sendMsix s v).pending = s.pending := by unfold sendMsix; split <;> rfl
@[simp] theorem sendMsix_freeCtr (v : Nat) : (sendMsix s v).freeCtr = s.freeCtr := by unfold sendMsix; split <;> rfl
@[simp] theorem sendMsix_life (v : Nat) : (sendMsix s v).life = s.life := by unfold sendMsix; split <;> rfl
@[simp] theorem sendMsix_cause (v : Nat) : (sendMsix s v).cause = s.cause := by unfold sendMsix; split <;> rfl
@[simp] theorem sendMsix_pins (v : Nat) : (sendMsix s v).pins = s.pins := by unfold sendMsix; split <;> rfl
@[simp] theorem sendMsix_fuses (v : Nat) : (sendMsix s v).fuses = s.fuses := by unfold sendMsix; split <;> rfl
@[simp] theorem sendMsix_flash (v : Nat) : (sendMsix s v).flash = s.flash := by unfold sendMsix; split <;> rfl
@[simp] theorem sendMsix_regs (v : Nat) : (sendMsix s v).regs = s.regs := by unfold sendMsix; split <;> rfl
@[simp] theorem sendMsix_ev (v : Nat) : (sendMsix s v).ev = s.ev := by unfold sendMsix; split <;> rfl
@[simp] theorem sendMsix_cmds (v : Nat) : (sendMsix s v).cmds = s.cmds := by unfold sendMsix; split <;> rfl
@[simp] theorem sendMsix_laps (v : Nat) : (sendMsix s v).laps = s.laps := by unfold sendMsix; split <;> rfl
@[simp] theorem sendMsix_lanes (v : Nat) : (sendMsix s v).lanes = s.lanes := by unfold sendMsix; split <;> rfl
@[simp] theorem sendMsix_num (v : Nat) : (sendMsix s v).num = s.num := by unfold sendMsix; split <;> rfl
@[simp] theorem sendMsix_mem (v : Nat) : (sendMsix s v).mem = s.mem := by unfold sendMsix; split <;> rfl
@[simp] theorem sendMsix_cbz (v : Nat) : (sendMsix s v).cbz = s.cbz := by unfold sendMsix; split <;> rfl
@[simp] theorem sendMsix_fab (v : Nat) : (sendMsix s v).fab = s.fab := by unfold sendMsix; split <;> rfl
@[simp] theorem sendMsix_coll (v : Nat) : (sendMsix s v).coll = s.coll := by unfold sendMsix; split <;> rfl
@[simp] theorem sendMsix_upd (v : Nat) : (sendMsix s v).upd = s.upd := by unfold sendMsix; split <;> rfl
@[simp] theorem sendMsix_mil (v : Nat) : (sendMsix s v).mil = s.mil := by unfold sendMsix; split <;> rfl
@[simp] theorem sendMsix_tim (v : Nat) : (sendMsix s v).tim = s.tim := by unfold sendMsix; split <;> rfl
@[simp] theorem sendMsix_stw (v : Nat) : (sendMsix s v).stw = s.stw := by unfold sendMsix; split <;> rfl
@[simp] theorem sendMsix_pac (v : Nat) : (sendMsix s v).pac = s.pac := by unfold sendMsix; split <;> rfl
@[simp] theorem sendMsix_hot (v : Nat) : (sendMsix s v).hot = s.hot := by unfold sendMsix; split <;> rfl
@[simp] theorem sendMsix_pulsed (v : Nat) : (sendMsix s v).pulsed = s.pulsed := by unfold sendMsix; split <;> rfl
@[simp] theorem sendMsix_deviceTime (v : Nat) : (sendMsix s v).deviceTime = s.deviceTime := by unfold sendMsix; split <;> rfl

/-! `setRingSt` -/
@[simp] theorem setRingSt_pending (n : Nat) (r : RingSt) : (setRingSt s n r).pending = s.pending := (rfl)
@[simp] theorem setRingSt_out (n : Nat) (r : RingSt) : (setRingSt s n r).out = s.out := (rfl)
@[simp] theorem setRingSt_freeCtr (n : Nat) (r : RingSt) : (setRingSt s n r).freeCtr = s.freeCtr := (rfl)
@[simp] theorem setRingSt_life (n : Nat) (r : RingSt) : (setRingSt s n r).life = s.life := (rfl)
@[simp] theorem setRingSt_cause (n : Nat) (r : RingSt) : (setRingSt s n r).cause = s.cause := (rfl)
@[simp] theorem setRingSt_pins (n : Nat) (r : RingSt) : (setRingSt s n r).pins = s.pins := (rfl)
@[simp] theorem setRingSt_fuses (n : Nat) (r : RingSt) : (setRingSt s n r).fuses = s.fuses := (rfl)
@[simp] theorem setRingSt_flash (n : Nat) (r : RingSt) : (setRingSt s n r).flash = s.flash := (rfl)
@[simp] theorem setRingSt_regs (n : Nat) (r : RingSt) : (setRingSt s n r).regs = s.regs := (rfl)
@[simp] theorem setRingSt_host (n : Nat) (r : RingSt) : (setRingSt s n r).host = s.host := (rfl)
@[simp] theorem setRingSt_cmds (n : Nat) (r : RingSt) : (setRingSt s n r).cmds = s.cmds := (rfl)
@[simp] theorem setRingSt_laps (n : Nat) (r : RingSt) : (setRingSt s n r).laps = s.laps := (rfl)
@[simp] theorem setRingSt_lanes (n : Nat) (r : RingSt) : (setRingSt s n r).lanes = s.lanes := (rfl)
@[simp] theorem setRingSt_num (n : Nat) (r : RingSt) : (setRingSt s n r).num = s.num := (rfl)
@[simp] theorem setRingSt_mem (n : Nat) (r : RingSt) : (setRingSt s n r).mem = s.mem := (rfl)
@[simp] theorem setRingSt_cbz (n : Nat) (r : RingSt) : (setRingSt s n r).cbz = s.cbz := (rfl)
@[simp] theorem setRingSt_fab (n : Nat) (r : RingSt) : (setRingSt s n r).fab = s.fab := (rfl)
@[simp] theorem setRingSt_coll (n : Nat) (r : RingSt) : (setRingSt s n r).coll = s.coll := (rfl)
@[simp] theorem setRingSt_upd (n : Nat) (r : RingSt) : (setRingSt s n r).upd = s.upd := (rfl)
@[simp] theorem setRingSt_mil (n : Nat) (r : RingSt) : (setRingSt s n r).mil = s.mil := (rfl)
@[simp] theorem setRingSt_tim (n : Nat) (r : RingSt) : (setRingSt s n r).tim = s.tim := (rfl)
@[simp] theorem setRingSt_stw (n : Nat) (r : RingSt) : (setRingSt s n r).stw = s.stw := (rfl)
@[simp] theorem setRingSt_pac (n : Nat) (r : RingSt) : (setRingSt s n r).pac = s.pac := (rfl)
@[simp] theorem setRingSt_hot (n : Nat) (r : RingSt) : (setRingSt s n r).hot = s.hot := (rfl)
@[simp] theorem setRingSt_pulsed (n : Nat) (r : RingSt) : (setRingSt s n r).pulsed = s.pulsed := (rfl)
@[simp] theorem setRingSt_deviceTime (n : Nat) (r : RingSt) : (setRingSt s n r).deviceTime = s.deviceTime := (rfl)

/-! `setLane` -/
@[simp] theorem setLane_pending (n : Nat) (l : LaneSt) : (setLane s n l).pending = s.pending := (rfl)
@[simp] theorem setLane_out (n : Nat) (l : LaneSt) : (setLane s n l).out = s.out := (rfl)
@[simp] theorem setLane_freeCtr (n : Nat) (l : LaneSt) : (setLane s n l).freeCtr = s.freeCtr := (rfl)
@[simp] theorem setLane_life (n : Nat) (l : LaneSt) : (setLane s n l).life = s.life := (rfl)
@[simp] theorem setLane_cause (n : Nat) (l : LaneSt) : (setLane s n l).cause = s.cause := (rfl)
@[simp] theorem setLane_pins (n : Nat) (l : LaneSt) : (setLane s n l).pins = s.pins := (rfl)
@[simp] theorem setLane_fuses (n : Nat) (l : LaneSt) : (setLane s n l).fuses = s.fuses := (rfl)
@[simp] theorem setLane_flash (n : Nat) (l : LaneSt) : (setLane s n l).flash = s.flash := (rfl)
@[simp] theorem setLane_regs (n : Nat) (l : LaneSt) : (setLane s n l).regs = s.regs := (rfl)
@[simp] theorem setLane_ev (n : Nat) (l : LaneSt) : (setLane s n l).ev = s.ev := (rfl)
@[simp] theorem setLane_host (n : Nat) (l : LaneSt) : (setLane s n l).host = s.host := (rfl)
@[simp] theorem setLane_cmds (n : Nat) (l : LaneSt) : (setLane s n l).cmds = s.cmds := (rfl)
@[simp] theorem setLane_laps (n : Nat) (l : LaneSt) : (setLane s n l).laps = s.laps := (rfl)
@[simp] theorem setLane_num (n : Nat) (l : LaneSt) : (setLane s n l).num = s.num := (rfl)
@[simp] theorem setLane_mem (n : Nat) (l : LaneSt) : (setLane s n l).mem = s.mem := (rfl)
@[simp] theorem setLane_cbz (n : Nat) (l : LaneSt) : (setLane s n l).cbz = s.cbz := (rfl)
@[simp] theorem setLane_fab (n : Nat) (l : LaneSt) : (setLane s n l).fab = s.fab := (rfl)
@[simp] theorem setLane_coll (n : Nat) (l : LaneSt) : (setLane s n l).coll = s.coll := (rfl)
@[simp] theorem setLane_upd (n : Nat) (l : LaneSt) : (setLane s n l).upd = s.upd := (rfl)
@[simp] theorem setLane_mil (n : Nat) (l : LaneSt) : (setLane s n l).mil = s.mil := (rfl)
@[simp] theorem setLane_tim (n : Nat) (l : LaneSt) : (setLane s n l).tim = s.tim := (rfl)
@[simp] theorem setLane_stw (n : Nat) (l : LaneSt) : (setLane s n l).stw = s.stw := (rfl)
@[simp] theorem setLane_pac (n : Nat) (l : LaneSt) : (setLane s n l).pac = s.pac := (rfl)
@[simp] theorem setLane_hot (n : Nat) (l : LaneSt) : (setLane s n l).hot = s.hot := (rfl)
@[simp] theorem setLane_pulsed (n : Nat) (l : LaneSt) : (setLane s n l).pulsed = s.pulsed := (rfl)
@[simp] theorem setLane_deviceTime (n : Nat) (l : LaneSt) : (setLane s n l).deviceTime = s.deviceTime := (rfl)

/-! `setPort` -/
@[simp] theorem setPort_pending (n : Nat) (p : PortSt) : (setPort s n p).pending = s.pending := (rfl)
@[simp] theorem setPort_out (n : Nat) (p : PortSt) : (setPort s n p).out = s.out := (rfl)
@[simp] theorem setPort_freeCtr (n : Nat) (p : PortSt) : (setPort s n p).freeCtr = s.freeCtr := (rfl)
@[simp] theorem setPort_life (n : Nat) (p : PortSt) : (setPort s n p).life = s.life := (rfl)
@[simp] theorem setPort_cause (n : Nat) (p : PortSt) : (setPort s n p).cause = s.cause := (rfl)
@[simp] theorem setPort_pins (n : Nat) (p : PortSt) : (setPort s n p).pins = s.pins := (rfl)
@[simp] theorem setPort_fuses (n : Nat) (p : PortSt) : (setPort s n p).fuses = s.fuses := (rfl)
@[simp] theorem setPort_flash (n : Nat) (p : PortSt) : (setPort s n p).flash = s.flash := (rfl)
@[simp] theorem setPort_regs (n : Nat) (p : PortSt) : (setPort s n p).regs = s.regs := (rfl)
@[simp] theorem setPort_ev (n : Nat) (p : PortSt) : (setPort s n p).ev = s.ev := (rfl)
@[simp] theorem setPort_host (n : Nat) (p : PortSt) : (setPort s n p).host = s.host := (rfl)
@[simp] theorem setPort_cmds (n : Nat) (p : PortSt) : (setPort s n p).cmds = s.cmds := (rfl)
@[simp] theorem setPort_laps (n : Nat) (p : PortSt) : (setPort s n p).laps = s.laps := (rfl)
@[simp] theorem setPort_lanes (n : Nat) (p : PortSt) : (setPort s n p).lanes = s.lanes := (rfl)
@[simp] theorem setPort_num (n : Nat) (p : PortSt) : (setPort s n p).num = s.num := (rfl)
@[simp] theorem setPort_mem (n : Nat) (p : PortSt) : (setPort s n p).mem = s.mem := (rfl)
@[simp] theorem setPort_cbz (n : Nat) (p : PortSt) : (setPort s n p).cbz = s.cbz := (rfl)
@[simp] theorem setPort_coll (n : Nat) (p : PortSt) : (setPort s n p).coll = s.coll := (rfl)
@[simp] theorem setPort_upd (n : Nat) (p : PortSt) : (setPort s n p).upd = s.upd := (rfl)
@[simp] theorem setPort_mil (n : Nat) (p : PortSt) : (setPort s n p).mil = s.mil := (rfl)
@[simp] theorem setPort_tim (n : Nat) (p : PortSt) : (setPort s n p).tim = s.tim := (rfl)
@[simp] theorem setPort_stw (n : Nat) (p : PortSt) : (setPort s n p).stw = s.stw := (rfl)
@[simp] theorem setPort_pac (n : Nat) (p : PortSt) : (setPort s n p).pac = s.pac := (rfl)
@[simp] theorem setPort_hot (n : Nat) (p : PortSt) : (setPort s n p).hot = s.hot := (rfl)
@[simp] theorem setPort_pulsed (n : Nat) (p : PortSt) : (setPort s n p).pulsed = s.pulsed := (rfl)
@[simp] theorem setPort_deviceTime (n : Nat) (p : PortSt) : (setPort s n p).deviceTime = s.deviceTime := (rfl)

/-! `putCmd` -/
@[simp] theorem putCmd_pending (e : CmdEntry) : (putCmd s e).pending = s.pending := (rfl)
@[simp] theorem putCmd_out (e : CmdEntry) : (putCmd s e).out = s.out := (rfl)
@[simp] theorem putCmd_freeCtr (e : CmdEntry) : (putCmd s e).freeCtr = s.freeCtr := (rfl)
@[simp] theorem putCmd_life (e : CmdEntry) : (putCmd s e).life = s.life := (rfl)
@[simp] theorem putCmd_cause (e : CmdEntry) : (putCmd s e).cause = s.cause := (rfl)
@[simp] theorem putCmd_pins (e : CmdEntry) : (putCmd s e).pins = s.pins := (rfl)
@[simp] theorem putCmd_fuses (e : CmdEntry) : (putCmd s e).fuses = s.fuses := (rfl)
@[simp] theorem putCmd_flash (e : CmdEntry) : (putCmd s e).flash = s.flash := (rfl)
@[simp] theorem putCmd_regs (e : CmdEntry) : (putCmd s e).regs = s.regs := (rfl)
@[simp] theorem putCmd_ev (e : CmdEntry) : (putCmd s e).ev = s.ev := (rfl)
@[simp] theorem putCmd_host (e : CmdEntry) : (putCmd s e).host = s.host := (rfl)
@[simp] theorem putCmd_laps (e : CmdEntry) : (putCmd s e).laps = s.laps := (rfl)
@[simp] theorem putCmd_lanes (e : CmdEntry) : (putCmd s e).lanes = s.lanes := (rfl)
@[simp] theorem putCmd_num (e : CmdEntry) : (putCmd s e).num = s.num := (rfl)
@[simp] theorem putCmd_mem (e : CmdEntry) : (putCmd s e).mem = s.mem := (rfl)
@[simp] theorem putCmd_cbz (e : CmdEntry) : (putCmd s e).cbz = s.cbz := (rfl)
@[simp] theorem putCmd_fab (e : CmdEntry) : (putCmd s e).fab = s.fab := (rfl)
@[simp] theorem putCmd_coll (e : CmdEntry) : (putCmd s e).coll = s.coll := (rfl)
@[simp] theorem putCmd_upd (e : CmdEntry) : (putCmd s e).upd = s.upd := (rfl)
@[simp] theorem putCmd_mil (e : CmdEntry) : (putCmd s e).mil = s.mil := (rfl)
@[simp] theorem putCmd_tim (e : CmdEntry) : (putCmd s e).tim = s.tim := (rfl)
@[simp] theorem putCmd_stw (e : CmdEntry) : (putCmd s e).stw = s.stw := (rfl)
@[simp] theorem putCmd_pac (e : CmdEntry) : (putCmd s e).pac = s.pac := (rfl)
@[simp] theorem putCmd_hot (e : CmdEntry) : (putCmd s e).hot = s.hot := (rfl)
@[simp] theorem putCmd_pulsed (e : CmdEntry) : (putCmd s e).pulsed = s.pulsed := (rfl)
@[simp] theorem putCmd_deviceTime (e : CmdEntry) : (putCmd s e).deviceTime = s.deviceTime := (rfl)

/-! `dropCmd` -/
@[simp] theorem dropCmd_pending (q i : Nat) : (dropCmd s q i).pending = s.pending := (rfl)
@[simp] theorem dropCmd_out (q i : Nat) : (dropCmd s q i).out = s.out := (rfl)
@[simp] theorem dropCmd_freeCtr (q i : Nat) : (dropCmd s q i).freeCtr = s.freeCtr := (rfl)
@[simp] theorem dropCmd_life (q i : Nat) : (dropCmd s q i).life = s.life := (rfl)
@[simp] theorem dropCmd_cause (q i : Nat) : (dropCmd s q i).cause = s.cause := (rfl)
@[simp] theorem dropCmd_pins (q i : Nat) : (dropCmd s q i).pins = s.pins := (rfl)
@[simp] theorem dropCmd_fuses (q i : Nat) : (dropCmd s q i).fuses = s.fuses := (rfl)
@[simp] theorem dropCmd_flash (q i : Nat) : (dropCmd s q i).flash = s.flash := (rfl)
@[simp] theorem dropCmd_regs (q i : Nat) : (dropCmd s q i).regs = s.regs := (rfl)
@[simp] theorem dropCmd_ev (q i : Nat) : (dropCmd s q i).ev = s.ev := (rfl)
@[simp] theorem dropCmd_host (q i : Nat) : (dropCmd s q i).host = s.host := (rfl)
@[simp] theorem dropCmd_laps (q i : Nat) : (dropCmd s q i).laps = s.laps := (rfl)
@[simp] theorem dropCmd_lanes (q i : Nat) : (dropCmd s q i).lanes = s.lanes := (rfl)
@[simp] theorem dropCmd_num (q i : Nat) : (dropCmd s q i).num = s.num := (rfl)
@[simp] theorem dropCmd_mem (q i : Nat) : (dropCmd s q i).mem = s.mem := (rfl)
@[simp] theorem dropCmd_cbz (q i : Nat) : (dropCmd s q i).cbz = s.cbz := (rfl)
@[simp] theorem dropCmd_fab (q i : Nat) : (dropCmd s q i).fab = s.fab := (rfl)
@[simp] theorem dropCmd_coll (q i : Nat) : (dropCmd s q i).coll = s.coll := (rfl)
@[simp] theorem dropCmd_upd (q i : Nat) : (dropCmd s q i).upd = s.upd := (rfl)
@[simp] theorem dropCmd_mil (q i : Nat) : (dropCmd s q i).mil = s.mil := (rfl)
@[simp] theorem dropCmd_tim (q i : Nat) : (dropCmd s q i).tim = s.tim := (rfl)
@[simp] theorem dropCmd_stw (q i : Nat) : (dropCmd s q i).stw = s.stw := (rfl)
@[simp] theorem dropCmd_pac (q i : Nat) : (dropCmd s q i).pac = s.pac := (rfl)
@[simp] theorem dropCmd_hot (q i : Nat) : (dropCmd s q i).hot = s.hot := (rfl)
@[simp] theorem dropCmd_pulsed (q i : Nat) : (dropCmd s q i).pulsed = s.pulsed := (rfl)
@[simp] theorem dropCmd_deviceTime (q i : Nat) : (dropCmd s q i).deviceTime = s.deviceTime := (rfl)

/-! `setMilPort` -/
@[simp] theorem setMilPort_pending (n : Nat) (p : MilPort) : (setMilPort s n p).pending = s.pending := (rfl)
@[simp] theorem setMilPort_out (n : Nat) (p : MilPort) : (setMilPort s n p).out = s.out := (rfl)
@[simp] theorem setMilPort_freeCtr (n : Nat) (p : MilPort) : (setMilPort s n p).freeCtr = s.freeCtr := (rfl)
@[simp] theorem setMilPort_life (n : Nat) (p : MilPort) : (setMilPort s n p).life = s.life := (rfl)
@[simp] theorem setMilPort_cause (n : Nat) (p : MilPort) : (setMilPort s n p).cause = s.cause := (rfl)
@[simp] theorem setMilPort_pins (n : Nat) (p : MilPort) : (setMilPort s n p).pins = s.pins := (rfl)
@[simp] theorem setMilPort_fuses (n : Nat) (p : MilPort) : (setMilPort s n p).fuses = s.fuses := (rfl)
@[simp] theorem setMilPort_flash (n : Nat) (p : MilPort) : (setMilPort s n p).flash = s.flash := (rfl)
@[simp] theorem setMilPort_regs (n : Nat) (p : MilPort) : (setMilPort s n p).regs = s.regs := (rfl)
@[simp] theorem setMilPort_ev (n : Nat) (p : MilPort) : (setMilPort s n p).ev = s.ev := (rfl)
@[simp] theorem setMilPort_host (n : Nat) (p : MilPort) : (setMilPort s n p).host = s.host := (rfl)
@[simp] theorem setMilPort_cmds (n : Nat) (p : MilPort) : (setMilPort s n p).cmds = s.cmds := (rfl)
@[simp] theorem setMilPort_laps (n : Nat) (p : MilPort) : (setMilPort s n p).laps = s.laps := (rfl)
@[simp] theorem setMilPort_lanes (n : Nat) (p : MilPort) : (setMilPort s n p).lanes = s.lanes := (rfl)
@[simp] theorem setMilPort_num (n : Nat) (p : MilPort) : (setMilPort s n p).num = s.num := (rfl)
@[simp] theorem setMilPort_mem (n : Nat) (p : MilPort) : (setMilPort s n p).mem = s.mem := (rfl)
@[simp] theorem setMilPort_cbz (n : Nat) (p : MilPort) : (setMilPort s n p).cbz = s.cbz := (rfl)
@[simp] theorem setMilPort_fab (n : Nat) (p : MilPort) : (setMilPort s n p).fab = s.fab := (rfl)
@[simp] theorem setMilPort_coll (n : Nat) (p : MilPort) : (setMilPort s n p).coll = s.coll := (rfl)
@[simp] theorem setMilPort_upd (n : Nat) (p : MilPort) : (setMilPort s n p).upd = s.upd := (rfl)
@[simp] theorem setMilPort_tim (n : Nat) (p : MilPort) : (setMilPort s n p).tim = s.tim := (rfl)
@[simp] theorem setMilPort_stw (n : Nat) (p : MilPort) : (setMilPort s n p).stw = s.stw := (rfl)
@[simp] theorem setMilPort_pac (n : Nat) (p : MilPort) : (setMilPort s n p).pac = s.pac := (rfl)
@[simp] theorem setMilPort_hot (n : Nat) (p : MilPort) : (setMilPort s n p).hot = s.hot := (rfl)
@[simp] theorem setMilPort_pulsed (n : Nat) (p : MilPort) : (setMilPort s n p).pulsed = s.pulsed := (rfl)
@[simp] theorem setMilPort_deviceTime (n : Nat) (p : MilPort) : (setMilPort s n p).deviceTime = s.deviceTime := (rfl)

/-! `takeSlot` -/
@[simp] theorem takeSlot_pending (q : Nat) : (takeSlot s q).pending = s.pending := (rfl)
@[simp] theorem takeSlot_out (q : Nat) : (takeSlot s q).out = s.out := (rfl)
@[simp] theorem takeSlot_freeCtr (q : Nat) : (takeSlot s q).freeCtr = s.freeCtr := (rfl)
@[simp] theorem takeSlot_life (q : Nat) : (takeSlot s q).life = s.life := (rfl)
@[simp] theorem takeSlot_cause (q : Nat) : (takeSlot s q).cause = s.cause := (rfl)
@[simp] theorem takeSlot_pins (q : Nat) : (takeSlot s q).pins = s.pins := (rfl)
@[simp] theorem takeSlot_fuses (q : Nat) : (takeSlot s q).fuses = s.fuses := (rfl)
@[simp] theorem takeSlot_flash (q : Nat) : (takeSlot s q).flash = s.flash := (rfl)
@[simp] theorem takeSlot_regs (q : Nat) : (takeSlot s q).regs = s.regs := (rfl)
@[simp] theorem takeSlot_ev (q : Nat) : (takeSlot s q).ev = s.ev := (rfl)
@[simp] theorem takeSlot_host (q : Nat) : (takeSlot s q).host = s.host := (rfl)
@[simp] theorem takeSlot_laps (q : Nat) : (takeSlot s q).laps = s.laps := (rfl)
@[simp] theorem takeSlot_lanes (q : Nat) : (takeSlot s q).lanes = s.lanes := (rfl)
@[simp] theorem takeSlot_num (q : Nat) : (takeSlot s q).num = s.num := (rfl)
@[simp] theorem takeSlot_mem (q : Nat) : (takeSlot s q).mem = s.mem := (rfl)
@[simp] theorem takeSlot_cbz (q : Nat) : (takeSlot s q).cbz = s.cbz := (rfl)
@[simp] theorem takeSlot_fab (q : Nat) : (takeSlot s q).fab = s.fab := (rfl)
@[simp] theorem takeSlot_coll (q : Nat) : (takeSlot s q).coll = s.coll := (rfl)
@[simp] theorem takeSlot_upd (q : Nat) : (takeSlot s q).upd = s.upd := (rfl)
@[simp] theorem takeSlot_mil (q : Nat) : (takeSlot s q).mil = s.mil := (rfl)
@[simp] theorem takeSlot_tim (q : Nat) : (takeSlot s q).tim = s.tim := (rfl)
@[simp] theorem takeSlot_stw (q : Nat) : (takeSlot s q).stw = s.stw := (rfl)
@[simp] theorem takeSlot_pac (q : Nat) : (takeSlot s q).pac = s.pac := (rfl)
@[simp] theorem takeSlot_hot (q : Nat) : (takeSlot s q).hot = s.hot := (rfl)
@[simp] theorem takeSlot_pulsed (q : Nat) : (takeSlot s q).pulsed = s.pulsed := (rfl)
@[simp] theorem takeSlot_deviceTime (q : Nat) : (takeSlot s q).deviceTime = s.deviceTime := (rfl)

/-! `freshTaps` -/
@[simp] theorem freshTaps_pending (n : Nat) : (freshTaps s n).pending = s.pending := (rfl)
@[simp] theorem freshTaps_out (n : Nat) : (freshTaps s n).out = s.out := (rfl)
@[simp] theorem freshTaps_freeCtr (n : Nat) : (freshTaps s n).freeCtr = s.freeCtr := (rfl)
@[simp] theorem freshTaps_life (n : Nat) : (freshTaps s n).life = s.life := (rfl)
@[simp] theorem freshTaps_cause (n : Nat) : (freshTaps s n).cause = s.cause := (rfl)
@[simp] theorem freshTaps_pins (n : Nat) : (freshTaps s n).pins = s.pins := (rfl)
@[simp] theorem freshTaps_fuses (n : Nat) : (freshTaps s n).fuses = s.fuses := (rfl)
@[simp] theorem freshTaps_flash (n : Nat) : (freshTaps s n).flash = s.flash := (rfl)
@[simp] theorem freshTaps_regs (n : Nat) : (freshTaps s n).regs = s.regs := (rfl)
@[simp] theorem freshTaps_ev (n : Nat) : (freshTaps s n).ev = s.ev := (rfl)
@[simp] theorem freshTaps_host (n : Nat) : (freshTaps s n).host = s.host := (rfl)
@[simp] theorem freshTaps_cmds (n : Nat) : (freshTaps s n).cmds = s.cmds := (rfl)
@[simp] theorem freshTaps_laps (n : Nat) : (freshTaps s n).laps = s.laps := (rfl)
@[simp] theorem freshTaps_lanes (n : Nat) : (freshTaps s n).lanes = s.lanes := (rfl)
@[simp] theorem freshTaps_num (n : Nat) : (freshTaps s n).num = s.num := (rfl)
@[simp] theorem freshTaps_mem (n : Nat) : (freshTaps s n).mem = s.mem := (rfl)
@[simp] theorem freshTaps_cbz (n : Nat) : (freshTaps s n).cbz = s.cbz := (rfl)
@[simp] theorem freshTaps_fab (n : Nat) : (freshTaps s n).fab = s.fab := (rfl)
@[simp] theorem freshTaps_coll (n : Nat) : (freshTaps s n).coll = s.coll := (rfl)
@[simp] theorem freshTaps_upd (n : Nat) : (freshTaps s n).upd = s.upd := (rfl)
@[simp] theorem freshTaps_mil (n : Nat) : (freshTaps s n).mil = s.mil := (rfl)
@[simp] theorem freshTaps_tim (n : Nat) : (freshTaps s n).tim = s.tim := (rfl)
@[simp] theorem freshTaps_stw (n : Nat) : (freshTaps s n).stw = s.stw := (rfl)
@[simp] theorem freshTaps_hot (n : Nat) : (freshTaps s n).hot = s.hot := (rfl)
@[simp] theorem freshTaps_pulsed (n : Nat) : (freshTaps s n).pulsed = s.pulsed := (rfl)
@[simp] theorem freshTaps_deviceTime (n : Nat) : (freshTaps s n).deviceTime = s.deviceTime := (rfl)

@[simp] theorem emit_out (o : Output) : (emit s o).out = s.out ++ [o] := (rfl)

end Sys2Proof.Machine
end

