-- ==== Sys2Proof/Laws/Events.lean ====
section
/-! SUPPORT. What raising an event leaves as it was: everything but the registers, what was sent, the event system
and the vectors held pending. -/

namespace Sys2Proof.Machine

variable (s : State)

/-! `takeSeq` -/
@[simp] theorem takeSeq_pending  : ((takeSeq s).2).pending = s.pending := (rfl)
@[simp] theorem takeSeq_out  : ((takeSeq s).2).out = s.out := (rfl)
@[simp] theorem takeSeq_freeCtr  : ((takeSeq s).2).freeCtr = s.freeCtr := (rfl)
@[simp] theorem takeSeq_life  : ((takeSeq s).2).life = s.life := (rfl)
@[simp] theorem takeSeq_cause  : ((takeSeq s).2).cause = s.cause := (rfl)
@[simp] theorem takeSeq_pins  : ((takeSeq s).2).pins = s.pins := (rfl)
@[simp] theorem takeSeq_fuses  : ((takeSeq s).2).fuses = s.fuses := (rfl)
@[simp] theorem takeSeq_flash  : ((takeSeq s).2).flash = s.flash := (rfl)
@[simp] theorem takeSeq_ev  : ((takeSeq s).2).ev = s.ev := (rfl)
@[simp] theorem takeSeq_host  : ((takeSeq s).2).host = s.host := (rfl)
@[simp] theorem takeSeq_cmds  : ((takeSeq s).2).cmds = s.cmds := (rfl)
@[simp] theorem takeSeq_laps  : ((takeSeq s).2).laps = s.laps := (rfl)
@[simp] theorem takeSeq_lanes  : ((takeSeq s).2).lanes = s.lanes := (rfl)
@[simp] theorem takeSeq_num  : ((takeSeq s).2).num = s.num := (rfl)
@[simp] theorem takeSeq_mem  : ((takeSeq s).2).mem = s.mem := (rfl)
@[simp] theorem takeSeq_cbz  : ((takeSeq s).2).cbz = s.cbz := (rfl)
@[simp] theorem takeSeq_fab  : ((takeSeq s).2).fab = s.fab := (rfl)
@[simp] theorem takeSeq_coll  : ((takeSeq s).2).coll = s.coll := (rfl)
@[simp] theorem takeSeq_upd  : ((takeSeq s).2).upd = s.upd := (rfl)
@[simp] theorem takeSeq_mil  : ((takeSeq s).2).mil = s.mil := (rfl)
@[simp] theorem takeSeq_tim  : ((takeSeq s).2).tim = s.tim := (rfl)
@[simp] theorem takeSeq_stw  : ((takeSeq s).2).stw = s.stw := (rfl)
@[simp] theorem takeSeq_pac  : ((takeSeq s).2).pac = s.pac := (rfl)
@[simp] theorem takeSeq_hot  : ((takeSeq s).2).hot = s.hot := (rfl)
@[simp] theorem takeSeq_pulsed  : ((takeSeq s).2).pulsed = s.pulsed := (rfl)
@[simp] theorem takeSeq_deviceTime  : ((takeSeq s).2).deviceTime = s.deviceTime := (rfl)

/-! `ringSignal` -/
@[simp] theorem ringSignal_pending (n : Nat) : (ringSignal s n).pending = s.pending := by unfold ringSignal; dsimp only; split <;> simp
@[simp] theorem ringSignal_freeCtr (n : Nat) : (ringSignal s n).freeCtr = s.freeCtr := by unfold ringSignal; dsimp only; split <;> simp
@[simp] theorem ringSignal_life (n : Nat) : (ringSignal s n).life = s.life := by unfold ringSignal; dsimp only; split <;> simp
@[simp] theorem ringSignal_cause (n : Nat) : (ringSignal s n).cause = s.cause := by unfold ringSignal; dsimp only; split <;> simp
@[simp] theorem ringSignal_pins (n : Nat) : (ringSignal s n).pins = s.pins := by unfold ringSignal; dsimp only; split <;> simp
@[simp] theorem ringSignal_fuses (n : Nat) : (ringSignal s n).fuses = s.fuses := by unfold ringSignal; dsimp only; split <;> simp
@[simp] theorem ringSignal_flash (n : Nat) : (ringSignal s n).flash = s.flash := by unfold ringSignal; dsimp only; split <;> simp
@[simp] theorem ringSignal_regs (n : Nat) : (ringSignal s n).regs = s.regs := by unfold ringSignal; dsimp only; split <;> simp
@[simp] theorem ringSignal_cmds (n : Nat) : (ringSignal s n).cmds = s.cmds := by unfold ringSignal; dsimp only; split <;> simp
@[simp] theorem ringSignal_laps (n : Nat) : (ringSignal s n).laps = s.laps := by unfold ringSignal; dsimp only; split <;> simp
@[simp] theorem ringSignal_lanes (n : Nat) : (ringSignal s n).lanes = s.lanes := by unfold ringSignal; dsimp only; split <;> simp
@[simp] theorem ringSignal_num (n : Nat) : (ringSignal s n).num = s.num := by unfold ringSignal; dsimp only; split <;> simp
@[simp] theorem ringSignal_mem (n : Nat) : (ringSignal s n).mem = s.mem := by unfold ringSignal; dsimp only; split <;> simp
@[simp] theorem ringSignal_cbz (n : Nat) : (ringSignal s n).cbz = s.cbz := by unfold ringSignal; dsimp only; split <;> simp
@[simp] theorem ringSignal_fab (n : Nat) : (ringSignal s n).fab = s.fab := by unfold ringSignal; dsimp only; split <;> simp
@[simp] theorem ringSignal_coll (n : Nat) : (ringSignal s n).coll = s.coll := by unfold ringSignal; dsimp only; split <;> simp
@[simp] theorem ringSignal_upd (n : Nat) : (ringSignal s n).upd = s.upd := by unfold ringSignal; dsimp only; split <;> simp
@[simp] theorem ringSignal_mil (n : Nat) : (ringSignal s n).mil = s.mil := by unfold ringSignal; dsimp only; split <;> simp
@[simp] theorem ringSignal_tim (n : Nat) : (ringSignal s n).tim = s.tim := by unfold ringSignal; dsimp only; split <;> simp
@[simp] theorem ringSignal_stw (n : Nat) : (ringSignal s n).stw = s.stw := by unfold ringSignal; dsimp only; split <;> simp
@[simp] theorem ringSignal_pac (n : Nat) : (ringSignal s n).pac = s.pac := by unfold ringSignal; dsimp only; split <;> simp
@[simp] theorem ringSignal_hot (n : Nat) : (ringSignal s n).hot = s.hot := by unfold ringSignal; dsimp only; split <;> simp
@[simp] theorem ringSignal_pulsed (n : Nat) : (ringSignal s n).pulsed = s.pulsed := by unfold ringSignal; dsimp only; split <;> simp
@[simp] theorem ringSignal_deviceTime (n : Nat) : (ringSignal s n).deviceTime = s.deviceTime := by unfold ringSignal; dsimp only; split <;> simp

/-! `ringWrite` -/
@[simp] theorem ringWrite_pending (n : Nat) (r : EventRec) : (ringWrite s n r).pending = s.pending := by simp [ringWrite]
@[simp] theorem ringWrite_freeCtr (n : Nat) (r : EventRec) : (ringWrite s n r).freeCtr = s.freeCtr := by simp [ringWrite]
@[simp] theorem ringWrite_life (n : Nat) (r : EventRec) : (ringWrite s n r).life = s.life := by simp [ringWrite]
@[simp] theorem ringWrite_cause (n : Nat) (r : EventRec) : (ringWrite s n r).cause = s.cause := by simp [ringWrite]
@[simp] theorem ringWrite_pins (n : Nat) (r : EventRec) : (ringWrite s n r).pins = s.pins := by simp [ringWrite]
@[simp] theorem ringWrite_fuses (n : Nat) (r : EventRec) : (ringWrite s n r).fuses = s.fuses := by simp [ringWrite]
@[simp] theorem ringWrite_flash (n : Nat) (r : EventRec) : (ringWrite s n r).flash = s.flash := by simp [ringWrite]
@[simp] theorem ringWrite_cmds (n : Nat) (r : EventRec) : (ringWrite s n r).cmds = s.cmds := by simp [ringWrite]
@[simp] theorem ringWrite_laps (n : Nat) (r : EventRec) : (ringWrite s n r).laps = s.laps := by simp [ringWrite]
@[simp] theorem ringWrite_lanes (n : Nat) (r : EventRec) : (ringWrite s n r).lanes = s.lanes := by simp [ringWrite]
@[simp] theorem ringWrite_num (n : Nat) (r : EventRec) : (ringWrite s n r).num = s.num := by simp [ringWrite]
@[simp] theorem ringWrite_mem (n : Nat) (r : EventRec) : (ringWrite s n r).mem = s.mem := by simp [ringWrite]
@[simp] theorem ringWrite_cbz (n : Nat) (r : EventRec) : (ringWrite s n r).cbz = s.cbz := by simp [ringWrite]
@[simp] theorem ringWrite_fab (n : Nat) (r : EventRec) : (ringWrite s n r).fab = s.fab := by simp [ringWrite]
@[simp] theorem ringWrite_coll (n : Nat) (r : EventRec) : (ringWrite s n r).coll = s.coll := by simp [ringWrite]
@[simp] theorem ringWrite_upd (n : Nat) (r : EventRec) : (ringWrite s n r).upd = s.upd := by simp [ringWrite]
@[simp] theorem ringWrite_mil (n : Nat) (r : EventRec) : (ringWrite s n r).mil = s.mil := by simp [ringWrite]
@[simp] theorem ringWrite_tim (n : Nat) (r : EventRec) : (ringWrite s n r).tim = s.tim := by simp [ringWrite]
@[simp] theorem ringWrite_stw (n : Nat) (r : EventRec) : (ringWrite s n r).stw = s.stw := by simp [ringWrite]
@[simp] theorem ringWrite_pac (n : Nat) (r : EventRec) : (ringWrite s n r).pac = s.pac := by simp [ringWrite]
@[simp] theorem ringWrite_hot (n : Nat) (r : EventRec) : (ringWrite s n r).hot = s.hot := by simp [ringWrite]
@[simp] theorem ringWrite_pulsed (n : Nat) (r : EventRec) : (ringWrite s n r).pulsed = s.pulsed := by simp [ringWrite]
@[simp] theorem ringWrite_deviceTime (n : Nat) (r : EventRec) : (ringWrite s n r).deviceTime = s.deviceTime := by simp [ringWrite]

/-! `ringMarker` -/
@[simp] theorem ringMarker_pending (n : Nat) (e : Ev) (l : List Nat) : (ringMarker s n e l).pending = s.pending := by simp [ringMarker]
@[simp] theorem ringMarker_freeCtr (n : Nat) (e : Ev) (l : List Nat) : (ringMarker s n e l).freeCtr = s.freeCtr := by simp [ringMarker]
@[simp] theorem ringMarker_life (n : Nat) (e : Ev) (l : List Nat) : (ringMarker s n e l).life = s.life := by simp [ringMarker]
@[simp] theorem ringMarker_cause (n : Nat) (e : Ev) (l : List Nat) : (ringMarker s n e l).cause = s.cause := by simp [ringMarker]
@[simp] theorem ringMarker_pins (n : Nat) (e : Ev) (l : List Nat) : (ringMarker s n e l).pins = s.pins := by simp [ringMarker]
@[simp] theorem ringMarker_fuses (n : Nat) (e : Ev) (l : List Nat) : (ringMarker s n e l).fuses = s.fuses := by simp [ringMarker]
@[simp] theorem ringMarker_flash (n : Nat) (e : Ev) (l : List Nat) : (ringMarker s n e l).flash = s.flash := by simp [ringMarker]
@[simp] theorem ringMarker_cmds (n : Nat) (e : Ev) (l : List Nat) : (ringMarker s n e l).cmds = s.cmds := by simp [ringMarker]
@[simp] theorem ringMarker_laps (n : Nat) (e : Ev) (l : List Nat) : (ringMarker s n e l).laps = s.laps := by simp [ringMarker]
@[simp] theorem ringMarker_lanes (n : Nat) (e : Ev) (l : List Nat) : (ringMarker s n e l).lanes = s.lanes := by simp [ringMarker]
@[simp] theorem ringMarker_num (n : Nat) (e : Ev) (l : List Nat) : (ringMarker s n e l).num = s.num := by simp [ringMarker]
@[simp] theorem ringMarker_mem (n : Nat) (e : Ev) (l : List Nat) : (ringMarker s n e l).mem = s.mem := by simp [ringMarker]
@[simp] theorem ringMarker_cbz (n : Nat) (e : Ev) (l : List Nat) : (ringMarker s n e l).cbz = s.cbz := by simp [ringMarker]
@[simp] theorem ringMarker_fab (n : Nat) (e : Ev) (l : List Nat) : (ringMarker s n e l).fab = s.fab := by simp [ringMarker]
@[simp] theorem ringMarker_coll (n : Nat) (e : Ev) (l : List Nat) : (ringMarker s n e l).coll = s.coll := by simp [ringMarker]
@[simp] theorem ringMarker_upd (n : Nat) (e : Ev) (l : List Nat) : (ringMarker s n e l).upd = s.upd := by simp [ringMarker]
@[simp] theorem ringMarker_mil (n : Nat) (e : Ev) (l : List Nat) : (ringMarker s n e l).mil = s.mil := by simp [ringMarker]
@[simp] theorem ringMarker_tim (n : Nat) (e : Ev) (l : List Nat) : (ringMarker s n e l).tim = s.tim := by simp [ringMarker]
@[simp] theorem ringMarker_stw (n : Nat) (e : Ev) (l : List Nat) : (ringMarker s n e l).stw = s.stw := by simp [ringMarker]
@[simp] theorem ringMarker_pac (n : Nat) (e : Ev) (l : List Nat) : (ringMarker s n e l).pac = s.pac := by simp [ringMarker]
@[simp] theorem ringMarker_hot (n : Nat) (e : Ev) (l : List Nat) : (ringMarker s n e l).hot = s.hot := by simp [ringMarker]
@[simp] theorem ringMarker_pulsed (n : Nat) (e : Ev) (l : List Nat) : (ringMarker s n e l).pulsed = s.pulsed := by simp [ringMarker]
@[simp] theorem ringMarker_deviceTime (n : Nat) (e : Ev) (l : List Nat) : (ringMarker s n e l).deviceTime = s.deviceTime := by simp [ringMarker]

/-! `ringDrop` -/
@[simp] theorem ringDrop_pending (n : Nat) (r : EventRec) : (ringDrop s n r).pending = s.pending := by simp [ringDrop]
@[simp] theorem ringDrop_out (n : Nat) (r : EventRec) : (ringDrop s n r).out = s.out := by simp [ringDrop]
@[simp] theorem ringDrop_freeCtr (n : Nat) (r : EventRec) : (ringDrop s n r).freeCtr = s.freeCtr := by simp [ringDrop]
@[simp] theorem ringDrop_life (n : Nat) (r : EventRec) : (ringDrop s n r).life = s.life := by simp [ringDrop]
@[simp] theorem ringDrop_cause (n : Nat) (r : EventRec) : (ringDrop s n r).cause = s.cause := by simp [ringDrop]
@[simp] theorem ringDrop_pins (n : Nat) (r : EventRec) : (ringDrop s n r).pins = s.pins := by simp [ringDrop]
@[simp] theorem ringDrop_fuses (n : Nat) (r : EventRec) : (ringDrop s n r).fuses = s.fuses := by simp [ringDrop]
@[simp] theorem ringDrop_flash (n : Nat) (r : EventRec) : (ringDrop s n r).flash = s.flash := by simp [ringDrop]
@[simp] theorem ringDrop_cmds (n : Nat) (r : EventRec) : (ringDrop s n r).cmds = s.cmds := by simp [ringDrop]
@[simp] theorem ringDrop_laps (n : Nat) (r : EventRec) : (ringDrop s n r).laps = s.laps := by simp [ringDrop]
@[simp] theorem ringDrop_lanes (n : Nat) (r : EventRec) : (ringDrop s n r).lanes = s.lanes := by simp [ringDrop]
@[simp] theorem ringDrop_num (n : Nat) (r : EventRec) : (ringDrop s n r).num = s.num := by simp [ringDrop]
@[simp] theorem ringDrop_mem (n : Nat) (r : EventRec) : (ringDrop s n r).mem = s.mem := by simp [ringDrop]
@[simp] theorem ringDrop_cbz (n : Nat) (r : EventRec) : (ringDrop s n r).cbz = s.cbz := by simp [ringDrop]
@[simp] theorem ringDrop_fab (n : Nat) (r : EventRec) : (ringDrop s n r).fab = s.fab := by simp [ringDrop]
@[simp] theorem ringDrop_coll (n : Nat) (r : EventRec) : (ringDrop s n r).coll = s.coll := by simp [ringDrop]
@[simp] theorem ringDrop_upd (n : Nat) (r : EventRec) : (ringDrop s n r).upd = s.upd := by simp [ringDrop]
@[simp] theorem ringDrop_mil (n : Nat) (r : EventRec) : (ringDrop s n r).mil = s.mil := by simp [ringDrop]
@[simp] theorem ringDrop_tim (n : Nat) (r : EventRec) : (ringDrop s n r).tim = s.tim := by simp [ringDrop]
@[simp] theorem ringDrop_stw (n : Nat) (r : EventRec) : (ringDrop s n r).stw = s.stw := by simp [ringDrop]
@[simp] theorem ringDrop_pac (n : Nat) (r : EventRec) : (ringDrop s n r).pac = s.pac := by simp [ringDrop]
@[simp] theorem ringDrop_hot (n : Nat) (r : EventRec) : (ringDrop s n r).hot = s.hot := by simp [ringDrop]
@[simp] theorem ringDrop_pulsed (n : Nat) (r : EventRec) : (ringDrop s n r).pulsed = s.pulsed := by simp [ringDrop]
@[simp] theorem ringDrop_deviceTime (n : Nat) (r : EventRec) : (ringDrop s n r).deviceTime = s.deviceTime := by simp [ringDrop]

/-! `ringPut` -/
@[simp] theorem ringPut_pending (n : Nat) (r : EventRec) : (ringPut s n r).pending = s.pending := by unfold ringPut; dsimp only; repeat (first | split | simp)
@[simp] theorem ringPut_freeCtr (n : Nat) (r : EventRec) : (ringPut s n r).freeCtr = s.freeCtr := by unfold ringPut; dsimp only; repeat (first | split | simp)
@[simp] theorem ringPut_life (n : Nat) (r : EventRec) : (ringPut s n r).life = s.life := by unfold ringPut; dsimp only; repeat (first | split | simp)
@[simp] theorem ringPut_cause (n : Nat) (r : EventRec) : (ringPut s n r).cause = s.cause := by unfold ringPut; dsimp only; repeat (first | split | simp)
@[simp] theorem ringPut_pins (n : Nat) (r : EventRec) : (ringPut s n r).pins = s.pins := by unfold ringPut; dsimp only; repeat (first | split | simp)
@[simp] theorem ringPut_fuses (n : Nat) (r : EventRec) : (ringPut s n r).fuses = s.fuses := by unfold ringPut; dsimp only; repeat (first | split | simp)
@[simp] theorem ringPut_flash (n : Nat) (r : EventRec) : (ringPut s n r).flash = s.flash := by unfold ringPut; dsimp only; repeat (first | split | simp)
@[simp] theorem ringPut_cmds (n : Nat) (r : EventRec) : (ringPut s n r).cmds = s.cmds := by unfold ringPut; dsimp only; repeat (first | split | simp)
@[simp] theorem ringPut_laps (n : Nat) (r : EventRec) : (ringPut s n r).laps = s.laps := by unfold ringPut; dsimp only; repeat (first | split | simp)
@[simp] theorem ringPut_lanes (n : Nat) (r : EventRec) : (ringPut s n r).lanes = s.lanes := by unfold ringPut; dsimp only; repeat (first | split | simp)
@[simp] theorem ringPut_num (n : Nat) (r : EventRec) : (ringPut s n r).num = s.num := by unfold ringPut; dsimp only; repeat (first | split | simp)
@[simp] theorem ringPut_mem (n : Nat) (r : EventRec) : (ringPut s n r).mem = s.mem := by unfold ringPut; dsimp only; repeat (first | split | simp)
@[simp] theorem ringPut_cbz (n : Nat) (r : EventRec) : (ringPut s n r).cbz = s.cbz := by unfold ringPut; dsimp only; repeat (first | split | simp)
@[simp] theorem ringPut_fab (n : Nat) (r : EventRec) : (ringPut s n r).fab = s.fab := by unfold ringPut; dsimp only; repeat (first | split | simp)
@[simp] theorem ringPut_coll (n : Nat) (r : EventRec) : (ringPut s n r).coll = s.coll := by unfold ringPut; dsimp only; repeat (first | split | simp)
@[simp] theorem ringPut_upd (n : Nat) (r : EventRec) : (ringPut s n r).upd = s.upd := by unfold ringPut; dsimp only; repeat (first | split | simp)
@[simp] theorem ringPut_mil (n : Nat) (r : EventRec) : (ringPut s n r).mil = s.mil := by unfold ringPut; dsimp only; repeat (first | split | simp)
@[simp] theorem ringPut_tim (n : Nat) (r : EventRec) : (ringPut s n r).tim = s.tim := by unfold ringPut; dsimp only; repeat (first | split | simp)
@[simp] theorem ringPut_stw (n : Nat) (r : EventRec) : (ringPut s n r).stw = s.stw := by unfold ringPut; dsimp only; repeat (first | split | simp)
@[simp] theorem ringPut_pac (n : Nat) (r : EventRec) : (ringPut s n r).pac = s.pac := by unfold ringPut; dsimp only; repeat (first | split | simp)
@[simp] theorem ringPut_hot (n : Nat) (r : EventRec) : (ringPut s n r).hot = s.hot := by unfold ringPut; dsimp only; repeat (first | split | simp)
@[simp] theorem ringPut_pulsed (n : Nat) (r : EventRec) : (ringPut s n r).pulsed = s.pulsed := by unfold ringPut; dsimp only; repeat (first | split | simp)
@[simp] theorem ringPut_deviceTime (n : Nat) (r : EventRec) : (ringPut s n r).deviceTime = s.deviceTime := by unfold ringPut; dsimp only; repeat (first | split | simp)

/-! `holdPut` -/
@[simp] theorem holdPut_pending (r : EventRec) : (holdPut s r).pending = s.pending := by unfold holdPut; dsimp only; repeat (first | split | simp)
@[simp] theorem holdPut_out (r : EventRec) : (holdPut s r).out = s.out := by unfold holdPut; dsimp only; repeat (first | split | simp)
@[simp] theorem holdPut_freeCtr (r : EventRec) : (holdPut s r).freeCtr = s.freeCtr := by unfold holdPut; dsimp only; repeat (first | split | simp)
@[simp] theorem holdPut_life (r : EventRec) : (holdPut s r).life = s.life := by unfold holdPut; dsimp only; repeat (first | split | simp)
@[simp] theorem holdPut_cause (r : EventRec) : (holdPut s r).cause = s.cause := by unfold holdPut; dsimp only; repeat (first | split | simp)
@[simp] theorem holdPut_pins (r : EventRec) : (holdPut s r).pins = s.pins := by unfold holdPut; dsimp only; repeat (first | split | simp)
@[simp] theorem holdPut_fuses (r : EventRec) : (holdPut s r).fuses = s.fuses := by unfold holdPut; dsimp only; repeat (first | split | simp)
@[simp] theorem holdPut_flash (r : EventRec) : (holdPut s r).flash = s.flash := by unfold holdPut; dsimp only; repeat (first | split | simp)
@[simp] theorem holdPut_cmds (r : EventRec) : (holdPut s r).cmds = s.cmds := by unfold holdPut; dsimp only; repeat (first | split | simp)
@[simp] theorem holdPut_laps (r : EventRec) : (holdPut s r).laps = s.laps := by unfold holdPut; dsimp only; repeat (first | split | simp)
@[simp] theorem holdPut_lanes (r : EventRec) : (holdPut s r).lanes = s.lanes := by unfold holdPut; dsimp only; repeat (first | split | simp)
@[simp] theorem holdPut_num (r : EventRec) : (holdPut s r).num = s.num := by unfold holdPut; dsimp only; repeat (first | split | simp)
@[simp] theorem holdPut_mem (r : EventRec) : (holdPut s r).mem = s.mem := by unfold holdPut; dsimp only; repeat (first | split | simp)
@[simp] theorem holdPut_cbz (r : EventRec) : (holdPut s r).cbz = s.cbz := by unfold holdPut; dsimp only; repeat (first | split | simp)
@[simp] theorem holdPut_fab (r : EventRec) : (holdPut s r).fab = s.fab := by unfold holdPut; dsimp only; repeat (first | split | simp)
@[simp] theorem holdPut_coll (r : EventRec) : (holdPut s r).coll = s.coll := by unfold holdPut; dsimp only; repeat (first | split | simp)
@[simp] theorem holdPut_upd (r : EventRec) : (holdPut s r).upd = s.upd := by unfold holdPut; dsimp only; repeat (first | split | simp)
@[simp] theorem holdPut_mil (r : EventRec) : (holdPut s r).mil = s.mil := by unfold holdPut; dsimp only; repeat (first | split | simp)
@[simp] theorem holdPut_tim (r : EventRec) : (holdPut s r).tim = s.tim := by unfold holdPut; dsimp only; repeat (first | split | simp)
@[simp] theorem holdPut_stw (r : EventRec) : (holdPut s r).stw = s.stw := by unfold holdPut; dsimp only; repeat (first | split | simp)
@[simp] theorem holdPut_pac (r : EventRec) : (holdPut s r).pac = s.pac := by unfold holdPut; dsimp only; repeat (first | split | simp)
@[simp] theorem holdPut_hot (r : EventRec) : (holdPut s r).hot = s.hot := by unfold holdPut; dsimp only; repeat (first | split | simp)
@[simp] theorem holdPut_pulsed (r : EventRec) : (holdPut s r).pulsed = s.pulsed := by unfold holdPut; dsimp only; repeat (first | split | simp)
@[simp] theorem holdPut_deviceTime (r : EventRec) : (holdPut s r).deviceTime = s.deviceTime := by unfold holdPut; dsimp only; repeat (first | split | simp)

/-! `putRecord` -/
@[simp] theorem putRecord_pending (p c v : Nat) (l : List Nat) : (putRecord s p c v l).pending = s.pending := by unfold putRecord; dsimp only; split <;> simp
@[simp] theorem putRecord_freeCtr (p c v : Nat) (l : List Nat) : (putRecord s p c v l).freeCtr = s.freeCtr := by unfold putRecord; dsimp only; split <;> simp
@[simp] theorem putRecord_life (p c v : Nat) (l : List Nat) : (putRecord s p c v l).life = s.life := by unfold putRecord; dsimp only; split <;> simp
@[simp] theorem putRecord_cause (p c v : Nat) (l : List Nat) : (putRecord s p c v l).cause = s.cause := by unfold putRecord; dsimp only; split <;> simp
@[simp] theorem putRecord_pins (p c v : Nat) (l : List Nat) : (putRecord s p c v l).pins = s.pins := by unfold putRecord; dsimp only; split <;> simp
@[simp] theorem putRecord_fuses (p c v : Nat) (l : List Nat) : (putRecord s p c v l).fuses = s.fuses := by unfold putRecord; dsimp only; split <;> simp
@[simp] theorem putRecord_flash (p c v : Nat) (l : List Nat) : (putRecord s p c v l).flash = s.flash := by unfold putRecord; dsimp only; split <;> simp
@[simp] theorem putRecord_cmds (p c v : Nat) (l : List Nat) : (putRecord s p c v l).cmds = s.cmds := by unfold putRecord; dsimp only; split <;> simp
@[simp] theorem putRecord_laps (p c v : Nat) (l : List Nat) : (putRecord s p c v l).laps = s.laps := by unfold putRecord; dsimp only; split <;> simp
@[simp] theorem putRecord_lanes (p c v : Nat) (l : List Nat) : (putRecord s p c v l).lanes = s.lanes := by unfold putRecord; dsimp only; split <;> simp
@[simp] theorem putRecord_num (p c v : Nat) (l : List Nat) : (putRecord s p c v l).num = s.num := by unfold putRecord; dsimp only; split <;> simp
@[simp] theorem putRecord_mem (p c v : Nat) (l : List Nat) : (putRecord s p c v l).mem = s.mem := by unfold putRecord; dsimp only; split <;> simp
@[simp] theorem putRecord_cbz (p c v : Nat) (l : List Nat) : (putRecord s p c v l).cbz = s.cbz := by unfold putRecord; dsimp only; split <;> simp
@[simp] theorem putRecord_fab (p c v : Nat) (l : List Nat) : (putRecord s p c v l).fab = s.fab := by unfold putRecord; dsimp only; split <;> simp
@[simp] theorem putRecord_coll (p c v : Nat) (l : List Nat) : (putRecord s p c v l).coll = s.coll := by unfold putRecord; dsimp only; split <;> simp
@[simp] theorem putRecord_upd (p c v : Nat) (l : List Nat) : (putRecord s p c v l).upd = s.upd := by unfold putRecord; dsimp only; split <;> simp
@[simp] theorem putRecord_mil (p c v : Nat) (l : List Nat) : (putRecord s p c v l).mil = s.mil := by unfold putRecord; dsimp only; split <;> simp
@[simp] theorem putRecord_tim (p c v : Nat) (l : List Nat) : (putRecord s p c v l).tim = s.tim := by unfold putRecord; dsimp only; split <;> simp
@[simp] theorem putRecord_stw (p c v : Nat) (l : List Nat) : (putRecord s p c v l).stw = s.stw := by unfold putRecord; dsimp only; split <;> simp
@[simp] theorem putRecord_pac (p c v : Nat) (l : List Nat) : (putRecord s p c v l).pac = s.pac := by unfold putRecord; dsimp only; split <;> simp
@[simp] theorem putRecord_hot (p c v : Nat) (l : List Nat) : (putRecord s p c v l).hot = s.hot := by unfold putRecord; dsimp only; split <;> simp
@[simp] theorem putRecord_pulsed (p c v : Nat) (l : List Nat) : (putRecord s p c v l).pulsed = s.pulsed := by unfold putRecord; dsimp only; split <;> simp
@[simp] theorem putRecord_deviceTime (p c v : Nat) (l : List Nat) : (putRecord s p c v l).deviceTime = s.deviceTime := by unfold putRecord; dsimp only; split <;> simp

/-! `raiseEv` -/
@[simp] theorem raiseEv_pending (p : Nat) (e : Ev) (l : List Nat) : (raiseEv s p e l).pending = s.pending := by unfold raiseEv; dsimp only; split <;> split <;> simp
@[simp] theorem raiseEv_freeCtr (p : Nat) (e : Ev) (l : List Nat) : (raiseEv s p e l).freeCtr = s.freeCtr := by unfold raiseEv; dsimp only; split <;> split <;> simp
@[simp] theorem raiseEv_life (p : Nat) (e : Ev) (l : List Nat) : (raiseEv s p e l).life = s.life := by unfold raiseEv; dsimp only; split <;> split <;> simp
@[simp] theorem raiseEv_cause (p : Nat) (e : Ev) (l : List Nat) : (raiseEv s p e l).cause = s.cause := by unfold raiseEv; dsimp only; split <;> split <;> simp
@[simp] theorem raiseEv_pins (p : Nat) (e : Ev) (l : List Nat) : (raiseEv s p e l).pins = s.pins := by unfold raiseEv; dsimp only; split <;> split <;> simp
@[simp] theorem raiseEv_fuses (p : Nat) (e : Ev) (l : List Nat) : (raiseEv s p e l).fuses = s.fuses := by unfold raiseEv; dsimp only; split <;> split <;> simp
@[simp] theorem raiseEv_flash (p : Nat) (e : Ev) (l : List Nat) : (raiseEv s p e l).flash = s.flash := by unfold raiseEv; dsimp only; split <;> split <;> simp
@[simp] theorem raiseEv_cmds (p : Nat) (e : Ev) (l : List Nat) : (raiseEv s p e l).cmds = s.cmds := by unfold raiseEv; dsimp only; split <;> split <;> simp
@[simp] theorem raiseEv_laps (p : Nat) (e : Ev) (l : List Nat) : (raiseEv s p e l).laps = s.laps := by unfold raiseEv; dsimp only; split <;> split <;> simp
@[simp] theorem raiseEv_lanes (p : Nat) (e : Ev) (l : List Nat) : (raiseEv s p e l).lanes = s.lanes := by unfold raiseEv; dsimp only; split <;> split <;> simp
@[simp] theorem raiseEv_num (p : Nat) (e : Ev) (l : List Nat) : (raiseEv s p e l).num = s.num := by unfold raiseEv; dsimp only; split <;> split <;> simp
@[simp] theorem raiseEv_mem (p : Nat) (e : Ev) (l : List Nat) : (raiseEv s p e l).mem = s.mem := by unfold raiseEv; dsimp only; split <;> split <;> simp
@[simp] theorem raiseEv_cbz (p : Nat) (e : Ev) (l : List Nat) : (raiseEv s p e l).cbz = s.cbz := by unfold raiseEv; dsimp only; split <;> split <;> simp
@[simp] theorem raiseEv_fab (p : Nat) (e : Ev) (l : List Nat) : (raiseEv s p e l).fab = s.fab := by unfold raiseEv; dsimp only; split <;> split <;> simp
@[simp] theorem raiseEv_coll (p : Nat) (e : Ev) (l : List Nat) : (raiseEv s p e l).coll = s.coll := by unfold raiseEv; dsimp only; split <;> split <;> simp
@[simp] theorem raiseEv_upd (p : Nat) (e : Ev) (l : List Nat) : (raiseEv s p e l).upd = s.upd := by unfold raiseEv; dsimp only; split <;> split <;> simp
@[simp] theorem raiseEv_mil (p : Nat) (e : Ev) (l : List Nat) : (raiseEv s p e l).mil = s.mil := by unfold raiseEv; dsimp only; split <;> split <;> simp
@[simp] theorem raiseEv_tim (p : Nat) (e : Ev) (l : List Nat) : (raiseEv s p e l).tim = s.tim := by unfold raiseEv; dsimp only; split <;> split <;> simp
@[simp] theorem raiseEv_stw (p : Nat) (e : Ev) (l : List Nat) : (raiseEv s p e l).stw = s.stw := by unfold raiseEv; dsimp only; split <;> split <;> simp
@[simp] theorem raiseEv_pac (p : Nat) (e : Ev) (l : List Nat) : (raiseEv s p e l).pac = s.pac := by unfold raiseEv; dsimp only; split <;> split <;> simp
@[simp] theorem raiseEv_hot (p : Nat) (e : Ev) (l : List Nat) : (raiseEv s p e l).hot = s.hot := by unfold raiseEv; dsimp only; split <;> split <;> simp
@[simp] theorem raiseEv_pulsed (p : Nat) (e : Ev) (l : List Nat) : (raiseEv s p e l).pulsed = s.pulsed := by unfold raiseEv; dsimp only; split <;> split <;> simp
@[simp] theorem raiseEv_deviceTime (p : Nat) (e : Ev) (l : List Nat) : (raiseEv s p e l).deviceTime = s.deviceTime := by unfold raiseEv; dsimp only; split <;> split <;> simp

/-! `pathFailed` -/
@[simp] theorem pathFailed_pending (p w : Nat) (o : Bool) : (pathFailed s p w o).pending = s.pending := by simp [pathFailed]
@[simp] theorem pathFailed_freeCtr (p w : Nat) (o : Bool) : (pathFailed s p w o).freeCtr = s.freeCtr := by simp [pathFailed]
@[simp] theorem pathFailed_life (p w : Nat) (o : Bool) : (pathFailed s p w o).life = s.life := by simp [pathFailed]
@[simp] theorem pathFailed_cause (p w : Nat) (o : Bool) : (pathFailed s p w o).cause = s.cause := by simp [pathFailed]
@[simp] theorem pathFailed_pins (p w : Nat) (o : Bool) : (pathFailed s p w o).pins = s.pins := by simp [pathFailed]
@[simp] theorem pathFailed_fuses (p w : Nat) (o : Bool) : (pathFailed s p w o).fuses = s.fuses := by simp [pathFailed]
@[simp] theorem pathFailed_flash (p w : Nat) (o : Bool) : (pathFailed s p w o).flash = s.flash := by simp [pathFailed]
@[simp] theorem pathFailed_cmds (p w : Nat) (o : Bool) : (pathFailed s p w o).cmds = s.cmds := by simp [pathFailed]
@[simp] theorem pathFailed_laps (p w : Nat) (o : Bool) : (pathFailed s p w o).laps = s.laps := by simp [pathFailed]
@[simp] theorem pathFailed_lanes (p w : Nat) (o : Bool) : (pathFailed s p w o).lanes = s.lanes := by simp [pathFailed]
@[simp] theorem pathFailed_num (p w : Nat) (o : Bool) : (pathFailed s p w o).num = s.num := by simp [pathFailed]
@[simp] theorem pathFailed_mem (p w : Nat) (o : Bool) : (pathFailed s p w o).mem = s.mem := by simp [pathFailed]
@[simp] theorem pathFailed_cbz (p w : Nat) (o : Bool) : (pathFailed s p w o).cbz = s.cbz := by simp [pathFailed]
@[simp] theorem pathFailed_fab (p w : Nat) (o : Bool) : (pathFailed s p w o).fab = s.fab := by simp [pathFailed]
@[simp] theorem pathFailed_coll (p w : Nat) (o : Bool) : (pathFailed s p w o).coll = s.coll := by simp [pathFailed]
@[simp] theorem pathFailed_upd (p w : Nat) (o : Bool) : (pathFailed s p w o).upd = s.upd := by simp [pathFailed]
@[simp] theorem pathFailed_mil (p w : Nat) (o : Bool) : (pathFailed s p w o).mil = s.mil := by simp [pathFailed]
@[simp] theorem pathFailed_tim (p w : Nat) (o : Bool) : (pathFailed s p w o).tim = s.tim := by simp [pathFailed]
@[simp] theorem pathFailed_stw (p w : Nat) (o : Bool) : (pathFailed s p w o).stw = s.stw := by simp [pathFailed]
@[simp] theorem pathFailed_pac (p w : Nat) (o : Bool) : (pathFailed s p w o).pac = s.pac := by simp [pathFailed]
@[simp] theorem pathFailed_hot (p w : Nat) (o : Bool) : (pathFailed s p w o).hot = s.hot := by simp [pathFailed]
@[simp] theorem pathFailed_pulsed (p w : Nat) (o : Bool) : (pathFailed s p w o).pulsed = s.pulsed := by simp [pathFailed]
@[simp] theorem pathFailed_deviceTime (p w : Nat) (o : Bool) : (pathFailed s p w o).deviceTime = s.deviceTime := by simp [pathFailed]

/-- What an engine's path does: with nothing lost the operation goes on, and in the same state where nothing is replayed. -/
theorem stageWords_none (p w : Nat) : stageWords s p w {} = (s, true) := rfl

theorem stageWords_lost (p w k : Nat) (o : Bool) : stageWords s p w ⟨k, some o⟩ =
    (pathFailed (if k = 0 then s else satF s DEV_REPLAY_path_replays k) p w o, false) := rfl

end Sys2Proof.Machine
end

