-- ==== Sys2Proof/Laws/Table.lean ====
section
/-! SUPPORT. Laws of sparse tables: what a write makes each key read, and that writes and removals keep the canonical
form. -/

namespace Sys2Proof.Machine

variable {α : Type} (d : Nat → α)

theorem tget_tput_same (t : Table α) (k : Nat) (v : α) : tget d (tput k v t) k = v := by
  induction t with
  | nil => simp [tput, tget]
  | cons p t ih =>
    obtain ⟨j, w⟩ := p
    by_cases h1 : k < j
    · simp [tput, tget, h1]
    · by_cases h2 : k = j
      · simp [tput, tget, h2]
      · have h3 : j ≠ k := fun h => h2 h.symm
        simp [tput, tget, h1, h2, h3, ih]

theorem tget_tput_ne (t : Table α) {k a : Nat} (v : α) (h : a ≠ k) : tget d (tput k v t) a = tget d t a := by
  have h' : k ≠ a := fun e => h e.symm
  induction t with
  | nil => simp [tput, tget, h']
  | cons p t ih =>
    obtain ⟨j, w⟩ := p
    by_cases h1 : k < j
    · simp [tput, tget, h1, h']
    · by_cases h2 : k = j
      · subst h2; simp [tput, tget, h']
      · simp [tput, tget, h1, h2, ih]

theorem tget_tdel_ne (t : Table α) {k a : Nat} (h : a ≠ k) : tget d (tdel k t) a = tget d t a := by
  have h' : k ≠ a := fun e => h e.symm
  induction t with
  | nil => rfl
  | cons p t ih =>
    obtain ⟨j, w⟩ := p
    by_cases h1 : j = k
    · subst h1; simp [tdel, tget, h']
    · simp [tdel, tget, h1, ih]

theorem risingAbove_mono {t : Table α} {a b : Nat} (h : risingAbove b t = true) (hab : a ≤ b) :
    risingAbove a t = true := by
  cases t with
  | nil => rfl
  | cons p t => obtain ⟨j, w⟩ := p; simp [risingAbove] at h ⊢; exact ⟨by omega, h.2⟩

theorem risingAbove_tdel {t : Table α} {b : Nat} (k : Nat) (h : risingAbove b t = true) :
    risingAbove b (tdel k t) = true := by
  induction t generalizing b with
  | nil => rfl
  | cons p t ih =>
    obtain ⟨j, w⟩ := p
    simp [risingAbove] at h
    by_cases h1 : j = k
    · simpa [tdel, h1] using risingAbove_mono h.2 (by omega)
    · simpa [tdel, h1, risingAbove] using ⟨h.1, ih h.2⟩

theorem risingAbove_tput {t : Table α} {b k : Nat} (v : α) (h : risingAbove b t = true) (hk : b ≤ k) :
    risingAbove b (tput k v t) = true := by
  induction t generalizing b with
  | nil => simp [tput, risingAbove, hk]
  | cons p t ih =>
    obtain ⟨j, w⟩ := p
    simp [risingAbove] at h
    by_cases h1 : k < j
    · simp [tput, h1, risingAbove, hk, h.2, Nat.succ_le_of_lt h1]
    · by_cases h2 : k = j
      · subst h2; simp [tput, risingAbove, hk, h.2]
      · simpa [tput, h1, h2, risingAbove] using ⟨h.1, ih h.2 (by omega)⟩

theorem risingAbove_filter {t : Table α} {b : Nat} (p : Nat × α → Bool) (h : risingAbove b t = true) :
    risingAbove b (t.filter p) = true := by
  induction t generalizing b with
  | nil => rfl
  | cons q t ih =>
    obtain ⟨j, w⟩ := q
    simp [risingAbove] at h
    by_cases hp : p (j, w) = true
    · simpa [List.filter, hp, risingAbove] using ⟨h.1, ih h.2⟩
    · simpa [List.filter, hp] using risingAbove_mono (ih h.2) (by omega)

theorem mem_of_mem_tdel {t : Table α} {k : Nat} {e : Nat × α} (h : e ∈ tdel k t) : e ∈ t := by
  induction t with
  | nil => simp [tdel] at h
  | cons p t ih =>
    obtain ⟨j, w⟩ := p
    by_cases h1 : j = k
    · simp [tdel, h1] at h; simp [h]
    · simp [tdel, h1] at h; rcases h with h | h
      · simp [h]
      · simp [ih h]

theorem mem_of_mem_tput {t : Table α} {k : Nat} {v : α} {e : Nat × α} (h : e ∈ tput k v t) : e = (k, v) ∨ e ∈ t := by
  induction t with
  | nil => simp [tput] at h; simp [h]
  | cons p t ih =>
    obtain ⟨j, w⟩ := p
    by_cases h1 : k < j
    · simp [tput, h1] at h; simpa using h
    · by_cases h2 : k = j
      · subst h2; simp [tput] at h; rcases h with h | h <;> simp [h]
      · simp [tput, h1, h2] at h; rcases h with h | h
        · simp [h]
        · rcases ih h with h | h <;> simp [h]

/-- A key below every listed one reads its default. -/
theorem tget_of_rising {t : Table α} {b k : Nat} (h : risingAbove b t = true) (hk : k < b) : tget d t k = d k := by
  induction t generalizing b with
  | nil => rfl
  | cons p t ih =>
    obtain ⟨j, w⟩ := p
    simp [risingAbove] at h
    have : j ≠ k := by omega
    simp [tget, this, ih h.2 (by omega)]

theorem tget_tdel_same {t : Table α} {b : Nat} (k : Nat) (h : risingAbove b t = true) : tget d (tdel k t) k = d k := by
  induction t generalizing b with
  | nil => rfl
  | cons p t ih =>
    obtain ⟨j, w⟩ := p
    simp [risingAbove] at h
    by_cases h1 : j = k
    · subst h1; simpa [tdel] using tget_of_rising d h.2 (by omega)
    · simp [tdel, h1, tget, ih h.2]

variable [DecidableEq α]

/-- A written key reads what was written, in a canonical table. -/
theorem tget_tset_same {t : Table α} (h : tableWf d t = true) (k : Nat) (v : α) : tget d (tset d t k v) k = v := by
  simp only [tableWf, Bool.and_eq_true] at h
  by_cases hv : v = d k
  · simp [tset, hv, tget_tdel_same d k h.1]
  · simp [tset, hv, tget_tput_same]

/-- A written key reads what was written, whatever the table, where that is not the key's default. -/
theorem tget_tset_of_ne_default (t : Table α) (k : Nat) {v : α} (hv : v ≠ d k) : tget d (tset d t k v) k = v := by
  simp [tset, hv, tget_tput_same]

/-- Every other key reads as before, whatever the table. -/
theorem tget_tset_ne (t : Table α) {k a : Nat} (v : α) (h : a ≠ k) : tget d (tset d t k v) a = tget d t a := by
  by_cases hv : v = d k
  · simp [tset, hv, tget_tdel_ne d t h]
  · simp [tset, hv, tget_tput_ne d t v h]

/-- A write keeps the canonical form. -/
theorem tableWf_tset {t : Table α} (h : tableWf d t = true) (k : Nat) (v : α) : tableWf d (tset d t k v) = true := by
  simp only [tableWf, Bool.and_eq_true, List.all_eq_true, decide_eq_true_eq] at h ⊢
  by_cases hv : v = d k
  · simp only [tset, hv, if_true]
    exact ⟨risingAbove_tdel k h.1, fun e he => h.2 e (mem_of_mem_tdel he)⟩
  · simp only [tset, hv, if_false]
    refine ⟨risingAbove_tput v h.1 (Nat.zero_le k), fun e he => ?_⟩
    rcases mem_of_mem_tput he with rfl | he
    · exact hv
    · exact h.2 e he

/-- A removal of entries keeps the canonical form. -/
theorem tableWf_filter {t : Table α} (h : tableWf d t = true) (p : Nat × α → Bool) :
    tableWf d (t.filter p) = true := by
  simp only [tableWf, Bool.and_eq_true, List.all_eq_true, decide_eq_true_eq] at h ⊢
  exact ⟨risingAbove_filter p h.1, fun e he => h.2 e (List.mem_filter.mp he).1⟩

end Sys2Proof.Machine
end

