-- ==== Sys2Proof/Laws/Memory.lean ====
section
/-! SUPPORT. Laws of memory: a write is read back, leaves every other byte alone, and keeps the canonical form. -/

namespace Sys2Proof.Machine

theorem pokeCells_ne (cells : List Host.Cell) (a : Nat) (bs : List Byte) {x : Nat} (h : x < a ∨ a + bs.length ≤ x) :
    tget (fun _ => (0 : Byte)) (pokeCells cells a bs) x = tget (fun _ => (0 : Byte)) cells x := by
  induction bs generalizing cells a with
  | nil => rfl
  | cons b bs ih =>
    simp only [List.length_cons] at h
    rw [pokeCells, ih _ _ (by omega), tget_tset_ne _ _ _ (by omega)]

theorem pokeCells_wf {cells : List Host.Cell} (a : Nat) (bs : List Byte)
    (h : tableWf (fun _ => (0 : Byte)) cells = true) : tableWf (fun _ => (0 : Byte)) (pokeCells cells a bs) = true := by
  induction bs generalizing cells a with
  | nil => exact h
  | cons b bs ih => exact ih _ (tableWf_tset _ h a b)

theorem pokeCells_same {cells : List Host.Cell} (a : Nat) (bs : List Byte)
    (h : tableWf (fun _ => (0 : Byte)) cells = true) {i : Nat} (hi : i < bs.length) :
    tget (fun _ => (0 : Byte)) (pokeCells cells a bs) (a + i) = bs[i] := by
  induction bs generalizing cells a i with
  | nil => simp at hi
  | cons b bs ih =>
    rw [pokeCells]
    cases i with
    | zero => rw [pokeCells_ne _ _ _ (by omega)]; simpa using tget_tset_same _ h a b
    | succ i =>
      have := ih (a + 1) (tableWf_tset _ h a b) (i := i) (by simpa using hi)
      simpa [Nat.add_comm, Nat.add_left_comm, Nat.add_assoc] using this

/-- A write of bytes keeps memory's canonical form. -/
theorem poke_memWf {s : State} (a : Nat) (bs : List Byte) (h : s.memWf = true) : (poke s a bs).memWf = true :=
  pokeCells_wf a bs h

/-- A byte outside the written range reads as before. -/
theorem poke_byte_ne (s : State) (a : Nat) (bs : List Byte) {x : Nat} (h : x < a ∨ a + bs.length ≤ x) :
    memByte (poke s a bs) x = memByte s x := by
  simpa [memByte, poke] using pokeCells_ne s.mem.cells a bs h

/-- A written byte reads what was written. -/
theorem poke_byte_same {s : State} (a : Nat) (bs : List Byte) (h : s.memWf = true) {i : Nat} (hi : i < bs.length) :
    memByte (poke s a bs) (a + i) = bs[i] := by
  simpa [memByte, poke] using pokeCells_same a bs h hi

end Sys2Proof.Machine
end

