-- ==== Sys2Proof/Laws/Regs.lean ====
section
/-! SUPPORT. Laws of registers: what storing a word or a field makes each register read, and the canonical form. -/

namespace Sys2Proof.Machine

theorem reg_setReg_same {s : State} (h : s.regsWf = true) (a : Nat) (w : Word) : reg (setReg s a w) a = w :=
  tget_tset_same _ h a w

theorem reg_setReg_ne (s : State) {a b : Nat} (w : Word) (h : b ≠ a) : reg (setReg s a w) b = reg s b :=
  tget_tset_ne _ _ w h

theorem setReg_regsWf {s : State} (h : s.regsWf = true) (a : Nat) (w : Word) : (setReg s a w).regsWf = true :=
  tableWf_tset _ h a w

theorem setF_regsWf {s : State} (h : s.regsWf = true) (f : Fld) (v : Nat) : (setF s f v).regsWf = true :=
  setReg_regsWf h _ _

theorem satF_regsWf {s : State} (h : s.regsWf = true) (f : Fld) (k : Nat) : (satF s f k).regsWf = true :=
  setF_regsWf h _ _

theorem reg_setF_ne (s : State) {f : Fld} {a : Nat} (v : Nat) (h : a ≠ f.addr) : reg (setF s f v) a = reg s a :=
  reg_setReg_ne s _ h

theorem reg_satF_ne (s : State) {f : Fld} {a : Nat} (k : Nat) (h : a ≠ f.addr) : reg (satF s f k) a = reg s a :=
  reg_setF_ne s _ h

/-- A field of another register reads as before. -/
theorem getF_setF_ne (s : State) {f g : Fld} (v : Nat) (h : g.addr ≠ f.addr) : getF (setF s f v) g = getF s g := by
  unfold getF; rw [reg_setF_ne s v h]

theorem isSet_setF_ne (s : State) {f g : Fld} (v : Nat) (h : g.addr ≠ f.addr) : isSet (setF s f v) g = isSet s g := by
  unfold isSet; rw [getF_setF_ne s v h]

end Sys2Proof.Machine
end

