-- ==== Sys2Proof/Laws/Vec.lean ====
section
/-! SUPPORT. What a row of the vector unit does (R193, R210): its body runs on the program's word, one more instruction
retires, and the program goes on. -/

namespace Sys2Proof.Machine

/-- A stored lane that runs a program reads back. -/
theorem lane_setLane_same (s : State) (l : Nat) {x : LaneSt} (hx : x.vecRun.isSome = true) : lane (setLane s l x) l = x := by
  apply tget_tset_of_ne_default
  intro e
  simp [e] at hx

/-- Storing one lane leaves the others. -/
theorem lane_setLane_ne (s : State) {l m : Nat} (x : LaneSt) (h : m ≠ l) : lane (setLane s l x) m = lane s m :=
  tget_tset_ne _ _ _ h

/-- Storing a lane changes the lanes alone. -/
theorem setLane_lanes (s : State) (l : Nat) (x : LaneSt) : { setLane s l x with lanes := s.lanes } = s := rfl

/-- A row's body runs where the row's test passes the program's word. -/
theorem vecStep_of_vecAt {s : State} {l w : Nat} {ln : LaneSt} {sur : Surround} (h : VecAt s l ln w sur) {sel : Nat → Bool}
    {body : State → Nat → LaneSt → Nat → VOut} (hs : sel w = true) :
    vecStep sel body l sur s = match body s l ln w with
      | .wait => s
      | .fault s st d => vecFaultAt s l st d ln.pc
      | .next s => vecGoto (vecRetire s l sur.slots) l ln.pc (ln.pc + 1)
      | .jump s pc => vecGoto (vecRetire s l sur.slots) l ln.pc pc
      | .done s code =>
        let s := vecRetire s l sur.slots
        let s := setLane s l { lane s l with exitCode := code }
        match ln.vecRun with
        | some (q, idx) => finishParts (endPart s q idx l stOK 0) q idx []
        | none => s := by
  obtain ⟨h1, h2, rfl, hv, hf, hr, ⟨d, hd, rfl⟩, ho, hl⟩ := h
  obtain ⟨⟨q, idx⟩, hv⟩ := Option.isSome_iff_exists.mp hv
  simp only [vecStep, hv, hf, hr, hd, hs, ho, hl]
  simp [hd, hs, ho]

/-- Going on after an instruction that left lane l with ln and its program running. -/
theorem vecGoto_vecRetire {s1 : State} {l dry pc old : Nat} {ln : LaneSt} (hl : lane s1 l = ln)
    (hv : ln.vecRun.isSome = true) (hp : pc < ln.prog.length) :
    LaneStep s1 (vecGoto (vecRetire s1 l dry) l old pc) l dry pc ln ∧
      { vecGoto (vecRetire s1 l dry) l old pc with lanes := s1.lanes } = s1 := by
  subst hl
  have e : lane (vecRetire s1 l dry) l = { lane s1 l with
      count := (lane s1 l).count + 1, retired := satAdd 32 (lane s1 l).retired 1,
      slots := (lane s1 l).slots + 1 + dry } := lane_setLane_same _ _ (by simpa using hv)
  have g : vecGoto (vecRetire s1 l dry) l old pc =
      setLane (vecRetire s1 l dry) l { lane (vecRetire s1 l dry) l with pc := pc } := by
    simp [vecGoto, e, hp]
  rw [g]
  refine ⟨⟨?_, fun m hm => ?_⟩, rfl⟩
  · rw [lane_setLane_same _ _ (by simp [e, hv]), e]
  · rw [lane_setLane_ne _ _ hm]; exact lane_setLane_ne _ _ hm

/-- An instruction that changes its lane's registers alone. -/
theorem regOp_steps {s : State} {l w : Nat} {ln : LaneSt} {sur : Surround} (h : VecNext s l ln w sur) {sel : Nat → Bool}
    {f : State → LaneSt → Nat → LaneSt} (hs : sel w = true) (hp : (f s ln w).prog = ln.prog)
    (hv : (f s ln w).vecRun = ln.vecRun) :
    LaneStep s (vecStep sel (regOp f) l sur s) l sur.slots (ln.pc + 1) (f s ln w) ∧
      { vecStep sel (regOp f) l sur s with lanes := s.lanes } = s := by
  have hr := h.1.2.2.2.1
  rw [vecStep_of_vecAt h.1 hs]
  have e := lane_setLane_same s l (x := f s ln w) (by rw [hv]; exact hr)
  obtain ⟨⟨a, b⟩, c⟩ := vecGoto_vecRetire (dry := sur.slots) (old := ln.pc) (pc := ln.pc + 1) e
    (by rw [hv]; exact hr) (by rw [hp]; exact h.2)
  refine ⟨⟨a, fun m hm => (b m hm).trans (lane_setLane_ne _ _ hm)⟩, ?_⟩
  have := congrArg (fun t : State => { t with lanes := s.lanes }) c
  exact this

end Sys2Proof.Machine
end

