-- ==== Sys2Proof/Tests/Slice0.lean ====
section
/-! SUPPORT. Tests of the model: ill-formed commands, the spec's worked examples, and, for every obligation that has
hypotheses, a state and operands that meet them. -/

namespace Sys2Proof.Tests

-- One kernel evaluation at a time, within the memory limit.
set_option Elab.async false

open Sys2Proof.Machine

/-! ### Helpers -/

def pkt0 : Packet := { op := 1, vc := 2, src := 0, dst := 0 }
def flit0 : Flit := { vc := 1 }
def msg0 : ChunkMsg := { src := 0, msg := 1, cmdId := 0, epoch := 0, opcode := 0x0501, pos := 0, owner := 0, step := 0, chunk := 0, count := 0 }
def repair0 : Repair := { j := 0, n := 1, an := 0, pnFirst := 0, len := 0, group := 0, entries := [(0, 0)], bytes := [] }

/-- Fields set to 1. -/
def on (s : State) (fs : List Fld) : State := fs.foldl (fun s f => setF s f 1) s

/-- A module that has started up whole: the Steward, the cellar, the fabric and the time. -/
def up : State :=
  setBlk (setBlk (on { State.reset with
    host := { linkUp := true }
    pac := { ports := 0xFFFFF, milPorts := 3 } }
    [DEV_START_fuses_done, DEV_START_steward_ready, DEV_START_cellar_ready, DEV_START_fabric_ready, DEV_START_time_valid,
      CLK_STATUS_root_lock, CLK_STATUS_net_ref_ok, RTE_STATE_valid]) pgCMD 2) pgSTW 2

/-! ### Ill-formed commands are refused -/

theorem test_illFormed_0 : ∀ c ∈ ([
    .thermalShutdown 6 0, .clockUnlock ⟨40, false⟩, .cellarTrainingDone ([(24, 0)]) [], .knockReceived 20,
    .knockAnswerReady 20, .knockAnswerFalseStart 20, .knockTimeout 20, .portBackoffExpiry 20, .portTrainTimeout 20,
    .portTrained 20, .linkIdentity 20 0 0, .registerWrite 2 0 0 0 {}, .blockEnable 0x400 0, .blockDisable 0x400 0,
    .blockDrained 0x400, .blockSoftReset 0x400 0, .expertUnlock 0x400, .expertLock 0x400, .eventClear 0x400 0 [],
    .eventInject 0x400 0, .eventRingEnable 16 0, .eventRingDisable 16 0, .evqHeadWrite 16 0, .evqHoldoffExpiry 16,
    .partnerRegisterAccess 20 pkt0 {}, .bar2Read 0 0 {}] : List Instr), c.wf = false := by decide +kernel

theorem test_illFormed_1 : ∀ c ∈ ([
    .bar2Read 0 4097 {}, .bar2Read (2 ^ 36) 1 {}, .bar2Write 0 [] {}, .bar2Write (2 ^ 36) [0] {}, .doorbell 64 0,
    .commandFetch 64 none, .commandTimeout 64 0, .commandRetire 64 0 false false, .matmul 64 0 {}, .matmulTwin 64 0
    {}, .fusedChunkReady 64 0 {}, .arrayWake 96 false, .arrayClockOff 96 false, .vecRun 64 0 {}, .vecNop 96 {},
    .vecEnd 96 {}, .vecBr 96 {}, .vecBz 96 {}, .vecBnz 96 {}, .vecBlt 96 {}, .vecLoop 96 {}, .vecFence 96 {}, .vecSadd
    96 {}, .vecSsub 96 {}, .vecSmul 96 {}, .vecSand 96 {}] : List Instr), c.wf = false := by decide +kernel

theorem test_illFormed_2 : ∀ c ∈ ([
    .vecSor 96 {}, .vecSxor 96 {}, .vecSshl 96 {}, .vecSshr 96 {}, .vecSsra 96 {}, .vecSli 96 {}, .vecSmin 96 {},
    .vecSmax 96 {}, .vecSsys 96 {}, .vecSget 96 {}, .vecVadd 96 {}, .vecVsub 96 {}, .vecVmul 96 {}, .vecVfma 96 {},
    .vecVmax 96 {}, .vecVmin 96 {}, .vecVabs 96 {}, .vecVneg 96 {}, .vecVmuls 96 {}, .vecVadds 96 {}, .vecVbcast 96
    {}, .vecVsel 96 {}, .vecVcmp 96 {}, .vecVsqrt 96 {}, .vecVrcp 96 {}, .vecVrsqrt 96 {}] : List Instr), c.wf = false := by decide +kernel

theorem test_illFormed_3 : ∀ c ∈ ([
    .vecVexp2 96 {}, .vecVlog2 96 {}, .vecVexp 96 {}, .vecVtanh 96 {}, .vecVsig 96 {}, .vecVsin 96 {}, .vecVcos 96 {},
    .vecViadd 96 {}, .vecViota 96 {}, .vecVcvtfi 96 {}, .vecVcvtif 96 {}, .vecVrsum 96 {}, .vecVrmax 96 {}, .vecVrmin
    96 {}, .vecVargmax 96 {}, .vecPand 96 {}, .vecPor 96 {}, .vecPxor 96 {}, .vecPnot 96 {}, .vecPset 96 {}, .vecPcnt
    96 {}, .vecVld 96 {}, .vecVst 96 {}, .vecVgath 96 {}, .vecVscat 96 {}, .vecSld 96 {}] : List Instr), c.wf = false := by decide +kernel

theorem test_illFormed_4 : ∀ c ∈ ([
    .vecSst 96 {}, .vecRld 96 {}, .vecRst 96 {}, .vecRatomAdd 96 {}, .vecRatomSwap 96 {}, .vecRatomCas 96 {}, .vecRank
    96 {}, .vecVunif 96 {}, .vecVgumbel 96 {}, .vecVtopk 96 {}, .vecVtopp 96 {}, .dmaCopy 64 0 {}, .scaleFind 64 0 {},
    .convert 64 0 {}, .collReduceScatter 64 0 {}, .collAllGather 64 0 {}, .collAllReduce 64 0 {}, .collBroadcast 64 0
    {}, .collAllToAll 64 0 {}, .laterRetryExpiry 64 0 {}, .hurdleWaitExpiry 64 0, .updSweepAdamw 64 0 {},
    .updSweepMomentum 64 0 {}, .updSweepOuter 64 0 {}, .updSweepFetch 64 0 {}, .updSweepAudit 64 0 {}] : List Instr), c.wf = false := by decide +kernel

theorem test_illFormed_5 : ∀ c ∈ ([
    .fetchRetryExpiry 64 0 {}, .exportCmd 64 0 {}, .importCmd 64 0 {}, .batonSendRelay 64 0 {}, .batonSendFlag 64 0
    {}, .batonSendBaton 64 0 {}, .batonSendMerge 64 0 {}, .batonSendManifest 64 0 {}, .batonSendTransfer 64 0 {},
    .batonSendRebase 64 0 {}, .lapWait 64 0 {}, .lapSignalAdd 64 0 {}, .lapSignalStore 64 0 {}, .fence 64 0 {},
    .hurdle 64 0 {}, .hurdleTableLoad 64 0 {}, .profileSwitch 64 0 {}, .watchRetryExpiry 64 0 0, .watchRetryExpiry 0 0
    2, .laneReset 96, .laneResetDone 96, .portReset 20, .tableCommit 16 0, .tableRetire 16, .cellarRetrainTick 24 [],
    .cellarRetrainNow 24 []] : List Instr), c.wf = false := by decide +kernel

theorem test_illFormed_6 : ∀ c ∈ ([
    .mr4Poll 24 0 false, .cellarInitRegion 192 0, .flitReceive 20 flit0 [] false false false, .replayTimeout 20 false,
    .lossOfLight 20, .laneLossOfLock 20 0, .laneLossOfLock 0 8, .correctedSymbolLimit 20 0 0, .correctedSymbolLimit 0
    8 0, .laneSwapHost 20 0, .swapRequestReceived 20 0 false, .swapRequestReceived 0 8 false, .swapDrainDone 20,
    .spareLaneTrained 20 0, .fabricRead 20 pkt0 {}, .fabricWrite 20 pkt0 {}, .fabricMaskedWrite 20 pkt0 {},
    .fabricAtomicAdd 20 pkt0 {}, .fabricAtomicSwap 20 pkt0 {}, .fabricCompareAndSwap 20 pkt0 {}, .fabricWatch 20 pkt0
    {}, .insertRequest 20 pkt0 {}, .insertForward 20 pkt0 {}, .insertDrainDone 20, .fabricResponse 20 pkt0 false,
    .packetForward 20 pkt0] : List Instr), c.wf = false := by decide +kernel

theorem test_illFormed_7 : ∀ c ∈ ([
    .drainMessage 20, .stadiumTimeExchange 20 none 0, .milantLinkUp 2, .milantLinkDown 2, .foreignFrame 2,
    .relayParcel 3 { parcel := { kind := 1 } } [] {}, .flagParcel 3 { parcel := { kind := 1 } } [] {}, .batonParcel 3
    { parcel := { kind := 1 } } [] {}, .manifestParcel 3 { parcel := { kind := 1 } } [] {}, .transferParcel 3 { parcel
    := { kind := 1 } } [] {}, .controlAcknowledge 3 { parcel := { kind := 1 } } [] {}, .controlResend 3 { parcel := {
    kind := 1 } } [] {}, .controlWithdraw 3 { parcel := { kind := 1 } } [] {}, .repairFrame 2 repair0 [] {},
    .ptpMessage 2 0 0 false 0 { msg := .other } 0, .ptpSyncTimer 2, .groupHoldExpiry 2, .groupWaitExpiry 2 0,
    .resendTimeout 64 0 {}, .relayTimeout 64 0, .keyChangeInstant 2 false, .oldTxAssocErase 2, .keyGraceExpiry 2,
    .watchdogExpiry 6] : List Instr), c.wf = false := by decide +kernel

theorem test_illFormed_8 : ∀ c ∈ ([
    .voltageLoopTick 4 0, .droopDetect 96 0, .droopRelease 96 ⟨0, 0⟩, .clockDomainRelock
    40] : List Instr), c.wf = false := by decide +kernel

/-! ### Witnesses: states and operands that meet the hypotheses of each obligation, clause by clause -/

theorem witness_StepRunsFront : { up with pending := [.doeAbort, .modRstFall] }.pending = .doeAbort :: [.modRstFall] ∧
    up.pending = [] ∧ up.life = .running ∧ { up with life := .off }.life ≠ .running ∧ up.tim.freq = 0 ∧
    up.tim.phaseLeft = 0 ∧ up.tim.slew = 0 := by decide +kernel

/-- A step of a queue of two answers a next state (QueueIsFirstInFirstOut, RollbackNeverLoosens). -/
theorem witness_steps : (∃ t, step { up with pending := [.doeAbort, .modRstFall] } = .next t) ∧
    bitOf { up with fuses := { revoked := 2 } }.fuses.revoked 1 = true := by
  exact ⟨⟨_, rfl⟩, by decide +kernel⟩

theorem witness_WellFormedCompletes : Instr.wf (.doorbell 63 0) = true ∧ Instr.wf (.doorbell 64 0) = false := by
  decide +kernel

theorem witness_canonical : up.memWf = true ∧ up.regsWf = true ∧
    (∃ t, step { up with pending := [.doeAbort] } = .next t) := by
  exact ⟨by decide +kernel, by decide +kernel, ⟨_, rfl⟩⟩

theorem witness_FieldWrite : up.regsWf = true ∧ FWU_SUBMIT_LO_addr.lo + FWU_SUBMIT_LO_addr.w ≤ 32 ∧
    KEY_INSTALL_port.lo + KEY_INSTALL_port.w ≤ 32 := by decide +kernel

theorem witness_StartsBeginAfresh :
    ({ up with life := .off }.life = .off ∧ up.hot = false ∧ up.pins.modRstN = true ∧ 39000 < 39001 ∧
      { up with
        life := .off
        hot := true }.hot = true) ∧
    ({ up with
      life := .heldInReset
      pins := { modRstN := false } }.pins.modRstN = false ∧
      { up with
        life := .off
        pins := { modRstN := false } }.life = .off ∧
      { up with
        life := .thermalStop
        pins := { modRstN := false } }.life = .thermalStop) ∧
    ({ up with
      life := .thermalStop
      pulsed := true }.pins.modRstN = true ∧ ∀ x ∈ ([89, 20] : List Int) ++ [89], x < 90) := by decide +kernel

theorem witness_StopsAndHolds : up.life ≠ .off ∧ 36999 < 37000 ∧ up.life = .running ∧ (110 : Int) ≤ 110 ∧
    up.regsWf = true ∧ isSet up FAB_KEEP_hold_x = false ∧ isSet up FAB_KEEP_hold_y = false ∧ 5 < 6 := by decide +kernel

/-- The state of a module in which both banks failed. -/
def failed : State := on { State.reset with host := { linkUp := true } } [DEV_START_fuses_done, DEV_START_boot_failed]

theorem witness_PcieRows : (up.life = .running ∧ up.pins.modRstN = true ∧ up.pins.perstN = true) ∧
    (isSet up CLK_STATUS_root_lock = true ∧ 16 ∈ [1, 2, 4, 8, 16]) ∧
    (failed.life = .running ∧ failed.host.linkUp = true ∧ isSet failed DEV_START_boot_failed = true) ∧
    (up.host.linkUp = true ∧ isSet up DEV_START_boot_failed = false ∧ isSet up DEV_START_steward_ready = true ∧
      up.host.flr = false ∧ { up with host := { linkUp := true, flr := true } }.host.flr = true) ∧
    ({ State.reset with host := { linkUp := true } }.host.linkUp = true ∧ isSet State.reset DEV_START_boot_failed = false ∧
      isSet State.reset DEV_START_steward_ready = false ∧ up.fuses.serial < 2 ^ 64) := by decide +kernel

theorem witness_FunctionLevelResetKeeps : up.life = .running ∧ up.pins.modRstN = true ∧ up.pins.perstN = true ∧
    up.host.linkUp = true ∧ up.host.flr = false ∧ isSet up DEV_START_steward_ready = true ∧
    (∀ e ∈ up.cmds.table, e.stage ≠ .running) ∧ up.regsWf = true ∧ up.memWf = true ∧
    { up with host := { linkUp := true, d3hot := true } }.host.d3hot = true ∧
    (startedUp { up with pins := { perstN := false } } = true ∧ { up with pins := { perstN := false } }.pins.modRstN = true ∧
      startedUp { State.reset with pins := { perstN := false } } = false) ∧
    ({ up with host := { flr := true } }.host.flr = true ∧ isSet failed DEV_START_boot_failed = true) := by decide +kernel

theorem witness_SuppliesAndClocks : ((2200 : Int) < 2201 - 0 ∧ 20 * 2049 < 41000 ∧ isLocked (setLock up 39 true) 39 = true ∧
    isSet up DEV_START_fuses_done = true ∧ isLocked up 38 = false ∧ 38 < 39 ∧ up.regsWf = true) ∧
    (isSet State.reset DEV_START_fuses_done = false ∧ State.reset.fuses.words = [] ∧ State.reset.life = .running ∧
      State.reset.regsWf = true) := by decide +kernel

/-- Port n in a phase of training. -/
def portIn (n : Nat) (p : PortSt) : State := setPort up n p

theorem witness_PortTraining :
    ({ up with fab := { queue := [19] } }.fab.queue = 19 :: [] ∧ enginesBusy { up with fab := { queue := [19] } } < 4 ∧
      isSet up CLK_STATUS_net_ref_ok = true) ∧
    (bitOf (portIn 19 { train := .knocking }).pac.ports 19 = true ∧ (port (portIn 19 { train := .knocking }) 19).train = .knocking) ∧
    ((port (portIn 0 { train := .training }) 0).train = .training ∧ (port (portIn 0 { train := .training }) 0).resetBusy = false) ∧
    ((port up 0).train ≠ .knocking ∧ (port up 0).train ≠ .training) ∧
    (port (portIn 19 { train := .backoff }) 19).train = .backoff ∧
    ((port (portIn 19 { train := .knocking, knocks := 1 }) 19).knocks ≠ 0 ∧
      (port (portIn 19 { train := .knocking, knocks := 1 }) 19).train = .knocking) := by decide +kernel

theorem witness_IdentityCheck :
    let s := portIn 15 { train := .trained }
    let s1 := fun (dev far : Nat) => setF (setF (setPort s 15 { port s 15 with
      identitySeen := true
      far := dev * 32 + far }) (PORT_PEER_peer_id 15) dev) (PORT_PEER_peer_port 15) far
    let want := expectedFar (s1 0 0) 15
    ((port s 15).train = .trained ∧ (port s 15).identitySeen = false ∧ farOk (s1 want.1 want.2) 15 want.1 want.2 = true ∧
      farOk (s1 0 0) 15 0 0 = false) ∧
    (port (portIn 19 { identitySeen := true }) 19).identitySeen = true := by decide +kernel

/-- A module whose fuses are loaded and whose boot has not ended. -/
def booting : State := on State.reset [DEV_START_fuses_done]

/-- The head of a bank of one image, an empty one at the bank's end, erased to zeros past it. The digest is FIPS 202's own
for the empty message. -/
def goodBank : List Byte :=
  natLe 4 0x4B37424B ++ [1, 44, 0, 0, 0, 1, 0, 0] ++ natLe 4 3 ++ List.replicate 48 0 ++ [1, 0, 0, 0] ++ natLe 4 0x6000000
    ++ (natLe 32 0xa7ffc6f8bf1ed76651c14756a061d662f580ff4de43b49fa82d80a4b80f8434a).reverse

/-- A public key of zeros. -/
def zeroKey : List Byte := List.replicate 1312 0

/-- booting with the good bank as bank A. -/
def bootable : State := { booting with
  flash := { bankA := goodBank }
  fuses := {
    keyHash := [sha3 zeroKey]
    vouched := [⟨44, zeroKey, sha3 (bytesAt (goodBank.take 7424) 0 4096), List.replicate 2420 0⟩] } }

theorem bytesAt_past (bs : List Byte) (o n : Nat) (h : bs.length ≤ o) : bytesAt bs o n = List.replicate n 0 := by
  apply List.ext_getElem
  · simp [bytesAt]
  · intro i h1 h2
    simp [bytesAt, List.getElem?_eq_none (show bs.length ≤ o + i by omega)]

theorem goodBank_length : (goodBank.take 7424).length ≤ 384 := by decide +kernel

theorem goodBank_key : bytesAt (goodBank.take 7424) 384 1312 = zeroKey :=
  bytesAt_past _ 384 1312 goodBank_length

/-- The signature of a bank manifest whose bytes past the entries are zeros. -/
theorem goodBank_sig : bytesAt (goodBank.take 7424) 4096 2420 = List.replicate 2420 0 :=
  bytesAt_past _ 4096 2420 (Nat.le_trans goodBank_length (by decide))

theorem goodBank_keyOk : keyOk bootable.fuses (goodBank.take 7424) = true := by
  have h1 : leAt (goodBank.take 7424) 5 1 = 44 := by decide +kernel
  have h2 : leAt (goodBank.take 7424) 6 1 = 0 := by decide +kernel
  have h3 : zeroAt (goodBank.take 7424) (384 + 1312) (1952 - 1312) = true := by
    rw [zeroAt, bytesAt_past _ _ _ (Nat.le_trans goodBank_length (by decide))]; decide +kernel
  have h7 : zeroAt (goodBank.take 7424) (4096 + 2420) (3309 - 2420) = true := by
    rw [zeroAt, bytesAt_past _ _ _ (Nat.le_trans goodBank_length (by decide))]; decide +kernel
  have h4 : bitOf bootable.fuses.revoked 0 = false := by decide +kernel
  have h5 : keyLen 44 = 1312 := rfl
  have h8 : sigLen 44 = 2420 := rfl
  have h6 : (bootable.fuses.keyHash[0]?).getD [] = sha3 zeroKey := by
    rw [show bootable.fuses.keyHash = [sha3 zeroKey] from rfl]; simp only [List.getElem?_cons_zero, Option.getD_some]
  have h9 : sigVerifies bootable.fuses 44 zeroKey (sha3 (bytesAt (goodBank.take 7424) 0 4096)) (List.replicate 2420 0) = true := by
    simp only [sigVerifies]
    rw [show bootable.fuses.vouched = [⟨44, zeroKey, sha3 (bytesAt (goodBank.take 7424) 0 4096), List.replicate 2420 0⟩] from rfl]
    simp only [List.contains_cons, beq_self_eq_true, Bool.true_or]
  simp only [keyOk, h1, h2, h3, h4, h5, h6, h7, h8, h9, goodBank_key, goodBank_sig, beq_self_eq_true, Bool.not_false,
    Bool.and_true, Bool.true_or]
  rfl

theorem goodBank_bankOk : bankOk bootable.fuses (getF bootable DEV_INFO_arith_rev) goodBank = true := by
  simp only [bankOk, goodBank_keyOk]
  decide +kernel

theorem witness_BootChain :
    (booting.life = .running ∧ isSet booting DEV_START_fuses_done = true ∧ isSet booting DEV_START_steward_ready = false ∧
      isSet booting DEV_START_boot_failed = false ∧ isSet booting STW_STATE_held = false ∧
      (chooseBank booting.flash.boot booting.flash.lapsed (fun b => bankOk booting.fuses (getF booting DEV_INFO_arith_rev)
        (bankBytes booting.flash b))).2 = none) ∧
    (bootable.regsWf = true ∧ bootable.life = .running ∧ isSet bootable DEV_START_fuses_done = true ∧
      isSet bootable DEV_START_steward_ready = false ∧ isSet bootable DEV_START_boot_failed = false ∧
      isSet bootable STW_STATE_held = false ∧ ({} : BootFacts).reloadBad = false) ∧
    (∃ r, chooseBank bootable.flash.boot bootable.flash.lapsed (fun b => bankOk bootable.fuses
        (getF bootable DEV_INFO_arith_rev) (bankBytes bootable.flash b)) = (r, some (false, false))) ∧
    imagesOk (bankBytes bootable.flash false) = true := by
  refine ⟨by decide +kernel, by decide +kernel, ?_, by decide +kernel⟩
  have hb : bootable.flash.boot = {} := by decide +kernel
  have hl : bootable.flash.lapsed = false := rfl
  have h : (bankOk bootable.fuses (getF bootable DEV_INFO_arith_rev) (bankBytes bootable.flash false)) = true :=
    goodBank_bankOk
  refine ⟨{}, ?_⟩
  rw [hb, hl]
  simp only [chooseBank]
  rw [if_pos h]

/-- The Steward is ready, the cellar not yet. -/
def cold : State := on State.reset [DEV_START_fuses_done, DEV_START_steward_ready]

theorem witness_CellarRows : (cold.regsWf = true ∧ cold.life = .running ∧ isSet cold DEV_START_steward_ready = true ∧
      isSet cold DEV_START_cellar_ready = false ∧ blkState cold pgCEL ≠ 4 ∧ cold.flash.repairs = [] ∧
      [(23, 1)].all (fun f => decide (f.1 < 24)) = true) ∧
    (isSet up DEV_START_cellar_ready = true ∧ isSet up (CEL_PKG_TRAIN_X_freeze 23) = false) ∧
    (regsOpen up (pgCelPkg 23) = true ∧ expertOpen (setF up (BLK_CTRL_expert_open (pgCelPkg 23)) 1) (pgCelPkg 23) = true ∧
      expertOpen up (pgCelPkg 23) = false) ∧
    (up.pac.celHot.contains 23 = false ∧ isSet (on up [CEL_SCRUB_patrol_en]) CEL_SCRUB_patrol_en = true ∧
      up.mem.damaged = [] ∧ up.mem.allInit = false ∧ nextRegion up 191 < 4063232 ∧ 192 * 4063232 ≠
        (tset (fun _ => false) up.mem.regions (191 * 0x400000 + nextRegion up 191) true).length) := by decide +kernel

theorem witness_FabricReady :
    let s := on { State.reset with
      pac := { ports := 1 }
      fab := { ports := [(0, { train := .leftDark })] } } [DEV_START_fuses_done, DEV_START_steward_ready]
    (s.life = .running ∧ isSet s DEV_START_steward_ready = true ∧ isSet s DEV_START_fabric_ready = false ∧
      s.pac.ports ≠ 0 ∧ portsDone s = true) ∧ portsDone up = false := by decide +kernel

/-- Axis Y may be inserted, its ring ports up in loopback. -/
def ringUp : State := setF (setF (on up [allowF true]) (PORT_STATE_state (axisPort true)) 2) (PORT_STATE_state (axisPort true + 1)) 2

theorem witness_RingInsertion :
    let began := setF (setInsert ringUp true {
      levelHeld := (insertSt ringUp true).levelHeld
      asked := true
      startedAt := elapsed ringUp }) (insertF true) 1
    (ringUp.life = .running ∧ isSet ringUp (allowF true) = true ∧ portState ringUp (axisPort true) = 2 ∧
      portState ringUp (axisPort true + 1) = 2 ∧ getF ringUp (insertF true) = 0 ∧ forwardMate began = none) ∧
    ((insertSt began true).asked = true ∧ (insertSt began true).handshake = false) ∧
    ((insertSt up true).wanted = none ∧ (insertSt (setInsert up true { wanted := some true }) true).wanted = some true ∧
      (insertSt (setInsert up false { wanted := some false }) false).wanted = some false) ∧
    (regsOpen up pgFAB = true ∧ getF (setF (setF up (insertF true) 2) (allowF true) 0) (insertF true) = 2 ∧
      getF (setF began (allowF true) 0) (insertF true) = 1 ∧ getF (setF up (allowF true) 0) (insertF true) = 0) ∧
    (getF (setF up (insertF true) 3) (insertF true) = 3 ∧ portEmpty (setF up (insertF true) 3) (axisPort true) = true ∧
      portEmpty (setF up (insertF true) 3) (axisPort true + 1) = true ∧ portEmpty up 19 = true) := by decide +kernel

theorem witness_PlainWriteByAccess : up.regsWf = true ∧ (∃ r, regAt FAB_KEEP_allow_x.addr = some r) ∧
    (∃ r, regAt (CEL_PKG_TRAIN_X_freeze 0).addr = some r) ∧
    expertOpen (on up [BLK_CTRL_expert_open (pgCelPkg 0)]) ((CEL_PKG_TRAIN_X_freeze 0).addr / 0x1000) = true ∧
    expertOpen up ((CEL_PKG_TRAIN_X_freeze 0).addr / 0x1000) = false ∧ 0x600 ≤ (CEL_PKG_TRAIN_X_freeze 0).addr % 0x1000 ∧
    (CEL_PKG_TRAIN_X_freeze 0).addr % 0x1000 < 0xC00 := by
  exact ⟨by decide +kernel, ⟨_, rfl⟩, ⟨_, rfl⟩, by decide +kernel⟩

theorem witness_RegisterAccess : (0xFFC % 4 = 0 ∧ isPage (0xFF8 / 0x1000) = true ∧ regsOpen up (0xFF8 / 0x1000) = true ∧
      isSet up DEV_START_boot_failed = false ∧ 0xFF8 % 8 = 0) ∧
    (isSet State.reset DEV_START_steward_ready = false ∧ isSet State.reset DEV_START_boot_failed = false ∧
      { State.reset with host := { linkUp := true } }.pins.perstN = true) ∧ badAccess 2 4 true = true ∧
    0x400000 % 8 = 0 ∧ (0x7FC < 0x800 ∧ up.life = .running ∧ regsOpen up pgHIF = true ∧ 2 % 4 ≠ 0 ∧ regsOpen up 0 = true ∧
      isPage (0x400000 / 0x1000) = false) := by decide +kernel

theorem witness_BlockControls : (isPage pgCEL = true ∧ regsOpen up pgCEL = true ∧ queueOf pgCEL = none ∧
      blkState (setBlk up pgCEL 3) pgCEL = 3 ∧ blkState (setBlk up pgCEL 0) pgCEL = 0 ∧ up.regsWf = true) ∧
    (blkState (setBlk up (pgCmdQ 63) 0) (pgCmdQ 63) = 0 ∧
      isSet (setBlk up (pgCmdQ 63) 0) (BLK_CTRL_enable (pgCmdQ 63)) = false ∧
      blkState (setBlk up (pgCmdQ 63) 3) (pgCmdQ 63) = 3) ∧
    (isSet (setBlk (on up [BLK_CTRL_enable pgUPD]) pgUPD 2) (BLK_CTRL_enable pgUPD) = true ∧
      blkState (setBlk (on up [BLK_CTRL_enable pgUPD]) pgUPD 2) pgUPD = 2 ∧ pageBusy (setBlk up pgCEL 3) pgCEL = false ∧
      isSet (setF up (BLK_CTRL_enable pgCEL) 0) (BLK_CTRL_enable pgCEL) = false) := by decide +kernel

/-- Ring 15 enabled with one page of records, accepting every severity and page. -/
def ringOn15 : State :=
  let s := on up [EVQ_CFG_enable 15, EVQ_CFG_irq_en 15]
  setReg (setF s (EVQ_CFG_size_code 15) 1) (BLK_EVENT_EN_event_en pgKEY).addr 0xFFFFFFFF

theorem witness_EventRaised : up.regsWf = true ∧ isPage pgKEY = true ∧ pgKEY ≠ pgEVQ ∧ pgKEY ≠ pgDEV ∧
    bitOf (getF (setF up (BLK_EVENT_EN_event_en pgKEY) 0) (BLK_EVENT_EN_event_en pgKEY)) 31 = false ∧
    bitOf (getF ringOn15 (BLK_EVENT_EN_event_en pgKEY)) 31 = true ∧ (∀ n ∈ List.range 16, ringOn up n = false) ∧
    up.ev.lost = 0 ∧ up.ev.hold.length < 255 ∧ (ringSt ringOn15 15).dropping = false ∧
    ringUsed ringOn15 15 + 1 < ringSize ringOn15 15 ∧ (chooseRing (setF ringOn15 (EVQ_CFG_irq_en 15) 0) 7 pgKEY) = some 15 ∧
    isSet (setF ringOn15 (EVQ_CFG_irq_en 15) 0) (EVQ_CFG_irq_en 15) = false := by decide +kernel

theorem witness_EventRows :
    let dirty := { ringOn15 with ev := { rings := [(15, { unsignalled := 1 })] } }
    (isPage pgKEY = true ∧ regsOpen up pgKEY = true ∧ regsOpen up pgEVQ = true ∧ up.regsWf = true ∧ ringOn up 15 = false ∧
      up.ev.hold = [] ∧ 9 > bitsOf (16 : Word).toNat 1 4) ∧ (ringSt up 15).dropping = false ∧
    (up.life = .running ∧ ringOn dirty 15 = true ∧ isSet dirty (EVQ_CFG_irq_en 15) = true ∧
      (ringSt dirty 15).unsignalled ≠ 0) := by decide +kernel

theorem witness_Bar2Window :
    (up.host.linkUp = true ∧ hostServes up = true ∧ isSet up HIF_WIN_DEV_global = false ∧
      inMemory (bar2Addr up 0) 4096 = true ∧ early up (bar2Addr up 0) 4096 = false ∧ up.mem.damaged = [] ∧ up.memWf = true ∧
      0 + 4096 ≤ 2 ^ 36) ∧
    ({ State.reset with host := { linkUp := true } }.host.linkUp = true ∧ isSet State.reset DEV_START_steward_ready = false) ∧
    (let s := { cold with host := { linkUp := true } }
     s.host.linkUp = true ∧ hostServes s = true ∧ isSet s HIF_WIN_DEV_global = false ∧ early s (bar2Addr s 0) 1 = true) ∧
    (let s := setF up HIF_WIN_base_gib 0x4800
     bar2Addr s (8 * 4095) = lapAddr 4095 ∧ lapHeld s 4095 = false ∧ hostServes s = true) := by decide +kernel
theorem witness_MailboxAndManagement : stewardUp up = true ∧ up.life = .running ∧
    isSet up DEV_START_steward_ready = true ∧ sensor up 7 = some up.pac.hottest ∧ 0x41 ≠ smbusAddr up := by decide +kernel

theorem witness_BoundaryScan : up.life ≠ .off ∧
    { up with stw := { jtag := { tap := .shiftDr } } }.stw.jtag.tap = .shiftDr := by decide +kernel

/-- A command of 64 bytes: opcode, cmd_id, epoch, first lane and count, signal, operand bytes 44 to 51, and 52 to 63. -/
def desc (op id epoch first count add sig block : Nat) (tail : List Byte) : List Byte :=
  natLe 2 op ++ [0, 0] ++ natLe 2 id ++ natLe 2 epoch ++ natLe 2 (first + 128 * count) ++ [0, 0] ++ natLe 4 add ++ natLe 4 0
    ++ natLe 4 0 ++ natLe 4 sig ++ natLe 8 0 ++ natLe 8 0 ++ natLe 8 block ++ tail ++ List.replicate (12 - tail.length) 0

def cmdOf (op block : Nat) : CmdEntry := { q := 63, idx := 7, bytes := desc op 1 0 0 1 0 0 block [] }
def holding (s : State) (e : CmdEntry) : State := { s with cmds := { s.cmds with table := [e] } }

/-- up with its job declared, its units ready and its update page too. -/
def jobUp : State :=
  setBlk (setBlk (setBlk (setBlk (setF (on up [NUM_JOB_job_valid]) NUM_JOB_sr_log2 12) (pgLANE 0) 2) pgNUM 2) pgCOL 2) pgUPD 2

/-- Queue 63 enabled in host memory, two entries long, with one command to fetch. -/
def queued : State := setF (setF (setBlk (on up [BLK_CTRL_enable (pgCmdQ 63)]) (pgCmdQ 63) 2) (CMD_Q_CFG_size_code 63) 1) (CMD_Q_TAIL_tail 63) 1

theorem witness_FetchAndDoorbell : (regsOpen queued (pgCmdQ 63) = true ∧
      decide (queueSize queued 63 < (1 + 2 ^ 32 - getF queued (CMD_Q_HEAD_head 63)) % 2 ^ 32 ∨
        queueSize queued 63 < (1 + 2 ^ 32 - getF queued (CMD_Q_TAIL_tail 63)) % 2 ^ 32) = false ∧
      decide (queueSize queued 63 < (0xFFFFFFFF + 2 ^ 32 - getF queued (CMD_Q_HEAD_head 63)) % 2 ^ 32 ∨
        queueSize queued 63 < (0xFFFFFFFF + 2 ^ 32 - getF queued (CMD_Q_TAIL_tail 63)) % 2 ^ 32) = true) ∧
    (mayFetch queued 63 = true ∧ isSet queued (CMD_Q_CFG_loc 63) = false ∧ mayFetch up 63 = false) := by decide +kernel

theorem witness_Retirement :
    let ended := fun (e : CmdEntry) => { e with stage := Stage.ended }
    (up.life = .running ∧ (cmdOf 0x0603 0).opcode ≠ 0x0401 ∧ refValid (cmdOf 0x0603 0).sigRef = false ∧
      (cmdOf 0x0603 0).irq = false ∧ (cmdOf 0x0603 0).quiet = false ∧
      findCmd (holding up (ended (cmdOf 0x0603 0))) 63 7 = some (ended (cmdOf 0x0603 0)) ∧
      { cmdOf 0x0603 0 with bytes := natLe 2 0x0603 ++ [2] }.quiet = true) ∧
    (let e := { cmdOf 0x0603 0 with bytes := desc 0x0603 1 0 0 1 5 (2 ^ 31 + 4095) 0 [] }
     refValid e.sigRef = true ∧ refRemote e.sigRef = false ∧ refIndex e.sigRef = 4095 ∧ lapHeld (holding up (ended e)) 4095 = false) ∧
    (let s := holding up (ended (cmdOf 0x0603 0))
     unacknowledged s 63 7 = false ∧ s.cmds.hurdle ≠ some (63, 7) ∧
      unacknowledged { s with fab := { txns := [{ pkt := pkt0, who := .vec 0 63 7 }] } } 63 7 = true) ∧
    ({ ended (cmdOf 0x0603 0) with status := 1 }.status ≠ 0) ∧
    (findCmd (holding up (cmdOf 0x0603 0)) 63 7 = some (cmdOf 0x0603 0) ∧ (cmdOf 0x0603 0).stage = .issued ∧
      (cmdOf 0x0603 0).parts = [] ∧ (cmdOf 0x0603 0).opcode ≠ 0x0110 ∧ findRun (holding up (cmdOf 0x0603 0)) 63 7 = none ∧
      (holding up (cmdOf 0x0603 0)).cmds.hurdle ≠ some (63, 7)) := by decide +kernel

theorem witness_CommandEnds : ∀ st ∈ [Stage.issued, .placed, .running, .ended, .signalling, .signalled],
    findCmd (holding up { cmdOf 0x0603 0 with stage := st }) 63 7 = some { cmdOf 0x0603 0 with stage := st } := by
  decide +kernel

theorem witness_SyncAndLaps :
    (∀ e ∈ [cmdOf 0x0601 0, cmdOf 0x0602 0, cmdOf 0x0602 1, cmdOf 0x0603 0], Dispatches (holding up e) 63 7 e {}) ∧
    (cmdOf 0x0601 0).opcode = 0x0601 ∧ leAt (cmdOf 0x0602 0).bytes 44 1 = 0 ∧ leAt (cmdOf 0x0602 1).bytes 44 1 = 1 ∧
    (let s := setLap up 0 (2 ^ 64 - 2)
     regsOpen s pgLAP = true ∧ lapHeld s 0 = false ∧ lapVal s 0 + (1 : Word).toNat < 2 ^ 64 ∧
      2 ^ 64 ≤ lapVal s 0 + (2 : Word).toNat ∧ lapHeld { up with laps := { held := [0] } } 0 = true) ∧
    findCmd (holding up { cmdOf 0x0601 0 with wait0 := .busy }) 63 7 = some { cmdOf 0x0601 0 with wait0 := .busy } := by
  unfold Dispatches; decide +kernel

/-- A code table of 256 codes of 8 bits. -/
def flatTable : Table Nat := (List.range 256).map (fun i => (i, 8))

theorem witness_JobSlotsAndTables :
    let job := fun (s : State) (rev sr : Nat) =>
      setF (setF (setF s NUM_JOB_declared_rev rev) NUM_JOB_k5_mode 0) NUM_JOB_sr_log2 sr
    let v := fun (rev sr : Nat) => BitVec.ofNat 32 (rev + 2 ^ 16 * sr)
    let slot := fun (t : CbzSlot) => setCbz up 15 t
    (regsOpen up pgNUM = true ∧ jobCommandIssued up = false ∧
      ∀ sr ∈ [8, 24], ∀ rev ∈ [0, 3, 4], bitsOf (v rev sr).toNat 16 5 = sr ∧ bitsOf (v rev sr).toNat 0 8 = rev) ∧
    getF (job up 3 8) DEV_INFO_arith_rev = 3 ∧ getF (job up 4 8) DEV_INFO_arith_rev ≠ 4 ∧
    getF (job up 0 8) DEV_INFO_arith_rev ≠ 0 ∧
    jobCommandIssued (holding up (cmdOf 0x0101 0)) = true ∧ bitsOf (v 3 7).toNat 16 5 < 8 ∧ 24 < bitsOf (v 3 25).toNat 16 5 ∧
    (up.cmds.table = [] ∧ { up with num := { waiting := [⟨1, [], [], true, none⟩] } }.num.waiting =
      [⟨1, [], [], true, none⟩]) ∧
    (15 < 16 ∧ regsOpen up (pgCbzTbl (15 / 4)) = true ∧ up.regsWf = true ∧ (cbzSlot (slot { state := 2 }) 15).state = 2 ∧
      tableFault ((cbzSlot up 15).bank (!(cbzSlot up 15).cur)) = some 2) ∧
    (tableFault flatTable = none ∧
      ∀ t ∈ [({ state := 0, bank1 := flatTable } : CbzSlot), { state := 1, bank1 := flatTable, curRefs := 1 },
        { state := 1, bank1 := flatTable }], (cbzSlot (slot t) 15) = t ∧ t.bank (!t.cur) = flatTable ∧ t.holds 15 = false) ∧
    CbzSlot.holds { state := 1, curGen := 15 } 15 = true := by decide +kernel

theorem witness_Hurdles :
    let e := { cmdOf 0x0604 0 with bytes := desc 0x0604 1 1 0 0 0 0 0 [] }
    let s := { holding up { e with stage := .running } with
      cmds := { table := [{ e with stage := .running }], hurdle := some (63, 7) } }
    Dispatches (holding up e) 63 7 e {} ∧ e.opcode = 0x0604 ∧ findCmd s 63 7 = some { e with stage := .running } ∧
    (∃ d ∈ [({ e with
      stage := .ended
      bytes := natLe 2 0x0604 ++ [2] } : CmdEntry)], let s := { holding up d with cmds := { table := [d], hurdle := some (63, 7) } }
      findCmd s 63 7 = some d ∧ unacknowledged s 63 7 = false ∧ d.status = 0 ∧ d.quiet = true ∧ refValid d.sigRef = false ∧
      d.irq = false ∧ d.opcode = 0x0604) ∧
    s.cmds.hurdle = some (63, 7) ∧ s.cmds.hurdlePassed = false ∧ e.block = 0 ∧ milTabAddr s = 0 ∧
    (∀ x ∈ s.cmds.table, (x.q = 63 ∧ x.idx = 7) ∨ x.stage = .issued ∨ epochBound s x = false) := by
  unfold Dispatches; decide +kernel

theorem witness_SlotAdvances :
    let s := setSlot up 4095 { used := true, step := 5 }
    (slotRec s 4095).used = true ∧ 4 < (slotRec s 4095).step ∧ 5 = (slotRec s 4095).step ∧ 6 % 2 = 0 ∧ 7 % 2 = 1 := by
  decide +kernel

theorem witness_CodecRoundTrip :
    let s := setCbz up 15 { state := 1, bank0 := flatTable, curGen := 15 }
    (cbzSlot s 15).lengths 15 = some flatTable ∧ tableFault flatTable = none ∧
    1 ≤ [65535].length ∧ (List.replicate 2048 0).length ≤ 2048 ∧ (∀ x ∈ [65535], x < 65536) := by decide +kernel

theorem witness_ElementCodes : ([0x81, 0x80] : List Byte)[0]? = some 0x81 ∧ -127 ≤ (0x81 : Byte).toInt ∧
    ([0x81, 0x80] : List Byte)[1]? = some 0x80 ∧ (0x80 : Byte).toInt = -128 := by decide +kernel

/-- A lane at word w of a program of two words, its scalars 1 and 2 an address and the module's own global address. -/
def vecLane (w : Nat) : LaneSt :=
  { vecRun := some (63, 7), prog := [BitVec.ofNat 64 w, 0], s := [(1, 0x1000), (2, BitVec.ofNat 64 (2 ^ 63 + 0x1000)), (3, 1)] }
def vecSt (w : Nat) : State := setLane up 0 (vecLane w)

theorem vecNext_at (w : Nat) (h : w < 2 ^ 64) (sur : Surround) (hs : sur.laneHits = []) :
    VecNext (vecSt w) 0 (vecLane w) w sur := by
  refine ⟨⟨by decide, rfl, ?_, rfl, rfl, rfl, ⟨BitVec.ofNat 64 w, rfl, ?_⟩, rfl, hs⟩, Nat.lt_add_one 1⟩
  · have h : vecLane w ≠ ({} : LaneSt) := fun e => nomatch (congrArg LaneSt.vecRun e : some (63, 7) = none)
    exact tget_tset_of_ne_default (fun _ => ({} : LaneSt)) up.lanes 0 h
  · simp only [BitVec.toNat_ofNat]; exact Nat.mod_eq_of_lt h

/-- Every opcode stands at a running program's word (VectorControlAndScalars, VectorElements, VectorMemory, VectorRemote). -/
theorem witness_vectorWords : ∀ op, op < 256 → VecNext (vecSt (op * 2 ^ 56)) 0 (vecLane (op * 2 ^ 56)) (op * 2 ^ 56) {} ∧
    vwOp (op * 2 ^ 56) = op := by
  intro op h
  refine ⟨vecNext_at _ (by omega) _ rfl, ?_⟩
  simp only [vwOp, bitsOf]; omega

theorem witness_VectorControlAndScalars :
    (vecLane 0).pend = [] ∧ swMod (0x19 * 2 ^ 56) % 2 = 0 ∧ swMod (0x19 * 2 ^ 56 + 2 ^ 32) % 2 = 1 ∧
    (∀ w ∈ [0x02 * 2 ^ 56 + 1, 0x03 * 2 ^ 56, 0x04 * 2 ^ 56, 0x05 * 2 ^ 56, 0x06 * 2 ^ 56],
      bwTarget w < (vecLane w).prog.length ∧ (vecLane w).pc + 1 < (vecLane w).prog.length) ∧
    (vecLane 0).vecRun = some (63, 7) ∧ { vecLane 0 with pend := [⟨0, 0, 2, 0, 0⟩] }.pend ≠ [] ∧
    { vecLane 0 with pc := 1 }.prog.length = { vecLane 0 with pc := 1 }.pc + 1 := by decide +kernel

theorem witness_VectorElements :
    let w := 0x4B * 2 ^ 56
    let ln := vecLane w
    let first := fun (ln : LaneSt) => (maskList (maskOf ln w)).find? (fun i => !isNan32 (vreg ln (vwVa w) i) &&
      ordSigned32 (vreg ln (vwVa w) i) == ordSigned32 (extremeTree vmaxOf ninf32 ln w (maskOf ln w)).1)
    maskList (maskOf ln (w + 2 ^ 52)) = [] ∧ maskList (maskOf ln w) ≠ [] ∧ first ln = some 0 ∧
    first (writeAll ln 0 (fun _ => 0x7FC00000)) = none := by decide +kernel

theorem witness_MaskedWrites : tableWf (fun _ => (0 : Word)) (vecLane 0).v = true ∧
    tableWf (fun _ => (0 : Dword)) (vecLane 0).p = true ∧ 1 ≠ 0 := by decide +kernel

theorem witness_VectorMemory :
    let m := fun (op f : Nat) => op * 2 ^ 56 + 2 ^ 43 + f * 2 ^ 30 + 2 ^ 34 * 3
    let sound := fun (n a : Nat) => Sound up a n
    (∀ w ∈ [m 0x60 6, m 0x61 6, m 0x62 6, m 0x63 6, m 0x64 6, m 0x65 6], w < 2 ^ 64 ∧ mwAddr (vecLane w) w = 0x1000 ∧
      localOk 0x1000 8 8 = true ∧ indexAddr (vecLane w) w 0 = 0x1000 ∧ accessOk (vecLane w) w = true) ∧
    (accessOk (vecLane (m 0x61 0)) (m 0x61 0) = true ∧ isBS (mwFmt (m 0x61 0)) = true ∧ isBS (mwFmt (m 0x61 6)) = false ∧
      (sreg (vecLane (m 0x61 0)) (mwSaux (m 0x61 0))).toNat + 2 ≤ 0x1000) ∧
    accessOk (vecLane (0x60 * 2 ^ 56 + 2 ^ 43 * 2)) (0x60 * 2 ^ 56 + 2 ^ 43 * 2) = false ∧ up.memWf = true ∧
    sound 256 0x1000 ∧ sound 2 1 := by
  simp only [Sound]; decide +kernel

theorem witness_VectorRemote :
    let w := fun (op : Nat) => op * 2 ^ 56 + 2 ^ 43 * 2
    let g := mwAddr (vecLane (w 0x68)) (w 0x68)
    let a := 0x6A * 2 ^ 56 + 2 * 2 ^ 44
    let x := (sreg (vecLane a) (swSa a)).toNat
    (isGlobal g = true ∧ g % 4 = 0 ∧ globalDev g = myId up ∧ memoryUp up (localPart g) 256 = true ∧ Sound up (localPart g) 256) ∧
    (isGlobal x = true ∧ x % 8 = 0 ∧ globalDev x = myId up ∧ memoryUp up (localPart x) 8 = true ∧ Sound up (localPart x) 8) ∧
    (∀ k ∈ [0, 1, 2], swMod (a + k * 2 ^ 32) % 4 = k) ∧
    (isGlobal (g + 2 ^ 50) = true ∧ globalDev (g + 2 ^ 50) ≠ myId up ∧ isSet up DEV_START_fabric_ready = true ∧
      txnRoom up 2 = true ∧ maskOf (vecLane (w 0x69)) (w 0x69) = allOnes ∧
      maskOf (vecLane (w 0x69)) (w 0x69 + 2 ^ 52) ≠ allOnes ∧
      (sendReq (setLane up 0 (vecLane (w 0x68))) 2 1 1 0x1000 256 0 [] (.vec 0 63 7)).2 = true ∧
      txnRoomFor up 2 5 = true ∧ txnRoomFor up 2 1 = true ∧
      txnRoom { up with fab := { txns := List.replicate 4064 { pkt := pkt0, who := .bar2Write 0 } } } 2 = false) ∧
    isGlobal (mwAddr (vecLane (0x68 * 2 ^ 56)) (0x68 * 2 ^ 56)) = false ∧ isSet cold DEV_START_fabric_ready = false ∧
    (hurdleOpen up = false ∧ resolveRank { up with fab := { roles := [(0, 0x80000005)] } } 0 = .device 5 ∧
      hurdleOpen { up with cmds := { hurdle := some (0, 0) } } = true) := by
  simp only [Sound]; decide +kernel
/-! ### Witnesses: products, data, collectives and updates -/

/-- The attic's first address. -/
def attic : Nat := 0x100000000000

/-- A MATMUL block: BS8 operands and a binary32 result of one element, the B operand fused where asked, a slot where named. -/
def mmBlock (fused : Bool) (slot : Nat := 0xFFFF) : List Byte :=
  natLe 8 attic ++ natLe 8 (attic + 0x1000) ++ natLe 8 (attic + 0x2000) ++ natLe 2 1 ++ natLe 2 1 ++ natLe 2 1 ++ natLe 2 1
    ++ natLe 4 1 ++ natLe 4 32 ++ natLe 2 1 ++ [0, 32] ++ natLe 2 0 ++ natLe 2 slot ++ List.replicate 12 0
    ++ [if fused then 64 else 0, 0, 0, 0]

/-- A command placed first on lane 0, its block in the attic. -/
def placed (op : Nat) : CmdEntry := { cmdOf op (attic + 0x4000) with
  stage := .placed
  parts := [{ lane := 0 }] }
def onLane (s : State) (e : CmdEntry) (block : List Byte) : State :=
  poke (setLane (holding s e) 0 { queue := [(63, 7)] }) e.block block

/-- A landing in the attic, of one row of 64 bytes. -/
def landSt (s : State) (st : Nat) : State :=
  setLanding s 0 { state := st, addr := attic + 0x1000, pitch := 1 }

theorem witness_runsNow : ∀ op ∈ [0x0101, 0x0102, 0x0110, 0x0201, 0x0210, 0x0211],
    RunsNow (onLane jobUp (placed op) []) 63 7 (placed op) {} ∧ (placed op).opcode = op := by
  unfold RunsNow; decide +kernel

/-- A placed product at its setup: its block, its landing's state and its usable chunks. -/
def mmPlaced (fused : Bool) (st : Nat) (usable : List Nat := []) (slot : Nat := 0xFFFF) : State :=
  let s := landSt (onLane jobUp (placed 0x0101) (mmBlock fused slot)) st
  setLanding s 0 { landing s 0 with usable := usable }
def mmEntry : CmdEntry :=
  let e := { placed 0x0101 with stage := .running }
  { e with arrays := namedArrays e }
def mmAt (s : State) : State := putCmd (putCmd s { placed 0x0101 with stage := .running }) mmEntry

theorem witness_Products :
    let s := mmPlaced false 0
    let b := peek s mmEntry.block 64
    (mmEntry.block % 64 = 0 ∧ inMemory mmEntry.block 128 = true ∧ Sound s mmEntry.block 64 ∧
      mmCheck s (placed 0x0101) b (mmOpOf b) = none ∧ hasHeader (mmOpOf b).af = false ∧ hasHeader (mmOpOf b).bf = false ∧
      (mmOpOf b).fused = false ∧ (mmOpOf (mmBlock true)).fused = true ∧ hasHeader 3 = true ∧
      headerShift ([3, 133] ++ List.replicate 62 0) 3 = some (-123)) ∧
    (∀ fu ∈ [false, true], ∀ slot ∈ [0xFFFF, 5], ∀ st ∈ [1, 3],
      (match mmSetup (mmAt (mmPlaced fu st [] slot)) mmEntry {} with
      | (t, .ok (_, p)) => p.o.fused == fu && p.o.slot == slot && findCmd t 63 7 == some mmEntry &&
        (slot != 5 || (useSlot t 5 p.o.step).isSome && useSlot (setSlot t 5 { used := true, step := 9 }) 5 p.o.step == none)
      | _ => false) = true) ∧
    (match mmSetup (mmAt (onLane jobUp (placed 0x0101) [])) mmEntry {} with | (_, .error r) => r == (1, 3) | _ => false) = true := by
  simp only [Sound]; decide +kernel

/-- A product's advance: unfused, and fused with its chunks usable, it runs its tile; without them it waits or, the gather
failed, it stops (Products). -/
theorem witness_ProductsAdvance :
    let e := fun (fu : Bool) => { mmEntry with opnd := mmBlock fu, parts := [{ lane := 0 }] }
    let at2 := fun (fu : Bool) (st : Nat) (us : List Nat) =>
      let s := putCmd (mmPlaced fu st us) (e fu)
      let p := mmRunOf s (mmOpOf (mmBlock fu)) 0 0
      let ts := (reachedTiles s (e fu) p.o).filter (fun t => !(e fu).prod.tiles.contains t)
      let e1 := { e fu with chunks := ((e fu).chunks ++ consumedChunks s (e fu) p.o ts).eraseDups }
      let s1 := mmTilesRun p e1 {} ts (putCmd s e1)
      (findCmd s1 63 7).map (fun e2 => (e2.prod.tiles.length == mmTiles p.o, lacksChunk s1 e2 p.o, (landing s1 p.o.landing).state))
    at2 false 0 [] = some (true, false, 0) ∧ at2 true 1 [0] = some (true, false, 1) ∧ at2 true 1 [] = some (false, true, 1) ∧
    at2 true 3 [] = some (false, true, 3) ∧ (e true).stage = .running ∧ (e true).opcode = 0x0101 ∧
    findCmd (putCmd (mmPlaced true 1) (e true)) 63 7 = some (e true) := by
  decide +kernel

/-- A MATMUL.TWIN block: one row of BF16 gradients and weights, everything written in place. -/
def twBlock : List Byte :=
  natLe 8 attic ++ natLe 8 (attic + 0x1000) ++ natLe 8 (attic + 0x20000) ++ natLe 8 (attic + 0x40000)
    ++ natLe 8 (attic + 0x60000) ++ natLe 2 1 ++ natLe 2 1 ++ natLe 2 8 ++ natLe 2 8 ++ natLe 2 8 ++ natLe 2 32 ++ natLe 2 32
    ++ natLe 4 1 ++ [4, 0x44, 32, 32] ++ List.replicate 4 0 ++ natLe 2 0xFFFF ++ natLe 2 0xFFFF ++ List.replicate 58 0

/-- A VEC.RUN block: a program of one word. -/
def vecBlock : List Byte := natLe 8 attic ++ natLe 2 1 ++ List.replicate 118 0

theorem witness_ProductsTwinAndVec :
    let e := fun op => { placed op with stage := .running }
    let s := fun op b => onLane jobUp (placed op) b
    let tw := twOpOf (peek (s 0x0102 twBlock) (e 0x0102).block 128)
    let vb := peek (s 0x0110 vecBlock) (e 0x0110).block 128
    (e 0).block % 128 = 0 ∧ inMemory (e 0).block 128 = true ∧ Sound (s 0x0102 twBlock) (e 0).block 128 ∧
    Sound (s 0x0110 vecBlock) (e 0).block 128 ∧
    twCheck (putCmd (s 0x0102 twBlock) (e 0x0102)) (e 0x0102) (peek (s 0x0102 twBlock) (e 0).block 128) tw = none ∧
    (twCheck (putCmd (s 0x0102 []) (e 0x0102)) (e 0x0102) (peek (s 0x0102 []) (e 0).block 128)
      (twOpOf (peek (s 0x0102 []) (e 0).block 128))).isSome = true ∧
    hasHeader tw.gf = false ∧ hasHeader tw.left.bf = false ∧ hasHeader tw.rightSide.bf = false ∧
    vecBlockCheck (e 0x0110) vb = none ∧
    (vecBlockCheck (e 0x0110) (peek (s 0x0110 []) (e 0).block 128)).isSome = true := by
  simp only [Sound]; decide +kernel

theorem witness_ProductRows :
    let e := { placed 0x0101 with stage := .running }
    let s := putCmd (onLane jobUp (placed 0x0101) (mmBlock false)) e
    let o := mmOpOf (mmBlock false)
    (s.memWf = true ∧ tileLane e 0 = 0 ∧ partOpen s e.q e.idx (tileLane e 0) = true ∧ o.acc = 0 ∧ o.drain = 1 ∧ o.out ≤ 2 ∧
      Sound s (o.a + headerSize o.af) (rowSize o.af o.k) ∧ Sound s o.c (outSize o.out * 1)) ∧
    (tableWf (fun _ => ({} : LaneSt)) s.lanes = true ∧ tableWf (fun _ => (0 : Byte)) (lane s 95).shelf = true ∧
      tableWf (fun _ => (0 : Byte)) (lane (fillShelf s 95 16383 1 [7, 8]) 95).shelf = true ∧ 2 ≤ 128 ∧
      (0 : Nat) < 1) := by
  simp only [Sound]; decide +kernel

theorem witness_LaneRows :
    let holdOn := setF up (LANE_POWER_hold_on 95) 1
    (95 < 96 ∧ isSet holdOn (LANE_POWER_hold_on 95) = true ∧ isSet up (LANE_POWER_hold_on 95) = false) ∧
    (regsOpen up pgRST = true ∧ isSet up RST_LANE_busy = false ∧ isSet (setF up RST_LANE_busy 1) RST_LANE_busy = true ∧
      up.life = .running ∧ widerReset up = false ∧ (lane up 95).resetting = false ∧
      (lane (setLane up 95 { resetting := true }) 95).resetting = true) ∧
    (isSet up RST_PORT_busy = false ∧ bitOf (portDown (setF up RST_PORT_port 19) 19 5).pac.ports 19 = true ∧
      (let s := { up with pac := { up.pac with ports := 0 } }; bitOf (portDown (setF s RST_PORT_port 19) 19 5).pac.ports 19 = false)) ∧
    (let s := setF up (PAC_VOLT_setpoint_mv (dieOf up 95)) 830
     let low := fun (mv : Nat) => decide ((mv : Int) < (getF s (PAC_VOLT_setpoint_mv (dieOf s 95)) : Int) - droopMv s (dieOf s 95))
     low 819 = true ∧ low 820 = false ∧ isSet s (PAC_LOOP_X_droop_off (dieOf s 95)) = false ∧ (lane s 95).droop = false ∧
      (let held := fun (v : Nat) => decide ((v : Int) ≤ (getF s (PAC_VOLT_setpoint_mv (dieOf s 95)) : Int)
         - droopMv s (dieOf s 95) + hystMv s (dieOf s 95))
       held 820 = true ∧ held 900 = false) ∧
      (lane (setLane s 95 { droop := true }) 95).droop = true) := by decide +kernel

/-- A CONVERT block: one row of 64 BF16 elements into BS8, or from BS8 where `coded`. -/
def cvBlock (df : Byte) (slot : Nat) : List Byte :=
  natLe 8 attic ++ natLe 8 (attic + 0x1000) ++ natLe 4 1 ++ natLe 4 64 ++ natLe 2 2 ++ natLe 2 2 ++ [4 + 16 * df, 0, 0, 0]
    ++ natLe 2 slot ++ natLe 2 0 ++ List.replicate 28 0

theorem witness_DataMoves :
    let dm := dmaOpOf (natLe 8 attic ++ natLe 8 (attic + 0x1000) ++ natLe 4 1 ++ natLe 4 64 ++ natLe 4 1 ++ natLe 4 1
      ++ List.replicate 32 0)
    let away := dmaOpOf (natLe 8 (2 ^ 63 + 2 ^ 50 + attic) ++ natLe 8 (attic + 0x1000) ++ natLe 4 1 ++ natLe 4 64)
    let e := fun op => { placed op with stage := .running }
    let s := fun op b => onLane jobUp (placed op) b
    let check := fun op b => convCheck (putCmd (s op b) (e op)) (peek (s op b) (e op).block 64)
      (convOpOf (op == 0x0210) (peek (s op b) (e op).block 64))
    (((deviceOf up dm.src).1.isNone && (deviceOf up dm.dst).1.isNone) = true ∧
      ((deviceOf up away.src).1.isNone && (deviceOf up away.dst).1.isNone || txnRoom up 2) = true ∧
      (deviceOf up away.src).1.isNone = false) ∧
    (∀ op ∈ [0x0210, 0x0211], BlockAt (s op (cvBlock 4 0xFFFF)) (e op) 64 64) ∧
    check 0x0211 (cvBlock 4 0xFFFF) = none ∧ check 0x0210 (cvBlock 0 0xFFFF) = none ∧ check 0x0211 (cvBlock 4 5) = none ∧
    check 0x0211 (cvBlock 4 0x1000) = some (1, 5) ∧
    (useSlot (s 0x0211 []) 5 0).isSome = true ∧
    (useSlot (setSlot (s 0x0211 []) 5 { used := true, step := 9 }) 5 0).isNone = true := by
  simp only [BlockAt, Sound]; decide +kernel

theorem witness_MovedRows :
    let s := onLane jobUp (placed 0x0201) []
    let e := placed 0x0201
    let o := dmaOpOf (natLe 8 attic ++ natLe 8 (attic + 0x1000) ++ natLe 4 2 ++ natLe 4 64 ++ natLe 4 1 ++ natLe 4 1)
    let c := convOpOf false (cvBlock 4 0xFFFF)
    (s.memWf = true ∧ o.mode = 0 ∧ o.rowBytes % 64 = 0 ∧ o.rowBytes ≤ o.dstPitch ∧ o.rows = 2 ∧ ∀ r, r < 2 →
      partOpen s e.q e.idx (e.firstLane + r % e.laneCount) = true ∧ Sound s (attic + r * o.srcPitch) o.rowBytes ∧
      Sound s (attic + 0x1000 + r * o.dstPitch) o.rowBytes ∧ ∀ r', r' < 2 →
        attic + r * o.srcPitch + o.rowBytes ≤ attic + 0x1000 + r' * o.dstPitch) ∧
    (c.find = false ∧ Sound s (c.src + headerSize c.sf) (rowSize c.sf c.cols) ∧
      Sound s (c.dst + headerSize c.df) (convertRow c.sf c.df c.cols 0 none (peek s c.src (rowSize c.sf c.cols))).bytes.length) := by
  simp only [Sound]; decide +kernel

/-- A block of an all-gather of 64 bytes over two members, and the module at rank 0 of two. -/
def collBlock (size : Byte) : List Byte :=
  natLe 8 attic ++ natLe 8 (attic + 0x1000) ++ natLe 4 64 ++ [0, 0, 0, size, 12, 0, 0, 0] ++ natLe 2 0xFFFF ++ List.replicate 34 0
def collUp : State := { jobUp with fab := { jobUp.fab with roles := [(0, 0x80000000), (1, 0x80000001)] } }
def collSt (op : Nat) (size : Byte) : State := poke (holding collUp (cmdOf op (attic + 0x4000))) (attic + 0x4000) (collBlock size)

/-- A running all-gather. -/
def collRun : CollRun :=
  { q := 63, idx := 7, cmdId := 1, epoch := 0, o := collOpOf 0x0302 (collBlock 2), me := 0, devs := [0, 1], k5 := false }

theorem witness_CollectiveStarts :
    let e := fun op => cmdOf op (attic + 0x4000)
    let check := fun op size => collCheck (collSt op size) (peek (collSt op size) (e op).block 64)
      (collOpOf op (peek (collSt op size) (e op).block 64))
    (∀ op ∈ [0x0301, 0x0302, 0x0303, 0x0304, 0x0305], Dispatches (collSt op 2) 63 7 (e op) {} ∧ (e op).opcode = op ∧
      BlockAt (collSt op 2) (e op) 64 64) ∧
    (match check 0x0302 2 with | .ok r => r == (0, [0, 1]) | _ => false) = true ∧
    (match check 0x0302 1 with | .error r => r == (1, 14) | _ => false) = true ∧
    (collSt 0x0302 2).coll.running.length < 16 ∧
    (let s := { collSt 0x0302 2 with coll := { running := List.replicate 16 collRun } }
     16 ≤ s.coll.running.length ∧ s.life = .running ∧ findCmd s 63 7 = some (e 0x0302) ∧ anyRemoteRef (e 0x0302) = false ∧
      epochTest s (e 0x0302) = .equal ∧ dispatchEnd s (e 0x0302) false = none) ∧
    (let e := { e 0x0302 with bytes := desc 0x0302 1 0 0 1 0 0 (attic + 0x4020) [] }
     e.opcode = 0x0302 ∧ Dispatches (holding collUp e) 63 7 e {} ∧ e.block % 64 ≠ 0) := by
  simp only [BlockAt, Sound]; unfold Dispatches; decide +kernel

theorem witness_ChunkMessages :
    let s := { collUp with coll := { collUp.coll with running := [collRun] } }
    let m : ChunkMsg := { src := 1, msg := 1, cmdId := 1, epoch := 0, opcode := 2, pos := 1, owner := 1, step := 0, chunk := 1, count := 64 }
    let late := { collRun with laters := [(chunkKey 0 0, 1), (chunkKey 1 1, 1)], chunks := [(chunkKey 0 0, { formed := true })] }
    let mine := fun (m : ChunkMsg) => s.coll.running.find? (fun r => r.cmdId == m.cmdId && r.o.step == m.step && r.epoch == m.epoch)
    (s.life = .running ∧ s.coll.ended.contains (m.cmdId, m.step, m.epoch) = false ∧
      ({ s with coll := { s.coll with ended := [(1, 0, 0)] } }).coll.ended.contains (m.cmdId, m.step, m.epoch) = true) ∧
    (epochCmp 1 0 = .newer ∧ epochCmp 32767 0 = .newer ∧ epochCmp 32768 0 = .stale ∧ epochCmp 65535 0 = .stale ∧
      epochCmp m.epoch (getF s CMD_EPOCH_target) = .equal) ∧
    (let h := { setF s CMD_EPOCH_target 1 with cmds := { s.cmds with hurdle := some (63, 7) } }
     epochCmp m.epoch (getF h CMD_EPOCH_target) = .stale ∧
      (hurdleOpen h && m.epoch == getF h CMD_EPOCH_current) = true ∧ (hurdleOpen s && m.epoch == getF s CMD_EPOCH_current) = false ∧
      h.coll.running = s.coll.running ∧ h.cmds.hurdlePassed = false ∧
      { h.cmds with hurdlePassed := true }.hurdlePassed = true) ∧
    (mine m = some collRun ∧ mine { m with cmdId := 2 } = none ∧ m.opcode = collRun.o.op % 256 ∧ m.count = collRun.o.count ∧
      m.k5 = collRun.k5 ∧ { m with count := 65 }.count ≠ collRun.o.count ∧
      chunkKeyOk collRun.o (chunkKey m.owner m.chunk) = true ∧ chunkKeyOk collRun.o (chunkKey 1 2) = false) ∧
    (findRun { s with coll := { s.coll with running := [late] } } 63 7 = some late ∧ keyOwner (chunkKey 0 0) = late.me ∧
      keyOwner (chunkKey 1 1) ≠ late.me ∧ (chunkOf late (chunkKey 0 0)).void = 0 ∧ (chunkOf late (chunkKey 0 0)).formed = true) ∧
    ({ s with cmds := { hurdle := some (63, 7) } }.cmds.hurdle = some (63, 7) ∧ s.cmds.hurdle ≠ some (63, 7)) := by
  decide +kernel

/-- A word lost on a stage of the path (CollectiveStarts, UpdateSweeps, FabricRequests), and none. -/
theorem witness_stages : ({ stage := ⟨1, some true⟩ } : Surround).stage = ⟨1, some true⟩ ∧ ({} : Surround).stage = {} ∧
    ({ stage := ⟨0, some false⟩ } : Meet).stage = ⟨0, some false⟩ ∧ ({} : Meet).stage = {} ∧
    blockField (poke up 0x1000 [1]) { cmdOf 0x0401 0x1000 with q := 0 } 24 1 = 0 ∧ regionOf 0 ≠ .pages := by decide +kernel

theorem witness_SumsKeepPositionOrder :
    let c : Nat → Contrib := fun n => ⟨n, [], false, 0⟩
    [c 1, c 3].Pairwise (fun x y => x.pos < y.pos) ∧ (c 0).pos ≠ (c 2).pos ∧
    [c 1, c 3].any (fun x => x.pos == (c 1).pos) = true ∧ [c 1, c 3].any (fun x => x.pos == (c 2).pos) = false ∧
    { collRun.o with red := 2 }.red = 2 ∧ collRun.o.red = 0 := by decide +kernel

/-- Blocks of a sweep of one shard and of one unit written out or read in. -/
def updBlock (mode : Nat) : List Byte :=
  natLe 8 attic ++ natLe 8 (if mode ≤ 2 then attic + 0x1000 else 0) ++ natLe 4 1 ++ natLe 4 2 ++ natLe 1 mode ++ List.replicate 39 0
def expBlock : List Byte := natLe 8 attic ++ natLe 8 (attic + 0x1000) ++ natLe 4 1 ++ natLe 4 1 ++ List.replicate 40 0
def exp5Block : List Byte := natLe 8 attic ++ natLe 8 (attic + 0x1000) ++ natLe 4 1 ++ natLe 4 1 ++ [0, 0, 5] ++ List.replicate 37 0
def updSt (op : Nat) (b : List Byte) : State := poke (holding jobUp (cmdOf op (attic + 0x4000))) (attic + 0x4000) b

theorem witness_UpdateSweeps :
    let e := fun op => cmdOf op (attic + 0x4000)
    let b := fun op bl => peek (updSt op bl) (e op).block 64
    (∀ mode ∈ [0, 1, 2, 3, 4], Dispatches (updSt 0x0401 (updBlock mode)) 63 7 (e 0x0401) {} ∧
      BlockAt (updSt 0x0401 (updBlock mode)) (e 0x0401) 64 64 ∧ (updOpOf (b 0x0401 (updBlock mode))).mode = mode ∧
      updBlockOk (b 0x0401 (updBlock mode)) (updOpOf (b 0x0401 (updBlock mode))) = true) ∧
    updBlockOk (b 0x0401 []) (updOpOf (b 0x0401 [])) = false ∧
    (∀ op ∈ [0x0410, 0x0411], Dispatches (updSt op expBlock) 63 7 (e op) {} ∧ (e op).opcode = op ∧
      BlockAt (updSt op expBlock) (e op) 64 64) ∧
    exportOk (b 0x0410 expBlock) (expOpOf (b 0x0410 expBlock)) = true ∧ exportOk (b 0x0410 []) (expOpOf (b 0x0410 [])) = false ∧
    importOk (b 0x0411 expBlock) (expOpOf (b 0x0411 expBlock)) = true ∧ importOk (b 0x0411 []) (expOpOf (b 0x0411 [])) = false ∧
    (let s := { updSt 0x0401 [] with
      upd := { audits := [⟨updBlock 4, []⟩], runs := [⟨63, 7, [{ pend := true }]⟩] } }
     findCmd s 63 7 = some (e 0x0401) ∧ s.upd.runs.find? (fun r => r.q == 63 && r.idx == 7) = some ⟨63, 7, [{ pend := true }]⟩ ∧
      s.upd.audits = ⟨updBlock 4, []⟩ :: [] ∧ txnRoom s 2 = true) := by
  simp only [BlockAt, Sound]; unfold Dispatches; decide +kernel

/-- The room for a remote request, and the formats an export names (UpdateSweeps). -/
theorem witness_UpdateSweepsWait :
    let e := fun op => cmdOf op (attic + 0x4000)
    let b := fun op bl => peek (updSt op bl) (e op).block 64
    (∀ s ∈ [{ updSt 0x0401 (updBlock 4) with fab := { txns := List.replicate 4064 { pkt := pkt0, who := .bar2Write 0 } } }],
      txnRoom s 2 = false ∧ txnRoom s 5 = false ∧ findCmd s 63 7 = some (e 0x0401)) ∧
    (let x := expOpOf (b 0x0410 expBlock)
     k5Job (updSt 0x0410 expBlock) = false ∧ (x.wFmt == 5 || x.m1Fmt == 5 || x.m2Fmt == 5) = false ∧
      (deviceOf (updSt 0x0410 expBlock) (leAt expBlock 8 8)).1.isNone = true ∧
      (deviceOf up (leAt (natLe 8 attic ++ natLe 8 (2 ^ 63 + 2 ^ 50 + attic)) 8 8)).1.isNone = false) ∧
    (let b := exp5Block
     exportOk b (expOpOf b) = true ∧ ((expOpOf b).wFmt == 5 || (expOpOf b).m1Fmt == 5 || (expOpOf b).m2Fmt == 5) = true) := by
  decide +kernel

theorem witness_SkippedStep :
    let s := setF jobUp COL_OVF_ovf0 1
    let d := shardOf (natLe 8 attic ++ natLe 8 (attic + 0x1000))
    s.memWf = true ∧ stepFlag s 2 = true ∧ stepFlag s 3 = false ∧ Sound s d.commit 64 ∧ d.commit % 64 = 0 ∧
    (commitOf (List.replicate 64 0)).loss ≤ 24 ∧ ({ commitOf (List.replicate 64 0) with loss := 24 }).loss ≤ 24 ∧
    (lossNext { commitOf (List.replicate 64 0) with clean := 2 ^ 16 } false 0).2.2 = true := by
  simp only [Sound]; decide +kernel

/-- A Milant table of building 0: its port 0 faces the higher buildings, its port 1 participant 1; no paths, no map. -/
def milTab : List Byte :=
  [1, 0, 0, 4] ++ List.replicate 8 0 ++ [2, 0, 3, 1] ++ List.replicate 20 0 ++ [0xFF, 0xFF, 0, 0] ++ natLe 8 3 ++ List.replicate 272 0

/-- jobUp with that table, a transmit association on each port, and a baton cellar of 1 MiB for each slot. -/
def milUpSt : State :=
  let p : MilPort := { tx := [⟨0, 5, 1⟩], rx := [⟨0, 5, 1⟩], live := some 0 }
  setMilPort (setMilPort (setF { jobUp with
    mil := { table := milTab } } (MIL_CELLAR_SIZE_slot_mib 0) 1) 0 p) 1 p

/-- A BATON.SEND block of an operation: to destination 1, of len bytes or shards. -/
def batonBlock (op dest len : Nat) : List Byte :=
  natLe 4 op ++ natLe 4 0 ++ natLe 8 attic ++ natLe 8 (attic + 0x1000) ++ natLe 4 len ++ natLe 4 (65536 * dest) ++ natLe 8 2
    ++ natLe 8 0 ++ natLe 4 0 ++ List.replicate 12 0
def batonSt (b : List Byte) : State := poke (holding milUpSt (cmdOf 0x0501 (attic + 0x4000))) (attic + 0x4000) b

theorem witness_BatonSends :
    let e := cmdOf 0x0501 (attic + 0x4000)
    let s := fun op dest => batonSt (batonBlock op dest 1)
    let b := fun op dest => peek (s op dest) e.block 64
    let o := fun op dest => batonOpOf (b op dest)
    let head := fun s (o : BatonOp) => buildingHead s 1 o.stream o.dest o.dstRank (32 + o.len)
    (∀ op ∈ [0, 1, 2, 3, 4, 5, 6], Dispatches (s op 1) 63 7 e {} ∧ BlockAt (s op 1) e 64 64 ∧
      batonOpOk (b op 1) (o op 1) = true ∧ (o op 1).op = op) ∧
    (e.opcode = 0x0501 ∧ milUpSt.mil.runs.length < 32) ∧
    (∀ op ∈ [0, 1, 2, 4, 5], batonOpOk (b op 64) (o op 64) = (op == 2)) ∧
    (batonOpOk (peek (batonSt (batonBlock 2 0 0)) e.block 64) (batonOpOf (peek (batonSt (batonBlock 2 0 0)) e.block 64)) = false) ∧
    (pathFault (s 0 1) (head (s 0 1) (o 0 1)) = none ∧ pathFault (s 1 1) (buildingHead (s 1 1) 2 0xFFFE 1 0 32) = none ∧
      pathFault (s 5 1) (participantHead (s 5 1) 5 1 33) = none ∧
      pathFault { s 0 1 with mil := {} } (head (s 0 1) (o 0 1)) = some 29 ∧
      pathFault (setMilPort (s 0 1) 0 {}) (head (s 0 1) (o 0 1)) = some 30) ∧
    (slotRoom (s 2 1) ≠ 0 ∧ slotRoom up = 0 ∧ (cbzSlot (s 2 1) 0).hasCurrent = false ∧
      (cbzSlot (setCbz (s 2 1) 0 { state := 1, bank0 := flatTable }) 0).hasCurrent = true) ∧
    (updFree (s 3 1) = true ∧ updFree up = false) ∧
    (let s := { s 2 1 with mil := { runs := [⟨63, 7, 2, 0, 0, false, false⟩] } }
     s.mil.runs.find? (fun r => r.q == 63 && r.idx == 7) = some ⟨63, 7, 2, 0, 0, false, false⟩ ∧ (0 : Nat) ≠ 2 ∧ (0 : Nat) ≠ 4) := by
  simp only [BlockAt, Sound]; unfold Dispatches; decide +kernel
/-! ### Witnesses: links, the fabric, Milant, time, keys and the pacers -/

/-- up with a trained port 19, every stadium port up. -/
def linkUp : State := setPort (setF up (PORT_STATE_state 19) 3) 19 { train := .trained, replay := [flit0] }

/-- A flit with the CRC of its bytes. -/
def flitOk (f : Flit) : Flit := { f with crc := crc32c (flitBytes f) }

theorem flitOk_crc (f : Flit) : (flitOk f).crc = crc32c (flitBytes (flitOk f)) := rfl

theorem witness_LinkLayer :
    let s := linkUp
    let p := port s 19
    let with' := fun (sw : Swap) => setPort s 19 { p with swap := sw, replay := [] }
    let d := decodeFlit s 19 [0, 2] false
    let s1 := d.1
    let begun := setPort s 19 { p with rxBits := 2048, badWord := true }
    let s2 := deliverFlit (takeFields s1 19 { flit0 with vc := 0 } false) 19 { flit0 with vc := 0 }
    let spare := setF s (PORT_STATE_spare_used 19) 1
    (s.life = .running ∧ p.train = .trained ∧ p.replay ≠ [] ∧ (port up 19).replay = [] ∧ (port s1 19).expected = 0 ∧
      (port s2 19).train = .trained ∧ { flit0 with null := true }.null = true) ∧
    (tableWf (fun _ => ({} : PortSt)) s.fab.ports = true ∧ tableWf (fun _ => (0 : Nat)) (port s1 19).laneCorrected = true ∧
      d.2 = false ∧ (decodeFlit s 19 [] true).2 = true ∧ (decodeFlit begun 19 [] false).2 = true) ∧
    (p.replayRun + 1 < replayLimit s 19 ∧ replayLimit s 19 ≤ { p with replayRun := 255 }.replayRun + 1 ∧ 7 < 8) ∧
    (isSet s (PORT_STATE_spare_used 19) = false ∧ isSet spare (PORT_STATE_spare_used 19) = true ∧
      getF spare (PORT_STATE_spare_for 19) = 0 ∧ isSet s (PORT_LANE_auto_swap 19) = true ∧
      isSet (setF s (PORT_LANE_auto_swap 19) 0) (PORT_LANE_auto_swap 19) = false ∧ p.swap = .none) ∧
    ((port (with' (.requested 7)) 19).swap = .requested 7 ∧ (port (with' (.draining 7)) 19).swap = .draining 7 ∧
      (port (with' (.draining 7)) 19).replay = [] ∧ enginesBusy (with' (.draining 7)) < 4 ∧
      (port (with' (.training 7)) 19).swap = .training 7 ∧ (port (with' (.training 7)) 19).swapNext = none) ∧
    (regsOpen s (pgPORT 19) = true ∧ (port up 19).train ≠ .trained) := by decide +kernel

/-- Ports that adapt their receive taps, frozen, and down (StepRunsFront). -/
theorem witness_StepRunsFrontTaps : tableWf (fun _ => (0 : Nat)) up.pac.taps = true ∧ adapts linkUp 19 = true ∧
    adapts (setF linkUp FAB_EQ_freeze 0x80000) 19 = false ∧ adapts up 19 = false ∧ adapts up 21 = false ∧
    adapts (setF up (MIL_PORT_STATE_link 1) 2) 21 = true := by decide +kernel

/-- A packet whole in port 19's receive buffer. -/
def boxed (p : Packet) : State := { up with
  fab := { up.fab with
    inbox := [⟨19, 0, 1, p⟩]
    txns := [{ pkt := { pkt0 with tag := 5, dst := 1 }, who := .vec 0 63 7 }] } }

theorem witness_FabricRequests :
    let pk := fun (vc op : Nat) => { pkt0 with vc := vc, op := op, tag := 5 }
    let took := fun (p : Packet) => match takePacket (boxed p) 19 p with
      | some r => r.1 == 0
      | none => false
    (∀ p ∈ [pk 2 1, pk 2 7, pk 6 1, pk 6 8, pk 6 9, pk 3 0, { pk 3 0 with tag := 6 }, { pk 2 1 with dst := 1 }], took p = true) ∧
    (pkt0.dst = myId up ∧ memChannel 2 = true ∧ (pk 3 0).status ≠ 4 ∧
      (boxed pkt0).fab.txns.find? (fun e => e.pkt.tag == 6) = none ∧
      ((boxed pkt0).fab.txns.find? (fun e => e.pkt.tag == 5)).isSome = true) ∧
    (let n := nextPort up 1 0
     1 ≠ myId up ∧ (memChannel 2 && !isSet cold DEV_START_fabric_ready) = true ∧
      (memChannel 2 && !isSet up DEV_START_fabric_ready) = false ∧ portState (setF up (PORT_STATE_state n) 3) n = 3 ∧ portState up n ≠ 3) ∧
    (isSet up DEV_START_fabric_ready = true ∧ isSet cold DEV_START_fabric_ready = false ∧ (2 : Nat) ≠ 6 ∧
      up.fab.inSeq.any (fun e => e.1 == 2) = false) ∧
    (let s := { up with fab := { up.fab with inSeq := [(2, 10)] } }
     s.fab.inSeq.any (fun e => e.1 == 2) = true ∧ tget (fun _ => 0) s.fab.inSeq 2 = 10 ∧ (14 + 2 ^ 32 - 10) % 2 ^ 32 < 4096 ∧
      (14 + 2 ^ 32 - 10) % 2 ^ 32 ≠ 0 ∧ 4096 ≤ (9 + 2 ^ 32 - 10) % 2 ^ 32 ∧ s.fab.early.length < 64) ∧
    (up.memWf = true ∧ memoryUp up attic 8 = true ∧ memoryUp up attic 4096 = true ∧ Sound up attic 8 ∧ Sound up attic 4096 ∧
      rangeOk { pkt0 with addr := attic, length := 4096 } = true ∧ rangeOk { pkt0 with addr := attic, length := 4 } = true) ∧
    (lapHeld up 4095 = false ∧ lapReached up 4095 0 = true ∧ lapReached up 4095 1 = false ∧ up.laps.watches.length < 1024) ∧
    ({ up with fab := { up.fab with rerouting := [(1, 2)] } }.fab.rerouting.find? (fun e => e.1 == 1) = some (1, 2) ∧
      up.fab.rerouting.find? (fun e => e.1 == 1) = none ∧ { pkt0 with op := 7 }.op = 7 ∧ pkt0.op ≠ 7) := by
  simp only [Sound]; decide +kernel

/-- milUpSt with both links up. -/
def milLive : State := setF (setF milUpSt (MIL_PORT_STATE_link 0) 2) (MIL_PORT_STATE_link 1) 2

def parcel (kind dst : Nat) (body : List Byte) : Parcel := { kind := kind, dstBld := dst, body := body }
def entry (code : Nat) : CtlEntry := { src := 0, dst := 0, stream := 3, code := code, seq := 4 }

theorem witness_MilantFrames :
    let s := milLive
    let f := fun (w : Wire) => ({ parcel := parcel 2 1 [], span := List.replicate 48 0, wire := w } : DataFrame)
    let wait : BatonWait := ⟨{ parcel 3 1 [] with stream := 0xFFFF, seq := 4 }, 1, 0, 0, 0, 1, [1]⟩
    let ctl := { parcel 6 1 (ctlBytes { entry 1 with
      src := (streamOf wait.head).src
      dst := (streamOf wait.head).dst
      stream := 0xFFFF }) with stream := 0xFFFF }
    (isSet s CLK_STATUS_net_ref_ok = true ∧ isSet (setF s CLK_STATUS_net_ref_ok 0) CLK_STATUS_net_ref_ok = false) ∧
    ((f {}).wire.peer = peerAddr s 1 ∧ (f { peer := 7 }).wire.peer ≠ peerAddr s 1 ∧ 64 ≤ 16 + (f {}).span.length ∧
      16 + 4 * b2n true + 44 = 64 ∧ 16 + 47 < 64 ∧ 9216 < 16 + 9201) ∧
    (isSet s DEV_START_fabric_ready = true ∧ isSet (setF s DEV_START_fabric_ready 0) DEV_START_fabric_ready = false ∧
      (parcel 3 1 []).dstBld ≠ myParticipant s) ∧
    (saysStored ctl wait = true ∧ ctlCode ctl = 1 ∧ s.mil.waits.any (saysStored ctl) = false ∧
      { s with mil := { s.mil with waits := [wait] } }.mil.waits.any (saysStored ctl) = true ∧
      ctlCode (parcel 6 0 (ctlBytes (entry 1))) ≠ 2 ∧ ctlCode (parcel 6 0 (ctlBytes (entry 2))) = 2 ∧
      ctlCode (parcel 6 0 (ctlBytes (entry 3))) = 3) ∧
    (repair0.wire.peer = peerAddr s 1 ∧ 162 + repair0.bytes.length ≤ 9216 ∧ 9216 < 162 + 4 * b2n false + 9055 ∧
      { repair0 with j := 4 }.j = 4 ∧ { repair0 with n := 33 }.n = 33) := by
  decide +kernel

theorem witness_MilantRows :
    let s := milLive
    let p := milPort s 1
    let a : Assoc := ⟨0, 5, 9000⟩
    (bitOf s.pac.milPorts 1 = true ∧ isSet s DEV_START_steward_ready = true ∧ milUp s 1 = true ∧ milUp milUpSt 1 = false ∧
      p.group = [] ∧ { p with group := [(0, [])] }.group ≠ []) ∧
    (p.rx.find? (fun a => a.an == 0) = some ⟨0, 5, 1⟩ ∧ p.rx.find? (fun a => a.an == 1) = none ∧ 808 + 8192 ≤ a.pn ∧
      a.pn < 809 + 8192 ∧ p.groups = []) ∧
    (∀ k ∈ [1, 2, 3, 4, 5], hopOf s (parcel k 1 []) ≠ .here ∧ (parcel k 1 []).kind = k) ∧
    (∀ k ∈ [2, 3, 4, 5], hopOf s (parcel k 0 []) = .here) ∧
    hopOf { s with fab := { s.fab with roles := [(0, 0x80000000)] } } (parcel 1 0 []) = .here ∧
    (∀ c ∈ [1, 2, 3], ctlEntries (parcel 6 0 (ctlBytes (entry c))).body = [entry c] ∧
      hopOf { s with fab := { s.fab with roles := [(0, 0x80000000)] } } (parcel 6 0 (ctlBytes (entry c))) = .here ∧
      hopOf s (parcel 6 1 (ctlBytes (entry c))) ≠ .here) ∧
    (let m : MsgTx := { q := 63, idx := 7, head := { parcel 1 1 [] with stream := 3, seq := 4 }, pre := [], src := 0, len := 0 }
     [m].find? (fun (y : MsgTx) => y.head.stream == 3 && y.head.seq == 4 && (streamOf y.head).src == 0 &&
      (streamOf y.head).dst == 0 && y.head.dstBld == m.head.dstBld) = some m) ∧
    findStream s ⟨3, 0, 0, 0⟩ = none ∧
    (let r := { repair0 with n := 32, len := 1, entries := (List.range 32).map (fun i => (i, 1)) }
     repair0.j < 4 ∧ 0 < r.n ∧ r.n ≤ 32 ∧
      2 ≤ (missingOf p ⟨r.an, r.pnFirst, r.n, r.len, r.entries, [(r.j, r.bytes)], false⟩).length) ∧
    (let g : GroupRx := ⟨0, 100, 1, 1, [(0, 1)], [], false⟩
     [g].find? (fun g => g.pnFirst == 100 && !g.closed) = some g ∧ p.groups.find? (fun g => g.pnFirst == 100 && !g.closed) = none) := by
  decide +kernel

theorem witness_TimeRows :
    let s := linkUp
    let src := fun n => setF s TIM_SRC_source n
    (s.life = .running ∧ (port s 19).train = .trained ∧ getF (src 19) TIM_SRC_source = 19 ∧ getF (src 21) TIM_SRC_source ≠ 19 ∧
      bitOf (getF (setF s TIM_SERVE_stadium 0x80000) TIM_SERVE_stadium) 19 = true ∧ bitOf (getF s TIM_SERVE_stadium) 19 = false) ∧
    (s.tim.exch.length < 3 ∧ getF s TIM_SERVO_state ≠ 3 ∧ getF (setF s TIM_SERVO_state 3) TIM_SERVO_state = 3) ∧
    (s.tim.exch.length + 3 = 3 ∧ ({ s with tim := { s.tim with exch := [(1, 1), (1, 1), (1, 1)] } }).tim.exch.length = 3 ∧
      (getF (setF s TIM_SERVO_state 1) TIM_SERVO_state = 1 ∧ getF s TIM_GAIN_step_ns * 1000 < (2 ^ 60 : Int).natAbs) ∧
      ¬ getF s TIM_GAIN_step_ns * 1000 < (0 : Int).natAbs ∧
      0 ≤ ((s.deviceTime : Int) * 65536 + s.tim.frac) + 65536 - s.tim.slew / 250000000000 ∧ s.tim.frac < 65536 ∧
      (milPort milLive 1).liveTx = some ⟨0, 5, 1⟩ ∧ ({} : Wire).peer = peerAddr milLive 1 ∧ (7 : Nat) ≠ peerAddr milLive 1) ∧
    (milUp milLive 1 = true ∧ (milPort milLive 1).rx.find? (fun y => y.an == 0) = some ⟨0, 5, 1⟩ ∧ 1 < 0 + 8192 ∧
      getF (setF s TIM_SRC_domain 255) TIM_SRC_domain = 255 ∧ 0 ≠ getF (setF s TIM_SRC_domain 255) TIM_SRC_domain) ∧
    (getF (src 21) TIM_SRC_source = 20 + 1 ∧ getF (src 20) TIM_SRC_source ≠ 20 + 1 ∧
      ({ s with tim := { s.tim with sync := some (1, 2), asked := some (1, 2, 3, 4) } }).tim.sync = some (1, 2) ∧
      ({ s with tim := { s.tim with sync := some (1, 2), asked := some (1, 2, 3, 4) } }).tim.asked = some (1, 2, 3, 4) ∧
      bitOf (getF (setF s TIM_SERVE_milant 2) TIM_SERVE_milant) 1 = true ∧ bitOf (getF s TIM_SERVE_milant) 1 = false) ∧
    (getF (setF (src 21) TIM_SERVO_state 1) TIM_SRC_source < 22 ∧
      getF (setF (src 21) TIM_SERVO_state 1) TIM_SERVO_state = 1 ∧ 22 ≤ getF (src 30) TIM_SRC_source ∧
      getF s TIM_SERVO_state = 0 ∧ getF (src 30) TIM_SRC_source = 30 ∧ getF s TIM_SRC_source ≠ 30 ∧ s.tim.armed = none ∧
      ({ src 30 with tim := { s.tim with armed := some 5 } }).tim.armed = some 5 ∧ (src 30).regsWf = true) ∧
    (s.regsWf = true ∧ regsOpen s pgTIM = true ∧ isSet s DEV_START_time_valid = true) := by decide +kernel

/-- milUpSt with the key-encryption key set, and the device time low. -/
def keyUp : State := { milUpSt with stw := { milUpSt.stw with kek := some [] } }

theorem witness_KeyRows :
    let t := fun (s : State) (v : Word) => setF (setF (setF s KEY_INSTALL_port (bitsOf v.toNat 0 1)) KEY_INSTALL_dir (bitsOf v.toNat 1 1))
      KEY_INSTALL_an (bitsOf v.toNat 2 2)
    let others := fun (s : State) (v : Word) =>
      let p := milPort (t s v) (bitsOf v.toNat 0 1)
      (if bitOf v.toNat 1 then p.rx else p.tx).filter (fun a => a.an != bitsOf v.toNat 2 2)
    let used := fun (s : State) (v : Word) =>
      let p := milPort (t s v) (bitsOf v.toNat 0 1)
      if bitOf v.toNat 1 then p.rx.any (fun a => a.an == bitsOf v.toNat 2 2) else p.live == some (bitsOf v.toNat 2 2)
    let full := setMilPort keyUp 1 { tx := [⟨0, 5, 1⟩, ⟨1, 5, 1⟩], rx := [⟨0, 5, 1⟩, ⟨1, 5, 1⟩], live := some 0 }
    (regsOpen keyUp pgKEY = true ∧ keyUp.stw.kek.isSome = true ∧ used keyUp 1 = true ∧ used keyUp 3 = true) ∧
    ([5, 7, 13, 15] : List Word).all (fun v => !used keyUp v && decide ((others keyUp v).length < 2)) = true ∧
    ([9, 11] : List Word).all (fun v => !used full v && decide (2 ≤ (others full v).length)) = true ∧
    ((milPort full 1).tx.any (fun a => a.an == 2) = false ∧ (milPort full 1).rx.any (fun a => a.an == 3) = false ∧
      (milPort full 1).tx.any (fun a => a.an == 1) = true ∧ (milPort full 1).live ≠ some 1 ∧
      (milPort full 1).live = some 0 ∧ (milPort full 1).rx.any (fun a => a.an == 1) = true) ∧
    (isSet keyUp DEV_START_time_valid = true ∧ isSet (setF keyUp DEV_START_time_valid 0) DEV_START_time_valid = false ∧
      keyAt keyUp < keyUp.deviceTime + 1000000 ∧
      ¬ keyAt (setF keyUp KEY_AT_LO_at 1000000) < ({ keyUp with deviceTime := 0 }).deviceTime + 1000000) ∧
    (let p : MilPort := { armTx := some (1, 9), armRx := some (1, 9, 1), oldTx := some 0, grace := [0, 1] }
     let s := setMilPort keyUp 1 p
     milPort s 1 = p ∧ (milPort (closeGroup s 1) 1).tx.any (fun a => a.an == 1) = false ∧
      (milPort (closeGroup (setMilPort full 1 { milPort full 1 with armTx := some (1, 9) }) 1) 1).tx.any
        (fun a => a.an == 1) = true ∧ p.grace.getLast? = some 1 ∧ (milPort full 1).armTx = none ∧
      (milPort full 1).armRx = none ∧ (milPort full 1).oldTx = none ∧ (milPort full 1).grace = []) := by decide +kernel

/-- A profile record of slot 2 at the least cap, with its CRC. -/
def profRec : List Byte :=
  let b := natLe 4 0x4B375046 ++ [1, 2, 0, 0] ++ natLe 2 600 ++ List.replicate 50 0
  b ++ natLe 4 (crc32c b)

/-- A PROFILE.SWITCH to slot n. -/
def switchCmd (n : Nat) : CmdEntry :=
  { cmdOf 0x0701 0 with bytes := (desc 0x0701 1 0 0 0 0 0 0 []).take 44 ++ natLe 1 n ++ List.replicate 19 0 }

theorem witness_PacerRows :
    let s := setF (setF (setF up (PAC_CAL_V_F_v_max 3) 900) (PAC_CAL_RO_F_ro_target 3) 100) (PAC_VOLT_setpoint_mv 3) 830
    let top := setF s (PAC_VOLT_setpoint_mv 3) 895
    (stewardUp s = true ∧ isSet s (PAC_LOOP_X_freeze_volt 3) = false ∧
      isSet (setF s (PAC_LOOP_X_freeze_volt 3) 1) (PAC_LOOP_X_freeze_volt 3) = true ∧ vMin s 3 = 600 ∧ vMax s 3 = 900 ∧
      16 * roTarget s 3 = 1600 ∧ roMargin s 3 = 1 ∧ getF s (PAC_STATE_level 0) = 0 ∧ getF s (PAC_LOOP_X_step_mv 3) = 5 ∧
      (100 : Int) * 16 * 100 ≤ 1600 * 101 ∧ (1600 : Int) * 101 < 102 * 16 * 100 ∧ (99 : Int) * 16 < 1600 ∧
      vMax top 3 ≤ getF top (PAC_VOLT_setpoint_mv 3) + 5) ∧
    (let cap := fun (n : Nat) => setF up (PAC_CAP_cap_w 0) n
     let sum := fun (mv ma : Nat) => ((mv * ma + mv * ma) / 1000 :: up.pac.power).take 10 |>.foldl (· + ·) 0
     getF (cap 2000) (PAC_CAP_cap_w 0) * 1000 * 1 < sum 48000 21000 ∧ sum 48000 20000 * 100 < getF (cap 2000) (PAC_CAP_cap_w 0) * 1000 * 97 ∧
      getF (cap 1920) (PAC_CAP_cap_w 0) * 1000 = sum 48000 20000 ∧ getF up (PAC_STATE_cap_level 0) = 0 ∧
      getF (setF up (PAC_STATE_cap_level 0) 16) (PAC_STATE_cap_level 0) ≠ 0 ∧ up.pac.capBelow < 9 ∧
      9 ≤ ({ up with pac := { up.pac with capBelow := 9 } }).pac.capBelow) ∧
    (isSet booting DEV_START_steward_ready = false ∧ isSet up DEV_START_steward_ready = true ∧ up.life = .running ∧
      hottestOf [300, 400, 399] = (1, 400) ∧ hottestOf [388] = (0, 388) ∧ hottestOf [387] = (0, 387) ∧ tjTrim up 0 = 0 ∧
      getF up (PAC_STATE_therm_level 0) = 0 ∧ getF (setF up (PAC_STATE_therm_level 0) 1) (PAC_STATE_therm_level 0) = 1 ∧
      getF (setF up (PAC_STATE_therm_level 0) 16) (PAC_STATE_therm_level 0) = 16 ∧ up.pac.hotSamples < 9 ∧ up.pac.coolSamples < 99 ∧
      9 ≤ ({ up with pac := { up.pac with hotSamples := 9, coolSamples := 99 } }).pac.hotSamples) := by decide +kernel

theorem witness_PacerRowsProfiles :
    (let s := poke (setF up PRF_SRC_HI_addr (attic / 2 ^ 32)) attic profRec
     let a := getF (setF s PRF_WRITE_slot 2) PRF_SRC_LO_addr + 2 ^ 32 * getF (setF s PRF_WRITE_slot 2) PRF_SRC_HI_addr
     isSet s PRF_WRITE_busy = false ∧ isSet (setF s PRF_WRITE_busy 1) PRF_WRITE_busy = true ∧ bitOf (6 : Word).toNat 2 = true ∧
      bitOf (2 : Word).toNat 2 = false ∧ a = attic ∧ a % 64 = 0 ∧ inMemory a 64 = true ∧ 64 + 520 * leAt (peek s a 64) 6 2 = 64 ∧
      Sound s a 64 ∧ profOk 2 (peek s a 64) = true ∧ profOk 1 (peek s a 64) = false) ∧
    (let s := { up with stw := { up.stw with profileWrite := some (2, profRec, 0), applying := true } }
     s.stw.profileWrite = some (2, profRec, 0) ∧ stewardUp s = true ∧ s.stw.applying = true ∧ up.stw.applying = false) ∧
    ((∀ n ∈ [2, 3, 4], Dispatches (holding up (switchCmd n)) 63 7 (switchCmd n) {} ∧ (switchCmd n).opcode = 0x0701 ∧
        leAt (switchCmd n).bytes 44 1 = n ∧ leAt (switchCmd n).bytes 45 1 < 2 ∧ zeroAt (switchCmd n).bytes 46 18 = true) ∧
      (slotProfile up 2).isNone = true ∧ (slotProfile up 3).isSome = true ∧ (holding up (switchCmd 2)).cmds.table.length ≤ 1 ∧
      (let s := { up with cmds := { table := [switchCmd 2, { cmdOf 0x0601 0 with idx := 8 }] } }
       Dispatches s 63 7 (switchCmd 2) {} ∧ 1 < s.cmds.table.length)) := by
  simp only [Sound]; unfold Dispatches; decide +kernel
/-! ### Witnesses: the Steward's update and identity services -/

theorem bytesAt_skip (a b : List Byte) (k o n : Nat) (h : a.length = k) (hk : k ≤ o) :
    bytesAt (a ++ b) o n = bytesAt b (o - k) n := by
  unfold bytesAt
  apply List.map_congr_left
  intro i _
  rw [List.getElem?_append_right (by omega), show o + i - a.length = o - k + i by omega]

theorem bytesAt_head (a b : List Byte) (o n : Nat) (h : o + n ≤ a.length) : bytesAt (a ++ b) o n = bytesAt a o n := by
  unfold bytesAt
  apply List.map_congr_left
  intro i hi
  have := List.mem_range.mp hi
  rw [List.getElem?_append_left (by omega)]

theorem bytesAt_all (a : List Byte) (n : Nat) (h : a.length = n) : bytesAt a 0 n = a := by
  subst h
  apply List.ext_getElem
  · simp [bytesAt]
  · intro i h1 h2
    simp [bytesAt, List.getElem?_eq_getElem h2]

theorem keccakF_length (a : List Nat) : (keccakF a).length = 25 := by
  have one : ∀ (a : List Nat) (c : Nat), (keccakRound a c).length = 25 := by
    intro a c
    simp only [keccakRound, List.range_succ, List.range_zero, List.nil_append, List.cons_append, List.map_cons, List.map_nil,
      List.length_cons, List.length_nil]
  have all : ∀ (cs : List Nat) (a : List Nat), cs ≠ [] → (cs.foldl keccakRound a).length = 25 := by
    intro cs
    induction cs with
    | nil => intro a h; exact absurd rfl h
    | cons c cs ih =>
      intro a _
      by_cases h : cs = []
      · subst h; exact one a c
      · exact ih _ h
  exact all keccakRc a (by decide)

theorem absorb_length (rate n : Nat) (bs : List Byte) (a : List Nat) (h : a.length = 25) : (absorb rate n bs a).length = 25 := by
  induction n generalizing bs a with
  | zero => exact h
  | succ n ih => exact ih _ _ (keccakF_length _)

theorem natLe_length (n v : Nat) : (natLe n v).length = n := by
  induction n generalizing v with
  | zero => rfl
  | succ n ih => simp [natLe, ih]

theorem words_length (l : List Nat) : (l.flatMap (natLe 8)).length = 8 * l.length := by
  induction l with
  | nil => rfl
  | cons a l ih => rw [List.flatMap_cons, List.length_append, natLe_length, ih, List.length_cons]; omega

theorem sha3_length (m : List Byte) : (sha3 m).length = 32 := by
  have h := absorb_length 136 ((keccakPad 136 6 m).length / 136) (keccakPad 136 6 m) (List.replicate 25 0) List.length_replicate
  have h2 : ∀ a : List Nat, a.length = 25 → (squeeze 136 (32 / 136 + 1) a).length = 136 := by
    intro a ha
    rw [show 32 / 136 + 1 = 0 + 1 from rfl, squeeze, squeeze, List.append_nil, words_length, List.length_take, ha]; rfl
  rw [sha3, sponge136, List.length_take, h2 _ h]; rfl

/-- Bank A erased; a target bank of one Steward image, the last 64 bytes of the bank, whose key is of zeros. -/
def target : List Byte :=
  natLe 4 0x4B37424B ++ [1, 44, 0, 0, 0, 1, 0, 0] ++ natLe 4 3 ++ List.replicate 48 0 ++ [1, 0, 0, 0] ++ natLe 4 (bankSize - 64)
    ++ sha3 (List.replicate 64 0xFF)

/-- A patch that spells the target bank. -/
def patch : List Byte :=
  (([2, 0, 0, 0] ++ natLe 4 104 ++ List.replicate 8 0) ++ (target ++ List.replicate 8 0)) ++ List.replicate 16 0

/-- The manifest's piece count, patch length and reserved bytes. -/
def updFields : List Byte := natLe 2 1 ++ [0, 0] ++ natLe 4 patch.length ++ List.replicate 296 0
theorem updFields_length : updFields.length = 304 := by
  simp only [updFields, List.length_append, List.length_replicate, natLe_length, List.length_cons, List.length_nil]
theorem zeroKey_length : zeroKey.length = 1312 := List.length_replicate
theorem id_length (m : List Byte) : ((sha3 m).take 8).length = 8 := by rw [List.length_take, sha3_length]; rfl

/-- The manifest that leads from the erased bank to the target by that patch, in one piece. -/
def updBody : List Byte :=
  sha3 (flashRead [] 0 4096) ++ (sha3 (flashRead target 0 4096) ++ (updFields ++ (zeroKey ++ (List.replicate 5728 0 ++ sha3 patch))))
def updManifest : List Byte :=
  (natLe 4 0x4B375550 ++ [1, 44, 0, 0]) ++ ((sha3 (bytesAt updBody 0 4080)).take 8 ++ updBody)

theorem manifest_at (o n : Nat) (h : 16 ≤ o) : bytesAt updManifest o n = bytesAt updBody (o - 16) n := by
  unfold updManifest
  rw [bytesAt_skip _ _ 8 o n rfl (by omega), bytesAt_skip _ _ 8 _ n (id_length _) (by omega)]
  rw [show o - 8 - 8 = o - 16 by omega]

theorem manifest_old : bytesAt updManifest 16 32 = sha3 (flashRead [] 0 4096) := by
  rw [manifest_at _ _ (by omega), updBody, bytesAt_head _ _ _ _ (by rw [sha3_length]), bytesAt_all _ _ (sha3_length _)]

theorem manifest_new : bytesAt updManifest 48 32 = sha3 (flashRead target 0 4096) := by
  rw [manifest_at _ _ (by omega), updBody, bytesAt_skip _ _ 32 _ _ (sha3_length _) (by omega),
    bytesAt_head _ _ _ _ (by rw [sha3_length]), bytesAt_all _ _ (sha3_length _)]

/-- A field of the manifest past its two digests. -/
theorem manifest_field (o n : Nat) (h : 80 ≤ o) : bytesAt updManifest o n =
    bytesAt (updFields ++
      (zeroKey ++ (List.replicate 5728 0 ++ sha3 patch))) (o - 80) n := by
  rw [manifest_at _ _ (by omega), updBody, bytesAt_skip _ _ 32 _ _ (sha3_length _) (by omega),
    bytesAt_skip _ _ 32 _ _ (sha3_length _) (by omega)]
  rw [show o - 16 - 32 - 32 = o - 80 by omega]

theorem manifest_key (o n : Nat) (h : 384 ≤ o) : bytesAt updManifest o n =
    bytesAt (zeroKey ++ (List.replicate 5728 0 ++ sha3 patch)) (o - 384) n := by
  rw [manifest_field _ _ (by omega), bytesAt_skip _ _ 304 _ _ updFields_length (by omega)]
  rw [show o - 80 - 304 = o - 384 by omega]

theorem bytesAt_zeros (k o n : Nat) : bytesAt (List.replicate k 0) o n = List.replicate n 0 := by
  apply List.ext_getElem
  · simp only [bytesAt, List.length_map, List.length_range, List.length_replicate]
  · intro i h1 h2
    simp only [bytesAt, List.getElem_map, List.getElem_range, List.getElem?_replicate, List.getElem_replicate]
    split <;> rfl

theorem manifest_zeros (o n : Nat) (h : 1696 ≤ o) (h2 : o + n ≤ 7424) : bytesAt updManifest o n = List.replicate n 0 := by
  rw [manifest_key _ _ (by omega), bytesAt_skip _ _ 1312 _ _ zeroKey_length (by omega),
    bytesAt_head _ _ _ _ (by rw [List.length_replicate]; omega), bytesAt_zeros]

theorem manifest_piece : bytesAt updManifest 7424 32 = sha3 patch := by
  rw [manifest_key _ _ (by omega), bytesAt_skip _ _ 1312 _ _ zeroKey_length (by omega),
    bytesAt_skip _ _ 5728 _ _ List.length_replicate (by omega), bytesAt_all _ _ (sha3_length _)]

theorem allZero (n : Nat) : (List.replicate n (0 : Byte)).all (· == 0) = true := by
  rw [List.all_eq_true]; intro x h; rw [List.eq_of_mem_replicate h]; rfl

/-- The signature of zeros of a manifest under the key of zeros. -/
def zeroSig (m : List Byte) : Vouch := ⟨44, zeroKey, sha3 (bytesAt m 0 4096), List.replicate 2420 0⟩

/-- up with the fuses of the key of zeros, the manifest's and the target's signatures vouched for. -/
def updUp : State := { up with fuses := { keyHash := [sha3 zeroKey], vouched := [zeroSig updManifest, zeroSig target] } }

theorem vouches_manifest : updUp.fuses.vouched.contains (zeroSig updManifest) = true :=
  List.contains_iff_mem.mpr List.mem_cons_self

theorem vouches_target : updUp.fuses.vouched.contains (zeroSig target) = true :=
  List.contains_iff_mem.mpr (List.mem_cons_of_mem _ List.mem_cons_self)

theorem updManifest_length : updManifest.length = 7456 := by
  simp only [updManifest, updBody, List.length_append, id_length, sha3_length, updFields_length, zeroKey_length,
    List.length_replicate]
  rfl

theorem manifest_ok : manifestFault updUp updManifest = none := by
  have key : keyOk updUp.fuses updManifest = true := by
    have h1 : leAt updManifest 5 1 = 44 := by decide +kernel
    have h2 : leAt updManifest 6 1 = 0 := by decide +kernel
    have h3 : zeroAt updManifest (384 + 1312) (1952 - 1312) = true := by
      rw [zeroAt, manifest_zeros _ _ (by omega) (by omega), allZero]
    have h4 : bitOf updUp.fuses.revoked 0 = false := by decide +kernel
    have h5 : keyLen 44 = 1312 := rfl
    have h6 : (updUp.fuses.keyHash[0]?).getD [] = sha3 zeroKey := by
      rw [show updUp.fuses.keyHash = [sha3 zeroKey] from rfl]; simp only [List.getElem?_cons_zero, Option.getD_some]
    have h8 : sigLen 44 = 2420 := rfl
    have h9 : zeroAt updManifest (4096 + 2420) (3309 - 2420) = true := by
      rw [zeroAt, manifest_zeros _ _ (by omega) (by omega), allZero]
    have ha : bytesAt updManifest 4096 2420 = List.replicate 2420 0 := manifest_zeros _ _ (by omega) (by omega)
    have hb : sigVerifies updUp.fuses 44 zeroKey (sha3 (bytesAt updManifest 0 4096)) (List.replicate 2420 0) = true :=
      vouches_manifest
    have h7 : bytesAt updManifest 384 1312 = zeroKey := by
      rw [manifest_key _ _ (by omega), bytesAt_head _ _ _ _ (by rw [zeroKey_length]), bytesAt_all _ _ zeroKey_length]
    simp only [keyOk, h1, h2, h3, h4, h5, h6, h7, h8, h9, ha, hb, beq_self_eq_true, Bool.not_false, Bool.and_true, Bool.true_or]
    rfl
  have n80 : leAt updManifest 80 2 = 1 := by rw [leAt, manifest_field _ _ (by omega)]; decide +kernel
  have n84 : leAt updManifest 84 4 = 144 := by rw [leAt, manifest_field _ _ (by omega)]; decide +kernel
  have z82 : zeroAt updManifest 82 2 = true := by rw [zeroAt, manifest_field _ _ (by omega)]; decide +kernel
  have z88 : zeroAt updManifest 88 296 = true := by
    rw [zeroAt, manifest_field _ _ (by omega), bytesAt_head _ _ _ _ (by rw [updFields_length]), updFields,
      bytesAt_skip _ _ 8 _ _ rfl (by omega), bytesAt_zeros, allZero]
  have z2336 : zeroAt updManifest 2336 1760 = true := by rw [zeroAt, manifest_zeros _ _ (by omega) (by omega), allZero]
  have m4 : leAt updManifest 0 4 = 0x4B375550 := by decide +kernel
  have m1 : leAt updManifest 4 1 = 1 := by decide +kernel
  have m7 : leAt updManifest 7 1 = 0 := by decide +kernel
  have len := updManifest_length
  have idOk : bytesAt updManifest 8 8 = (sha3 (bytesAt updManifest 16 4080)).take 8 := by
    rw [manifest_at 16 4080 (by omega)]
    unfold updManifest
    rw [bytesAt_skip _ _ 8 8 8 rfl (by omega), bytesAt_head _ _ _ _ (by rw [id_length]), bytesAt_all _ _ (id_length _)]
  have ok : manifestOk updUp.fuses updManifest = true := by
    simp only [manifestOk, key, n80, n84, z82, z88, z2336, m4, m1, m7, len, idOk, beq_self_eq_true]
    decide
  have bank : bankBytes updUp.flash updUp.flash.boot.active = [] := by decide +kernel
  have c : updUp.fuses.counter = 0 := rfl
  have f : updUp.flash.manifest = [] := rfl
  have t : updUp.flash.boot.trial = false := by decide +kernel
  simp only [manifestFault, ok, manifest_old, bank, m7, c, f, t]
  simp

/-- The target passes with its key, and its patch spells it. -/
theorem target_length : target.length = 104 := by
  simp only [target, List.length_append, List.length_replicate, natLe_length, sha3_length, List.length_cons, List.length_nil]

theorem target_take : target.take 7424 = target := List.take_of_length_le (by rw [target_length]; decide)

theorem target_bankOk : bankOk updUp.fuses (getF updUp DEV_INFO_arith_rev) target = true := by
  have key : keyOk updUp.fuses (target.take 7424) = true := by
    rw [target_take]
    have h1 : leAt target 5 1 = 44 := by decide +kernel
    have h2 : leAt target 6 1 = 0 := by decide +kernel
    have h3 : zeroAt target (384 + 1312) (1952 - 1312) = true := by
      rw [zeroAt, bytesAt_past _ _ _ (by rw [target_length]; decide), allZero]
    have h4 : bitOf updUp.fuses.revoked 0 = false := by decide +kernel
    have h5 : keyLen 44 = 1312 := rfl
    have h6 : (updUp.fuses.keyHash[0]?).getD [] = sha3 zeroKey := by
      rw [show updUp.fuses.keyHash = [sha3 zeroKey] from rfl]; simp only [List.getElem?_cons_zero, Option.getD_some]
    have h8 : sigLen 44 = 2420 := rfl
    have h9 : zeroAt target (4096 + 2420) (3309 - 2420) = true := by
      rw [zeroAt, bytesAt_past _ _ _ (by rw [target_length]; decide), allZero]
    have ha : bytesAt target 4096 2420 = List.replicate 2420 0 := bytesAt_past _ _ _ (by rw [target_length]; decide)
    have hb : sigVerifies updUp.fuses 44 zeroKey (sha3 (bytesAt target 0 4096)) (List.replicate 2420 0) = true :=
      vouches_target
    have h7 : bytesAt target 384 1312 = zeroKey := bytesAt_past _ _ _ (by rw [target_length]; decide)
    simp only [keyOk, h1, h2, h3, h4, h5, h6, h7, h8, h9, ha, hb, beq_self_eq_true, Bool.not_false, Bool.and_true, Bool.true_or]
    rfl
  simp only [bankOk, key]
  decide +kernel

theorem target_bank (f : FuseSt) (r : Nat) (b : List Byte) (hf : f = updUp.fuses) (hr : r = getF updUp DEV_INFO_arith_rev)
    (hb : b = target) : bankOk f r b = true := by
  subst hf; subst hr; subst hb; exact target_bankOk

/-- updUp with the manifest staged. -/
def staged : State := { updUp with flash := { manifest := updManifest } }

theorem target_built (s : State) (hf : s.fuses = updUp.fuses) (hr : getF s DEV_INFO_arith_rev = getF updUp DEV_INFO_arith_rev)
    (hm : s.flash.manifest = updManifest) : builtOk s target = true := by
  have h : (List.range (leAt target 9 1)).all (fun i => sha3 (imageBytes target i) == entryDigest target i) = true := by
    decide +kernel
  rw [builtOk, hf, hr, hm, target_bankOk, imagesOk, h, manifest_new, beq_self_eq_true]
  rfl

theorem patch_length : patch.length = 144 := by
  simp only [patch, List.length_append, List.length_replicate, natLe_length, target_length, List.length_cons, List.length_nil]

theorem patch_drop : patch.drop 128 = List.replicate 16 0 := List.drop_left' (by
  simp only [List.length_append, List.length_replicate, natLe_length, target_length, List.length_cons, List.length_nil])

theorem patch_bytes : bytesAt patch 16 104 = target := by
  rw [patch, bytesAt_head _ _ _ _ (by
      simp only [List.length_append, List.length_replicate, natLe_length, target_length, List.length_cons, List.length_nil]; decide),
    bytesAt_skip _ _ 16 _ _ rfl (by omega), bytesAt_head _ _ _ _ (by rw [target_length]), bytesAt_all _ _ target_length]

theorem patch_runs : runPatch [] 10 0 patch [] = .ok target := by
  have h1 : leAt patch 0 1 = 2 := by decide +kernel
  have h2 : leAt patch 4 4 = 104 := by decide +kernel
  have h3 : zeroAt patch 2 2 = true := by decide +kernel
  have h4 := patch_length
  have h5 : roundUp 104 16 = 112 := by decide
  have z : runPatch [] 9 128 (List.replicate 16 0) target = .ok target := by rfl
  unfold runPatch
  simp only [h1, h2, h3, h4, h5, patch_bytes, List.nil_append, List.length_nil]
  rw [if_neg (by decide), if_neg (by decide), if_neg (by decide), if_neg (by decide), if_pos trivial, if_neg (by decide),
    show 16 + 112 = 128 from rfl, patch_drop]
  exact z

/-- The record that carries the patch as piece 0. -/
def pieceHead : List Byte := [2, 0, 0, 0] ++ natLe 4 0 ++ natLe 4 144 ++ List.replicate 12 0
def pieceRecord : List Byte := (bytesAt updManifest 8 8 ++ pieceHead) ++ patch

theorem bytesAt_length (b : List Byte) (o n : Nat) : (bytesAt b o n).length = n := by
  rw [bytesAt, List.length_map, List.length_range]

theorem staged_pieces (s : State) (hm : s.flash.manifest = updManifest) : updPieces s = 1 := by
  have h : leAt updManifest 80 2 = 1 := by rw [leAt, manifest_field _ _ (by omega)]; decide +kernel
  have ne : updManifest ≠ [] := by
    intro e
    rw [e] at h
    exact absurd h (by decide)
  rw [updPieces, hm, if_neg ne, h]

theorem piece_ok : pieceOk staged pieceRecord = true := by
  have hd : (bytesAt updManifest 8 8 ++ pieceHead).length = 32 := by rw [List.length_append, bytesAt_length]; rfl
  have drop : pieceRecord.drop 32 = patch := List.drop_left' hd
  have id : leAt pieceRecord 0 8 = updateId staged := by
    rw [leAt, pieceRecord, bytesAt_head _ _ _ _ (by rw [hd]; decide), bytesAt_head _ _ _ _ (by rw [bytesAt_length]),
      bytesAt_all _ _ (bytesAt_length _ _ _)]
    rfl
  have f : leAt pieceRecord 12 4 = 0 := by decide +kernel
  have g : recordOk pieceRecord = true := by decide +kernel
  have n := staged_pieces staged rfl
  have d : digestOf staged.flash.manifest 0 = sha3 patch := manifest_piece
  simp only [pieceOk, drop, id, f, g, n, d, beq_self_eq_true]
  decide

/-- A record of a kind and a length. -/
def recHead (kind n : Nat) : List Byte := natLe 8 0 ++ natLe 4 kind ++ natLe 4 0 ++ natLe 4 n ++ List.replicate 12 0

theorem witness_StewardRows :
    (up.life = .running ∧ isSet up DEV_START_fuses_done = true ∧ isSet up STW_STATE_held = false ∧
      isSet (setF up STW_STATE_held 1) STW_STATE_held = true ∧ 5 < 6 ∧
      (up.stw.expiries.filter (fun t => decide (elapsed up ≤ t + 3600000000000)) ++ [elapsed up]).length < 3 ∧
      3 ≤ (([0, 0] : List Nat).filter (fun t => decide (elapsed up ≤ t + 3600000000000)) ++ [elapsed up]).length) ∧
    (let down := { up with stw := { up.stw with restarting := true } }
     stewardUp down = false ∧ down.life = .running ∧ isSet down DEV_START_steward_ready = true ∧ down.host.doe = none ∧
      131064 < (List.replicate 131065 (0 : Byte)).length ∧ { down.host with doe := some (1, []) }.doe ≠ none) ∧
    (stewardUp up = true ∧ leAt (recHead 1 0) 8 1 = 1 ∧ recordOk (recHead 1 0) = true ∧ recordOk (recHead 1 1) = false ∧
      leAt (recHead 2 0) 8 1 = 2 ∧ pieceOk up (recHead 2 0) = false ∧ leAt (recHead 3 0) 8 1 = 3 ∧
      manifestFault up ((recHead 1 0).drop 32) = some 1) ∧
    (up.flash.boot.trial = false ∧ ({ up with flash := { bootA := BootRec.sealed { trial := true } } }).flash.boot.trial = true ∧
      up.stw.applying = false ∧ ({ up with stw := { up.stw with applying := true } }).stw.applying = true) ∧
    (isSet up SEC_STATE_debug = false ∧ isSet (on up [SEC_STATE_debug]) SEC_STATE_debug = true ∧
      (List.replicate 1088 (0 : Byte)).length = 1088 ∧
      (attestHead 1 ++ List.replicate 32 0).length ≤ 131064 ∧ 131060 < (List.replicate 131061 (0 : Byte)).length ∧ tokenFault up [] 0 [] 0 [] = some 1 ∧
      (let s := { up with
        fuses := { debugHash := sha3 [], vouched := [⟨65, [], natLe 8 0 ++ [] ++ natLe 1 1, []⟩, ⟨65, [], natLe 8 0 ++ [0] ++ natLe 1 1, []⟩] }
        stw := { up.stw with challenge := some [] } }
       tokenFault s [] 0 [] 1 [] = none ∧ tokenFault s [] 0 [0] 1 [] = some 3)) := by decide +kernel

theorem witness_StewardRowsRestart :
    let s := { updUp with
      stw := { updUp.stw with restarting := true }
      flash := { bankA := target } }
    (s.life = .running ∧ s.stw.restarting = true ∧ isSet s STW_STATE_held = false ∧
      isSet s DEV_START_steward_ready = true ∧ s.host.doe = none ∧ isSet s DEV_START_boot_bank = false ∧ s.flash.manifest = []) ∧
    bankOk s.fuses (getF s DEV_INFO_arith_rev) (bankBytes s.flash false) = true :=
  ⟨by decide +kernel, target_bank _ _ _ rfl (by decide +kernel) rfl⟩

theorem witness_StewardRowsUpdate :
    (let r := recHead 1 7456 ++ updManifest
     leAt r 8 1 = 1 ∧ recordOk r = true ∧ r.drop 32 = updManifest ∧ manifestFault updUp updManifest = none) ∧
    (stewardUp staged = true ∧ leAt pieceRecord 8 1 = 2 ∧ leAt pieceRecord 12 4 = 0 ∧ pieceOk staged pieceRecord = true ∧
      staged.flash.pieces.any (fun p => p.1 == 0) = false) := by
  have h : (recHead 1 7456).length = 32 := by
    simp only [recHead, List.length_append, List.length_replicate, natLe_length]
  refine ⟨⟨?_, ?_, List.drop_left' h, manifest_ok⟩, by decide +kernel, by decide +kernel, by decide +kernel, piece_ok, by
    decide +kernel⟩
  · rw [leAt, bytesAt_head _ _ _ _ (by rw [h]; decide)]; decide +kernel
  · have len : (recHead 1 7456 ++ updManifest).length = 7488 := by rw [List.length_append, h, updManifest_length]
    have a : zeroAt (recHead 1 7456 ++ updManifest) 9 3 = true := by
      rw [zeroAt, bytesAt_head _ _ _ _ (by rw [h]; decide)]; decide +kernel
    have b : zeroAt (recHead 1 7456 ++ updManifest) 20 12 = true := by
      rw [zeroAt, bytesAt_head _ _ _ _ (by rw [h])]; decide +kernel
    have c : leAt (recHead 1 7456 ++ updManifest) 16 4 = 7456 := by
      rw [leAt, bytesAt_head _ _ _ _ (by rw [h]; decide)]; decide +kernel
    simp only [recordOk, a, b, c, len]
    decide

/-- staged with its one piece held, the update being applied. -/
def applyingSt : State := { staged with
  flash := { staged.flash with pieces := [(0, patch)] }
  stw := { staged.stw with applying := true } }

theorem applying_stream : patchStream applyingSt = patch := by
  have h : leAt updManifest 84 4 = 144 := by rw [leAt, manifest_field _ _ (by omega)]; decide +kernel
  have p : applyingSt.flash.pieces.flatMap (·.2) = patch := by
    rw [show applyingSt.flash.pieces = [(0, patch)] from rfl]
    simp only [List.flatMap_cons, List.flatMap_nil, List.append_nil]
  rw [patchStream, p, show applyingSt.flash.manifest = updManifest from rfl, h]
  exact List.take_of_length_le (by rw [patch_length])

theorem witness_StewardRowsApply :
    (stewardUp applyingSt = true ∧ applyingSt.stw.applying = true) ∧
    (runPatch (bankBytes applyingSt.flash applyingSt.flash.boot.active) ((patchStream applyingSt).length / 16 + 1) 0
      (patchStream applyingSt) [] = .ok target) ∧
    builtOk { applyingSt with flash := { applyingSt.flash with bankB := target } } target = true ∧
    (let s := { applyingSt with flash := {} }
     (match runPatch (bankBytes s.flash s.flash.boot.active) ((patchStream s).length / 16 + 1) 0 (patchStream s) [] with
      | .error off => off == 0
      | .ok _ => false) = true) ∧
    (let s := { applyingSt with flash := { pieces := [(0, List.replicate 16 0)], manifest := List.replicate 84 0 ++ [16, 0, 0, 0] } }
     (match runPatch (bankBytes s.flash s.flash.boot.active) ((patchStream s).length / 16 + 1) 0 (patchStream s) [] with
      | .error _ => false
      | .ok bank => bank == []) = true ∧
      builtOk s [] = false) ∧
    (let s := setF { applyingSt with stw := staged.stw } FWU_CTRL_hold_apply 1
     s.stw.applying = false ∧ isSet s FWU_CTRL_hold_apply = true ∧ updComplete s = true ∧ s.flash.journal ≠ 3) := by
  refine ⟨by decide +kernel, ?_, target_built _ rfl (by decide +kernel) rfl, by decide +kernel, by decide +kernel, by
    decide +kernel, by decide +kernel, ?_, by decide +kernel⟩
  · rw [applying_stream, patch_length, show bankBytes applyingSt.flash applyingSt.flash.boot.active = [] by decide +kernel]
    exact patch_runs
  · have n : updPieces (setF { applyingSt with stw := staged.stw } FWU_CTRL_hold_apply 1) = 1 := staged_pieces _ (by rw [setF_flash]; rfl)
    have p : (setF { applyingSt with stw := staged.stw } FWU_CTRL_hold_apply 1).flash.pieces = [(0, patch)] := by rw [setF_flash]; rfl
    rw [updComplete, n, p]
    rfl

/-! ### The spec's worked examples -/

/-- FIPS 202's digest of the empty message (R366). -/
theorem test_sha3_empty :
    sha3 [] = (natLe 32 0xa7ffc6f8bf1ed76651c14756a061d662f580ff4de43b49fa82d80a4b80f8434a).reverse := by decide +kernel

/-- 13_training_state R306: the check value of CRC-64. -/
theorem test_crc64_check : crc64 [0x31, 0x32, 0x33, 0x34, 0x35, 0x36, 0x37, 0x38, 0x39] = 0x6C40DF5F0B497347 := by decide +kernel

/-- 04_registers_host R74: BLK_ID of the page of lane 37. -/
theorem test_blkId_lane37 : (pageOf 0x225).map blkId = some 0x00D25001 := by decide +kernel

/-- 11_stadium_fabric, figure of a heat: slot 3 reaches slot 9 by port 5, slot 9 slot 3 by port 9. -/
theorem test_heatPort : heatPort 3 9 = 5 ∧ heatPort 9 3 = 9 := by decide +kernel

/-- The module at (2, 1, 3). -/
def modelS : State := setF (setF (setF up DEV_STRAP_pos_slot 3) DEV_STRAP_pos_x 2) DEV_STRAP_pos_y 1

/-- 11_stadium_fabric R271: from (2, 1, 3) to (0, 6, 9) in extents 4 and 8. -/
theorem test_route_R271 : primaryRoute { modelS with fab := { up.fab with extX := 4, extY := 8 } } 3081 = some 0x1A := by
  decide +kernel

/-- 11_stadium_fabric R271, continued: slot 3 of heat (0, 6) absent, the reserve holding its role. -/
theorem test_route_R271_reserve : primaryRoute { modelS with
    fab := { up.fab with extX := 4, extY := 8, absent := [(96, 8)] } } 3088 = some 0x22 := by decide +kernel

/-- 07_numerics R163: 0.0003 has code 145. -/
theorem test_ul8_R163 : ul8Encode 0x399D4952 = (145, false, false) := by decide +kernel

/-- 07_numerics R166: the block of -2.75, 1.3, -0.71, 0.006 and 0.046875 in BS8 and in BS6. -/
theorem test_block_R166 :
    let vs := ([0xC0300000, 0x3FA66666, 0xBF35C28F, 0x3BC49BA6, 0x3D400000] : List Word).map v32
    encBlock 0 none vs = (-5, [-88, 42, -23, 0, 2], 0) ∧ encBlock 1 none vs = (-3, [-22, 10, -6, 0, 0], 0) := by decide +kernel

/-- 07_numerics R166: 3.99 raises its block's shift to -4, its code 64. -/
theorem test_block_raised : encBlock 0 none [v32 0x407F5C29] = (-4, [64], 0) := by decide +kernel

/-- 07_numerics R176: scale32 of 12,345 at shifts -5 and -9 is 0.75347900390625. -/
theorem test_scale32 : v32 (scale32 12345 (-14)) = v32 0x3F40E400 := by decide +kernel

/-- 07_numerics R177: 1 + 3 x 2^-26 rounds up from u = 40,960 on. -/
theorem test_add32_stochastic : add32 0x3F800000 0x33400000 (.stochastic 40959) = 0x3F800000 ∧
    add32 0x3F800000 0x33400000 (.stochastic 40960) = 0x3F800001 := by decide +kernel

/-- 14_milant R352: the factors of two participants on time and one late, and D of one element. -/
theorem test_merge_R352 :
    let f := factorsOf (staleWeight up) 10 [(0, 10), (1, 10), (2, 9)]
    f = [0x3ECCCCCD, 0x3ECCCCCD, 0x3E4CCCCD] ∧
    ffma 0x3E4CCCCD 0x39800000 (ffma 0x3ECCCCCD 0xB8800000 (ffma 0x3ECCCCCD 0x39000000 0)) = 0x3899999A := by decide +kernel

/-- 16_pacers R385: a user v_max of +100 on 830 mV is 900 mV. -/
theorem test_vMax_R385 : vMax (setF (setF up (PAC_CAL_V_F_v_max 0) 830) (PAC_CAL_V_U_v_max 0) 100) 0 = 900 := by decide +kernel

/-- 10_cabouz R243: the header of the worked example's block, slot 3, generation 5, its plane 587 bytes. -/
theorem test_cabouz_header : headBytes 0x14 3 5 2048 587 false = [0x14, 0x53, 0x00, 0x08, 0x4B, 0x02, 0x00] ++ List.replicate 9 0 := by
  decide +kernel

/-- 10_cabouz R243: bfloat16 0x3BE9 has symbol 0x77 and residue 0x69. -/
theorem test_cabouz_symbol : symbolOf 0x3BE9 = 0x77 ∧ residueOf 0x3BE9 = 0x69 := by decide +kernel

end Sys2Proof.Tests
end

section
/-! Numerics (07_numerics): the element codes of the formats with a tensor header (R161), and the random bits (R178). -/

namespace Sys2Proof.Machine

/-! ### A stored code as an integer -/

/-- A little-endian field of one byte is that byte. -/
theorem leAt_one {bs : List Byte} {i : Nat} {b : Byte} (h : bs[i]? = some b) : leAt bs i 1 = b.toNat := by
  simp [leAt, bytesAt, leNat, h]

/-- The model's two's complement is that of a bit vector. -/
theorem signed_toNat {w : Nat} (x : BitVec w) : signed w x.toNat = x.toInt := by
  have hlt : x.toNat < 2 ^ w := x.isLt
  cases w with
  | zero => simp [signed, BitVec.of_length_zero]
  | succ w =>
    have half : x.toNat < 2 ^ w ↔ 2 * x.toNat < 2 ^ (w + 1) := by omega
    simp only [signed, Nat.mod_eq_of_lt hlt, BitVec.toInt_eq_toNat_cond, Nat.add_sub_cancel, half]

/-- The code of a format of eight-bit codes is its byte's two's complement. -/
theorem rawCode_byte {f i : Nat} {bs : List Byte} {b : Byte} (h6 : f ≠ 1) (h4 : f ≠ 2) (h : bs[i]? = some b) :
    rawCode f bs i = b.toInt := by
  rw [rawCode, if_neg h6, if_neg h4, leAt_one h, signed_toNat]

/-- A TS8 code is read no lower than -127 (R158, R161). -/
theorem readCode_ts8 {i : Nat} {bs : List Byte} {b : Byte} (h : bs[i]? = some b) :
    readCode 3 bs i = max b.toInt (-127) := by
  simp [readCode, codeMax, rawCode_byte (f := 3) (by decide) (by decide) h]

/-- A K5 code is read as it is stored (R161). -/
theorem readCode_k5 {i : Nat} {bs : List Byte} {b : Byte} (h : bs[i]? = some b) : readCode 5 bs i = b.toInt := by
  simp [readCode, rawCode_byte (f := 5) (by decide) (by decide) h]

/-- An element of a format with a tensor header is its code times 2 to the tensor's shift. -/
theorem elemAt_header {f : Nat} (h : hasHeader f = true) (cols : Nat) (sh : Int) (bs : List Byte) (i : Nat) :
    elemAt f cols sh bs i = fpOfInt (readCode f bs i) sh := by
  have notBS : isBS f = false := by
    simp only [hasHeader, Bool.or_eq_true, beq_iff_eq] at h
    simp only [isBS, decide_eq_false_iff_not]
    omega
  simp [elemAt, notBS, h]

/-- Settles O36: a TS8 code is read as max(c, -127), a K5 code as it is stored. -/
theorem elementCodes : Obligations.ElementCodes := by
  unfold Obligations.ElementCodes
  intro cols i shift bytes b h
  rw [elemAt_header (f := 3) rfl, elemAt_header (f := 5) rfl, readCode_ts8 h, readCode_k5 h]
  refine ⟨fun inRange => ?_, fun least => ?_, rfl⟩
  · rw [max_eq_left inRange]; rfl
  · rw [least]; rfl

/-! ### The random bits -/

/-- A number kept to w bits before it is widened: a w-bit word widens to itself. -/
theorem ofNat_toNat_mod {w : Nat} (v : Nat) (x : BitVec w) : BitVec.ofNat v (x.toNat % 2 ^ w) = x.setWidth v := by
  rw [Nat.mod_eq_of_lt x.isLt, BitVec.ofNat_toNat]

/-- The top 16 bits of a 64-bit word fit in 16 bits. -/
theorem toNat_top16 (h : Dword) : (h >>> 48).toNat = ((h >>> 48).setWidth 16).toNat := by
  have := h.isLt
  rw [BitVec.toNat_setWidth, BitVec.toNat_ushiftRight, Nat.shiftRight_eq_div_pow]
  omega

/-- R178's random-bit function on a key of words of the spec's widths. -/
theorem rbits_of_words (seed : Dword) (domain : BitVec 8) (step row col pos : BitVec 32) (id : BitVec 16) :
    rbits seed domain.toNat step.toNat id.toNat row.toNat col.toNat pos.toNat =
      (mix64 (mix64 (mix64 (seed ^^^ (domain.setWidth 64 <<< 56) ^^^ (id.setWidth 64 <<< 32) ^^^ step.setWidth 64)
          ^^^ ((row.setWidth 64 <<< 32) ||| col.setWidth 64))
        ^^^ pos.setWidth 64 ^^^ 0x5851F42D4C957F2D#64) >>> 48).toNat := by
  have byte : BitVec.ofNat 64 (domain.toNat % 256) = domain.setWidth 64 := ofNat_toNat_mod 64 domain
  simp only [rbits, byte, ofNat_toNat_mod]

/-- A field's value fits its width. -/
theorem getF_lt (s : State) (f : Fld) : getF s f < 2 ^ f.w := Nat.mod_lt _ (Nat.two_pow_pos _)

/-- The job's seed is NUM_SEED_HI over NUM_SEED_LO: two 32-bit fields lose nothing in 64 bits. -/
theorem jobSeed_toNat (s : State) :
    (jobSeed s).toNat = getF s NUM_SEED_LO_seed + 2 ^ 32 * getF s NUM_SEED_HI_seed := by
  have lo : getF s NUM_SEED_LO_seed < 2 ^ 32 := getF_lt s NUM_SEED_LO_seed
  have hi : getF s NUM_SEED_HI_seed < 2 ^ 32 := getF_lt s NUM_SEED_HI_seed
  rw [jobSeed, BitVec.toNat_ofNat]
  omega

/-- Settles O37: rbits on a key of words is R178's chain of three mixes, its top 16 bits the result. -/
theorem randomBits : Obligations.RandomBits := by
  unfold Obligations.RandomBits
  refine ⟨fun seed domain step row col pos id => ?_, jobSeed_toNat⟩
  rw [rbits_of_words, toNat_top16]
  rfl

end Sys2Proof.Machine
end

section
/-! What every step keeps (00_scope, 04_registers_host, 15_steward_security): the relation between its two states, with a rule for
each shape in which the model composes operations, one lemma per operation in the order of the model's files, and the rows. -/

namespace Sys2Proof.Machine

theorem bitOf_eq_testBit (n i : Nat) : bitOf n i = n.testBit i := by
  rw [bitOf, Nat.shiftRight_eq_div_pow, Nat.testBit_eq_decide_div_mod_eq, beq_eq_decide]

/-- Fuses only burn: from f to g the anti-rollback counter has not fallen, and a revoked slot stays revoked (R363). -/
structure Tightens (f g : FuseSt) : Prop where
  counter : f.counter ≤ g.counter
  revoked : ∀ k, bitOf f.revoked k = true → bitOf g.revoked k = true

theorem Tightens.refl (f : FuseSt) : Tightens f f := ⟨Nat.le_refl _, fun _ h => h⟩

/-- From r to t the queue is as it was, a canonical register table is canonical still, and fuses have only burned. -/
structure Keeps (r t : State) : Prop where
  pending : t.pending = r.pending
  regs : r.regsWf = true → t.regsWf = true
  fuses : Tightens r.fuses t.fuses

theorem Keeps.refl (s : State) : Keeps s s := ⟨rfl, id, .refl _⟩

/-- What an instruction of the vector unit did keeps what Keeps says. -/
def KeepsOut (r : State) : VOut → Prop
  | .wait => True
  | .fault s _ _ => Keeps r s
  | .next s => Keeps r s
  | .jump s _ => Keeps r s
  | .done s _ => Keeps r s

section
variable {r s : State}

/-- Every field but the queue, the registers and the fuses is free. -/
theorem Keeps.frame {out freeCtr life cause pins flash ev host cmds laps lanes num mem cbz fab coll upd mil tim stw pac hot
    pulsed deviceTime} (h : Keeps r s) : Keeps r ⟨s.pending, out, freeCtr, life, cause, pins, s.fuses, flash, s.regs, ev, host,
      cmds, laps, lanes, num, mem, cbz, fab, coll, upd, mil, tim, stw, pac, hot, pulsed, deviceTime⟩ :=
  ⟨h.pending, h.regs, h.fuses⟩

/-- The state a function answers beside a value. -/
theorem Keeps.fst {α : Type} {p : State × α} {b : α} (h : Keeps r p.1) (e : p = (s, b)) : Keeps r s := by
  subst e; exact h

theorem Keeps.ite {c : Prop} [Decidable c] {s t : State} (hs : Keeps r s) (ht : Keeps r t) :
    Keeps r (if c then s else t) := by
  split
  · exact hs
  · exact ht

/-- A further operation, done where a condition holds. -/
theorem Keeps.when {c : Prop} [Decidable c] {t : State} (hs : Keeps r s) (ht : Keeps r s → Keeps r t) :
    Keeps r (if c then t else s) := .ite (ht hs) hs

/-- A further operation, done where a condition does not hold. -/
theorem Keeps.unless {c : Prop} [Decidable c] {t : State} (hs : Keeps r s) (ht : Keeps r s → Keeps r t) :
    Keeps r (if c then s else t) := .ite hs (ht hs)

theorem Keeps.foldl {β : Type} {g : State → β → State} {l : List β} (h : Keeps r s)
    (H : ∀ s a, Keeps r s → Keeps r (g s a)) : Keeps r (l.foldl g s) := by
  induction l generalizing s with
  | nil => exact h
  | cons a l ih => exact ih (H s a h)

theorem Keeps.foldlFst {α β : Type} {g : State × α → β → State × α} {p : State × α} {l : List β} (h : Keeps r p.1)
    (H : ∀ p a, Keeps r p.1 → Keeps r (g p a).1) : Keeps r (l.foldl g p).1 := by
  induction l generalizing p with
  | nil => exact h
  | cons a l ih => exact ih (H p a h)

theorem Keeps.setReg {a : Nat} {w : Word} (h : Keeps r s) : Keeps r (Machine.setReg s a w) :=
  ⟨h.pending, fun hr => setReg_regsWf (h.regs hr) a w, h.fuses⟩

theorem Keeps.resetPages {p : Nat → Bool} (h : Keeps r s) : Keeps r (Machine.resetPages s p) :=
  ⟨h.pending, fun hr => tableWf_filter _ (h.regs hr) _, h.fuses⟩

theorem Keeps.snd {α : Type} {p : α × State} {a : α} (h : Keeps r p.2) (e : p = (a, s)) : Keeps r s := by
  subst e; exact h

/-- Every fuse but the counter and the revoke fuses is free. -/
theorem Keeps.fuse {words physLane spares subUsed subLanes loadedLane loadedSub burnDue confirmDue keyHash debugHash serial seed
    vouched} (h : Keeps r s) : Keeps r { s with fuses := ⟨words, physLane, spares, subUsed, subLanes, loadedLane, loadedSub,
      burnDue, confirmDue, keyHash, s.fuses.revoked, s.fuses.counter, debugHash, serial, seed, vouched⟩ } :=
  ⟨h.pending, h.regs, ⟨h.fuses.counter, h.fuses.revoked⟩⟩

theorem Keeps.of_eq {t : State} (h : Keeps r t) (e : t = s) : Keeps r s := e ▸ h

theorem Keeps.iteFst {α : Type} {c : Prop} [Decidable c] {p q : State × α} (hp : Keeps r p.1) (hq : Keeps r q.1) :
    Keeps r (if c then p else q).1 := by
  split
  · exact hp
  · exact hq

theorem KeepsOut.of_eq {o o' : VOut} (h : KeepsOut r o) (e : o = o') : KeepsOut r o' := e ▸ h

theorem keepsOut_fault {st d : Nat} (h : KeepsOut r (.fault s st d)) : Keeps r s := h

theorem keepsOut_next (h : KeepsOut r (.next s)) : Keeps r s := h

theorem keepsOut_jump {pc : Nat} (h : KeepsOut r (.jump s pc)) : Keeps r s := h

theorem keepsOut_done {c : Nat} (h : KeepsOut r (.done s c)) : Keeps r s := h

/-! Sys2Proof/Machine/Ops.lean -/

theorem Keeps.setF {f : Fld} {v : Nat} (h : Keeps r s) : Keeps r (Machine.setF s f v) := h.setReg

theorem Keeps.satF {f : Fld} {k : Nat} (h : Keeps r s) : Keeps r (Machine.satF s f k) := h.setF

theorem Keeps.emit {o : Output} (h : Keeps r s) : Keeps r (Machine.emit s o) := h.frame

theorem Keeps.freshBytes {n : Nat} (h : Keeps r s) : Keeps r (Machine.freshBytes s n).2 := h.frame

theorem Keeps.setRingSt {n : Nat} {r1 : RingSt} (h : Keeps r s) : Keeps r (Machine.setRingSt s n r1) := h.frame

theorem Keeps.sendMsix {v : Nat} (h : Keeps r s) : Keeps r (Machine.sendMsix s v) := .ite h.frame h.emit

theorem Keeps.storeMsix {i : Nat} {w : Word} (h : Keeps r s) : Keeps r (Machine.storeMsix s i w) :=
  h.frame.when fun h1 => h1.frame.sendMsix

theorem Keeps.ringSignal {n : Nat} (h : Keeps r s) : Keeps r (Machine.ringSignal s n) := .ite h.setRingSt.sendMsix h

theorem Keeps.ringWrite {n : Nat} {rec : EventRec} (h : Keeps r s) : Keeps r (Machine.ringWrite s n rec) :=
  h.emit.emit.setF.setF.setRingSt.ringSignal

theorem Keeps.takeSeq (h : Keeps r s) : Keeps r (Machine.takeSeq s).2 := h.setF

theorem Keeps.markEvent {page code : Nat} (h : Keeps r s) : Keeps r (Machine.markEvent s page code) := h.setReg.satF

theorem Keeps.ringMarker {n : Nat} {e : Ev} {payload : List Nat} (h : Keeps r s) :
    Keeps r (Machine.ringMarker s n e payload) := by
  unfold Machine.ringMarker
  dsimp only
  exact h.markEvent.takeSeq.ringWrite

theorem Keeps.ringDrop {n : Nat} {rec : EventRec} (h : Keeps r s) : Keeps r (Machine.ringDrop s n rec) := h.setRingSt.satF

theorem Keeps.ringPut {n : Nat} {rec : EventRec} (h : Keeps r s) : Keeps r (Machine.ringPut s n rec) :=
  h.ringDrop.unless fun h1 => .ite h1.ringMarker h.ringWrite

theorem Keeps.holdPut {rec : EventRec} (h : Keeps r s) : Keeps r (Machine.holdPut s rec) := by
  unfold Machine.holdPut
  split
  · exact h.frame
  · split
    · dsimp only
      exact h.frame.markEvent.when fun h1 => h1.takeSeq.frame
    · exact h.frame

theorem Keeps.putRecord {page code sev : Nat} {payload : List Nat} (h : Keeps r s) :
    Keeps r (Machine.putRecord s page code sev payload) := by
  unfold Machine.putRecord
  split
  next e =>
    dsimp only
    split
    · exact (h.takeSeq.snd e).ringPut
    · exact (h.takeSeq.snd e).holdPut

theorem Keeps.logError {page code sev : Nat} {payload : List Nat} (h : Keeps r s) :
    Keeps r (Machine.logError s page code sev payload) :=
  h.setF.setF.setF.setF.setF.setF

theorem Keeps.raiseEv {page : Nat} {e : Ev} {payload : List Nat} (h : Keeps r s) : Keeps r (Machine.raiseEv s page e payload) :=
  (h.markEvent.when fun h1 => h1.logError).when fun h1 => h1.putRecord

theorem Keeps.freshTaps {n : Nat} (h : Keeps r s) : Keeps r (Machine.freshTaps s n) := h.frame

theorem Keeps.pathFailed {page who : Nat} {origin : Bool} (h : Keeps r s) : Keeps r (Machine.pathFailed s page who origin) :=
  h.satF.raiseEv

theorem Keeps.pathReplayed (h : Keeps r s) : Keeps r (Machine.pathReplayed s) := h.satF

theorem Keeps.stageWords {page who : Nat} {g : Stages} (h : Keeps r s) : Keeps r (Machine.stageWords s page who g).1 := by
  unfold Machine.stageWords
  dsimp only
  split
  · exact .ite h h.satF
  · exact .pathFailed (.ite h h.satF)

theorem Keeps.setBlk {page v : Nat} (h : Keeps r s) : Keeps r (Machine.setBlk s page v) := h.setF

theorem Keeps.blkFault {page code : Nat} (h : Keeps r s) : Keeps r (Machine.blkFault s page code) := h.setBlk.setF

theorem Keeps.plainWrite {a : Nat} {v : Word} (h : Keeps r s) : Keeps r (Machine.plainWrite s a v) := by
  unfold Machine.plainWrite
  split
  · exact h
  · exact h.satF.unless fun h1 => .setReg (.ite h1 h)

theorem Keeps.putCmd {e : CmdEntry} (h : Keeps r s) : Keeps r (Machine.putCmd s e) := h.frame

theorem Keeps.dropCmd {q idx : Nat} (h : Keeps r s) : Keeps r (Machine.dropCmd s q idx) := h.frame

theorem Keeps.setLane {n : Nat} {l : LaneSt} (h : Keeps r s) : Keeps r (Machine.setLane s n l) := h.frame

theorem Keeps.onPage {page : Nat} {t : State} (h : Keeps r s) (h1 : Keeps r t) : Keeps r (Machine.onPage s page t) := .ite h1 h

/-! Sys2Proof/Machine/Txn.lean -/

theorem Keeps.setPort {n : Nat} {p : PortSt} (h : Keeps r s) : Keeps r (Machine.setPort s n p) := h.frame

theorem Keeps.sendFlit {n : Nat} {p : PortSt} {f : Flit} (h : Keeps r s) : Keeps r (Machine.sendFlit s n p f) := by
  unfold Machine.sendFlit
  split
  exact h.setPort.emit

theorem Keeps.pumpGo {a : Nat} {a1 : State} {a2 : Nat} (h : Keeps r a1) : Keeps r (Machine.pumpGo a a1 a2) := by
  induction a generalizing a1 a2 with
  | zero =>
    simp only [Machine.pumpGo]
    exact h
  | succ a ih =>
    simp only [Machine.pumpGo]
    split
    · exact h
    · split
      · exact h
      · exact h
      · split
        · exact h
        · exact ih h.sendFlit

theorem Keeps.pump {n : Nat} (h : Keeps r s) : Keeps r (Machine.pump s n) := h.pumpGo

theorem Keeps.sendNull {n : Nat} {nak : Bool} (h : Keeps r s) : Keeps r (Machine.sendNull s n nak) := by
  unfold Machine.sendNull
  dsimp only
  exact h.setPort.emit

theorem Keeps.enqueue {n : Nat} {fs : List Flit} (h : Keeps r s) : Keeps r (Machine.enqueue s n fs) := h.setPort.pump

theorem Keeps.sendCtl {n : Nat} {m : LinkMsg} (h : Keeps r s) : Keeps r (Machine.sendCtl s n m) := h.enqueue

theorem Keeps.reportLost {p : Packet} (h : Keeps r s) : Keeps r (Machine.reportLost s p) := h.satF.raiseEv

theorem Keeps.transmit {p : Packet} (h : Keeps r s) : Keeps r (Machine.transmit s p) := .ite h h.enqueue

theorem Keeps.sendReq {vc dst op addr length operand : Nat} {data : List Byte} {who : TxnFor} (h : Keeps r s) :
    Keeps r (Machine.sendReq s vc dst op addr length operand data who).1 := by
  unfold Machine.sendReq
  dsimp only
  split
  · exact h.reportLost
  · exact h.frame.setF.unless fun h1 => h1.transmit

theorem Keeps.respond {req : Packet} {status : Nat} {data : List Byte} (h : Keeps r s) :
    Keeps r (Machine.respond s req status data) := by
  unfold Machine.respond
  dsimp only
  split
  · exact h
  · exact h.transmit

theorem Keeps.routeDown {p : Packet} (h : Keeps r s) : Keeps r (Machine.routeDown s p) := .ite h h.respond

/-! Sys2Proof/Machine/Laps.lean -/

theorem Keeps.setLap {n v : Nat} (h : Keeps r s) : Keeps r (Machine.setLap s n v) := h.frame

theorem Keeps.latchAll (h : Keeps r s) : Keeps r (Machine.latchAll s) := h.frame

theorem Keeps.answerWatches (h : Keeps r s) : Keeps r (Machine.answerWatches s) := h.frame.foldl (fun _ _ h1 => h1.respond)

theorem Keeps.settleLaps (h : Keeps r s) : Keeps r (Machine.settleLaps s) := h.latchAll.answerWatches

theorem Keeps.failLap {n : Nat} (h : Keeps r s) : Keeps r (Machine.failLap s n) := .ite h h.frame.raiseEv

theorem Keeps.lapAdd {n v src : Nat} (h : Keeps r s) : Keeps r (Machine.lapAdd s n v src).1 :=
  .iteFst h (h.setLap.when fun h1 => h1.raiseEv).settleLaps

theorem Keeps.lapStore {n v : Nat} (h : Keeps r s) : Keeps r (Machine.lapStore s n v) := h.frame.setLap.settleLaps

theorem Keeps.hostLapAdd {v : Word} {counterFails : Bool} (h : Keeps r s) : Keeps r (Machine.hostLapAdd s v counterFails) := by
  unfold Machine.hostLapAdd
  dsimp only
  split
  next e => exact .fst (.lapAdd (.ite h.failLap h)) e
  · exact .satF (.ite h.failLap h)

/-! Sys2Proof/Machine/Tables.lean -/

theorem Keeps.setCbz {n : Nat} {t : CbzSlot} (h : Keeps r s) : Keeps r (Machine.setCbz s n t) := h.frame

theorem Keeps.freeOld {n : Nat} (h : Keeps r s) : Keeps r (Machine.freeOld s n) := h.setCbz.raiseEv

theorem Keeps.takeRef {n gen : Nat} (h : Keeps r s) : Keeps r (Machine.takeRef s n gen) := .ite h.setCbz (.ite h.setCbz h)

theorem Keeps.dropRef {n gen : Nat} (h : Keeps r s) : Keeps r (Machine.dropRef s n gen) :=
  .ite h.setCbz (.ite (h.setCbz.when fun h1 => h1.freeOld) h)

theorem Keeps.dropHeld {r1 : Option (Nat × Nat)} (h : Keeps r s) : Keeps r (Machine.dropHeld s r1) := by
  unfold Machine.dropHeld
  split
  · exact h.dropRef
  · exact h

theorem Keeps.denyTable {n : Nat} (h : Keeps r s) : Keeps r (Machine.denyTable s n) := h.satF

theorem Keeps.badCommit {n gen reason : Nat} (h : Keeps r s) : Keeps r (Machine.badCommit s n gen reason) := h.denyTable.raiseEv

theorem Keeps.tableCommit {n gen : Nat} (h : Keeps r s) : Keeps r (Machine.tableCommit s n gen) := by
  unfold Machine.tableCommit
  dsimp only
  split
  · exact h.badCommit
  · split
    · exact h.badCommit
    · exact .ite h.badCommit (.ite (h.setCbz.raiseEv.when fun h1 => h1.freeOld) h.setCbz.raiseEv)

theorem Keeps.tableRetire {n : Nat} (h : Keeps r s) : Keeps r (Machine.tableRetire s n) := .ite h.setCbz h.denyTable

theorem Keeps.tableLenWrite {n w : Nat} {v : Word} (h : Keeps r s) : Keeps r (Machine.tableLenWrite s n w v) :=
  .ite h.denyTable h.setCbz

theorem Keeps.tableCtrlWrite {n : Nat} {v : Word} (h : Keeps r s) : Keeps r (Machine.tableCtrlWrite s n v) :=
  .ite h.setF.denyTable (.ite h.setF.tableCommit (h.setF.when fun h1 => h1.tableRetire))

/-! Sys2Proof/Machine/Memory.lean -/

theorem Keeps.poke {a : Nat} {bs : List Byte} (h : Keeps r s) : Keeps r (Machine.poke s a bs) := h.frame

theorem Keeps.setTag {l : Nat} {right : Bool} {t : Option (List Nat)} (h : Keeps r s) : Keeps r (Machine.setTag s l right t) :=
  h.setLane

theorem Keeps.clearTags {arrays : List (Nat × Bool)} (h : Keeps r s) : Keeps r (Machine.clearTags s arrays) :=
  h.foldl (fun _ _ h1 => h1.setTag)

theorem Keeps.endCmd {q idx status detail : Nat} {result : List Byte} (h : Keeps r s) :
    Keeps r (Machine.endCmd s q idx status detail result) := by
  unfold Machine.endCmd
  split
  · exact h
  · exact .ite (.putCmd (.dropHeld (.ite h h.clearTags))) h

theorem Keeps.setInit {keys : List Nat} {ms : Nat} (h : Keeps r s) : Keeps r (Machine.setInit s keys ms) :=
  (h.frame.unless fun h1 => h1.setF).when fun h1 => h1.frame.setF.raiseEv

theorem Keeps.touchRegions {a n : Nat} (h : Keeps r s) : Keeps r (Machine.touchRegions s a n) := .ite h h.setInit

theorem Keeps.freshLines {a n : Nat} (h : Keeps r s) : Keeps r (Machine.freshLines s a n) := h.touchRegions.frame

theorem Keeps.leaveVec {l q idx status detail : Nat} (h : Keeps r s) : Keeps r (Machine.leaveVec s l q idx status detail) := by
  unfold Machine.leaveVec
  dsimp only
  split
  · exact h
  · split
    · exact .ite h.poke.freshLines h
    · exact .putCmd (.ite h.poke.freshLines h)

theorem Keeps.unplace {l q idx : Nat} (h : Keeps r s) : Keeps r (Machine.unplace s l q idx) := h.setLane

theorem Keeps.endPart {q idx l status detail : Nat} (h : Keeps r s) : Keeps r (Machine.endPart s q idx l status detail) := by
  unfold Machine.endPart
  dsimp only
  split
  · exact h.leaveVec
  · exact h.leaveVec.clearTags.putCmd.unplace

theorem Keeps.finishParts {q idx : Nat} {result : List Byte} (h : Keeps r s) :
    Keeps r (Machine.finishParts s q idx result) := by
  unfold Machine.finishParts
  split
  · exact h
  · split
    · split
      exact h.endCmd
    · exact h

theorem Keeps.repairLane {l : Nat} (h : Keeps r s) : Keeps r (Machine.repairLane s l) := by
  unfold Machine.repairLane
  split
  · exact h
  · split
    · exact h.frame
    · split
      · exact h
      · exact .ite h.fuse.raiseEv h.fuse

theorem Keeps.fenceLane {l : Nat} {own : Option (Nat × Nat)} (h : Keeps r s) : Keeps r (Machine.fenceLane s l own) :=
  .ite h (h.foldl (fun _ _ h1 => h1.endPart.finishParts)).setLane.raiseEv.repairLane

theorem Keeps.addCandidate {a : Nat} (h : Keeps r s) : Keeps r (Machine.addCandidate s a) := by
  unfold Machine.addCandidate
  split
  exact .ite h (.ite h.raiseEv h.frame.setF.setF)

theorem Keeps.failLine {line : Nat} {who : Requester} {own : Option (Nat × Nat)} (h : Keeps r s) :
    Keeps r (Machine.failLine s line who own) :=
  .ite h.satF.setF.setF.setF.raiseEv.fenceLane h.satF.setF.setF.setF.raiseEv.addCandidate

theorem Keeps.replayLine {line : Nat} (h : Keeps r s) : Keeps r (Machine.replayLine s line) :=
  .ite h.frame.satF.raiseEv h.frame.satF.raiseEv

theorem Keeps.meetHits {hits : List Hit} {touches : Nat → Bool} (h : Keeps r s) : Keeps r (Machine.meetHits s hits touches) :=
  (h.foldl (fun _ _ h1 => h1.replayLine)).frame

theorem Keeps.memRead {hits : List Hit} {a n : Nat} {who : Requester} {own : Option (Nat × Nat)} (h : Keeps r s) :
    Keeps r (Machine.memRead s hits a n who own).1 := by
  unfold Machine.memRead
  dsimp only
  split
  · exact h.meetHits.failLine
  · exact h.meetHits

theorem Keeps.memWrite {hits : List Hit} {a : Nat} {bs : List Byte} {who : Requester} {own : Option (Nat × Nat)} (h : Keeps r s)
    :
    Keeps r (Machine.memWrite s hits a bs who own).1 := by
  unfold Machine.memWrite
  dsimp only
  split
  · exact h.meetHits.failLine
  · exact h.meetHits.poke.freshLines

theorem Keeps.scramble {a n : Nat} (h : Keeps r s) : Keeps r (Machine.scramble s a n) := by
  unfold Machine.scramble
  split
  · split
    next e => exact (h.freshBytes.snd e).poke
  · exact h

theorem Keeps.scrambleAll {rs : List (Nat × Nat)} (h : Keeps r s) : Keeps r (Machine.scrambleAll s rs) :=
  h.foldl (fun _ _ h1 => h1.scramble)

/-! Sys2Proof/Machine/Cmd.lean -/

theorem Keeps.issueCmd {q : Nat} {bytes : List Byte} (h : Keeps r s) : Keeps r (Machine.issueCmd s q bytes) :=
  h.frame.setF.setF.latchAll.unless fun h1 => h1.endCmd

theorem Keeps.failFetch {q : Nat} (h : Keeps r s) : Keeps r (Machine.failFetch s q) := h.blkFault.raiseEv

theorem Keeps.fetchCmd {q : Nat} {fetched : Option (List Byte)} (h : Keeps r s) : Keeps r (Machine.fetchCmd s q fetched) := by
  unfold Machine.fetchCmd
  split
  · exact h
  · split
    · exact h.failFetch
    · split
      · exact h.issueCmd
      · dsimp only
        split
        · exact h.failFetch
        · split
          next e => exact (h.memRead.fst e).issueCmd
          next e => exact (h.memRead.fst e).failFetch

theorem Keeps.doorbell {q : Nat} {v : Word} (h : Keeps r s) : Keeps r (Machine.doorbell s q v) := .ite h.satF.raiseEv h.setF

theorem Keeps.takeSlot {q : Nat} (h : Keeps r s) : Keeps r (Machine.takeSlot s q) := h.frame

theorem Keeps.dropWatches {q idx : Nat} (h : Keeps r s) : Keeps r (Machine.dropWatches s q idx) := h.frame

theorem Keeps.endWaiting {e : CmdEntry} {status detail : Nat} (h : Keeps r s) :
    Keeps r (Machine.endWaiting s e status detail) :=
  h.endCmd.dropWatches

theorem Keeps.sendWatch {e : CmdEntry} {w : Nat} (h : Keeps r s) : Keeps r (Machine.sendWatch s e w).1 := by
  unfold Machine.sendWatch
  dsimp only
  split
  · split
    · split
      · split
        · exact h
        · split
          next e1 =>
            split
            · exact (h.sendReq.fst e1).putCmd
            · exact h.sendReq.fst e1
          next e1 => exact (h.sendReq.fst e1).endWaiting
      · exact h
    · exact h
  · split
    · split
      · split
        · exact h
        · split
          next e1 =>
            split
            · exact (h.sendReq.fst e1).putCmd
            · exact h.sendReq.fst e1
          next e1 => exact (h.sendReq.fst e1).endWaiting
      · exact h
    · exact h

theorem Keeps.failEntries {sur : Surround} (h : Keeps r s) : Keeps r (Machine.failEntries s sur) :=
  (h.foldl (fun _ _ h1 => .ite h1 h1.frame.raiseEv)).foldl (fun _ _ h1 => .ite h1 h1.frame.raiseEv)

theorem Keeps.admitCmd {e : CmdEntry} {tableFails : Bool} (h : Keeps r s) : Keeps r (Machine.admitCmd s e tableFails).1 := by
  unfold Machine.admitCmd
  split
  · exact h
  · split
    · exact h.endWaiting
    · split
      · exact h
      · split
        · exact h.endWaiting
        · split
          next e1 => exact h.sendWatch.fst e1
          next e1 =>
            split
            next e2 => exact (h.sendWatch.fst e1).sendWatch.fst e2
            next e2 =>
              dsimp only
              split
              · exact (h.sendWatch.fst e1).sendWatch.fst e2
              · split
                · exact ((h.sendWatch.fst e1).sendWatch.fst e2).endWaiting
                · split
                  · exact (h.sendWatch.fst e1).sendWatch.fst e2
                  · split
                    · exact ((h.sendWatch.fst e1).sendWatch.fst e2).endWaiting
                    · exact (h.sendWatch.fst e1).sendWatch.fst e2

theorem Keeps.onDispatch {q idx : Nat} {ok : CmdEntry → Bool} {sur : Surround} {body : State → CmdEntry → State} (h : Keeps r s)
    (H : ∀ s0 x1, Keeps r s0 → Keeps r (body s0 x1)) :
    Keeps r (Machine.onDispatch s q idx ok sur body) := by
  unfold Machine.onDispatch
  split
  · exact h
  · split
    · exact h
    · split
      next e => exact (H _ _ (h.failEntries.admitCmd.fst e)).takeSlot
      next e => exact h.failEntries.admitCmd.fst e

theorem Keeps.onStages {page : Nat} {sur : Surround} {body : State → CmdEntry → State} {e : CmdEntry} (h : Keeps r s) (H : ∀ s0
    x1, Keeps r s0 → Keeps r (body s0 x1)) :
    Keeps r (Machine.onStages page sur body s e) := by
  unfold Machine.onStages
  split
  next e1 => exact H _ _ (h.stageWords.fst e1)
  next e1 => exact (h.stageWords.fst e1).endCmd

theorem Keeps.placeCmd {e : CmdEntry} (h : Keeps r s) : Keeps r (Machine.placeCmd s e) :=
  h.putCmd.foldl (fun _ _ h1 => h1.setLane)

theorem Keeps.onLanes {q idx : Nat} {ok : CmdEntry → Bool} {sur : Surround} {body : State → CmdEntry → State} (h : Keeps r s) (H
    : ∀ s0 x1, Keeps r s0 → Keeps r (body s0 x1)) :
    Keeps r (Machine.onLanes s q idx ok sur body) := by
  unfold Machine.onLanes
  dsimp only
  split
  · exact h.onDispatch (fun _ _ h1 => h1.placeCmd)
  · exact (h.onDispatch (fun _ _ h1 => h1.placeCmd)).when fun h1 => H _ _ h1.putCmd

theorem Keeps.endAllParts {q idx status detail : Nat} {result : List Byte} (h : Keeps r s) :
    Keeps r (Machine.endAllParts s q idx status detail result) := by
  unfold Machine.endAllParts
  split
  · exact h
  · exact (h.foldl (fun _ _ h1 => .ite h1 h1.endPart)).finishParts

theorem Keeps.endSync {st d : Nat} {e : CmdEntry} (h : Keeps r s) : Keeps r (Machine.endSync st d s e) := h.endCmd

theorem Keeps.stopCmd {q idx status detail : Nat} {result : List Byte} (h : Keeps r s) :
    Keeps r (Machine.stopCmd s q idx status detail result) := by
  unfold Machine.stopCmd
  split
  · exact h
  · exact (h.foldl (fun _ _ h1 => h1.leaveVec.unplace)).endCmd.dropWatches

theorem Keeps.hurdleHold (h : Keeps r s) : Keeps r (Machine.hurdleHold s) := h.foldl (fun _ _ h1 => .ite h1.setBlk h1)

theorem Keeps.hurdleRelease (h : Keeps r s) : Keeps r (Machine.hurdleRelease s) := h.foldl (fun _ _ h1 => .ite h1.setBlk h1)

theorem Keeps.dropHurdle {q idx : Nat} (h : Keeps r s) : Keeps r (Machine.dropHurdle s q idx) :=
  .ite h.frame.setF.hurdleRelease h

/-! Sys2Proof/Machine/Profile.lean -/

theorem Keeps.settlePace (h : Keeps r s) : Keeps r (Machine.settlePace s) := h.foldl (fun _ _ h1 => h1.setF)

theorem Keeps.setPace {f : Nat → Fld} {v : Nat} (h : Keeps r s) : Keeps r (Machine.setPace s f v) :=
  (h.foldl (fun _ _ h1 => h1.setF)).settlePace

theorem Keeps.writeUserCal {page : Nat} {bytes : List Byte} (h : Keeps r s) : Keeps r (Machine.writeUserCal s page bytes) := by
  unfold Machine.writeUserCal
  refine h.foldl ?_
  intro s1 a h1
  dsimp only
  split
  · exact h1
  · exact h1.setReg

theorem Keeps.applyEventDefaults (h : Keeps r s) : Keeps r (Machine.applyEventDefaults s) :=
  h.foldl (fun _ _ h1 => .ite h1 h1.setF.setF.setF)

theorem Keeps.applyUserCal {p : Prof} (h : Keeps r s) : Keeps r (Machine.applyUserCal s p) :=
  (h.foldl (fun _ _ h1 => h1.writeUserCal)).foldl (fun _ _ h1 => h1.writeUserCal)

theorem Keeps.applyTimSrc {src dom : Nat} (h : Keeps r s) : Keeps r (Machine.applyTimSrc s src dom) :=
  h.setF.setF.when fun h1 => h1.frame.setF.setF

theorem Keeps.applyProfile {p : Prof} {keepCal : Bool} (h : Keeps r s) : Keeps r (Machine.applyProfile s p keepCal) :=
  .setPace (.setF (.applyEventDefaults (.frame (.setF (.setF (.applyTimSrc (.setReg (.setReg (.setF (.setF (.setF (.foldl (.ite
      h h.applyUserCal) (fun _ _ h1 => h1.setReg)))))))))))))

/-! Sys2Proof/Machine/Power.lean -/

theorem Keeps.whileRunning {t : State} (h : Keeps r s) (h1 : Keeps r t) : Keeps r (Machine.whileRunning s t) := .ite h1 h

theorem Keeps.driveKeeper {axisY level : Bool} (h : Keeps r s) : Keeps r (Machine.driveKeeper s axisY level) :=
  .ite h h.setF.satF

theorem Keeps.releaseKeepers (h : Keeps r s) : Keeps r (Machine.releaseKeepers s) := h.driveKeeper.driveKeeper

theorem Keeps.freshState {cause : Cause} {strap : Word} (h : Keeps r s) : Keeps r (Machine.freshState s cause strap) :=
  ⟨h.pending, fun _ => tableWf_tset _ (tableWf_tset _ rfl _ _) _ _, h.fuses⟩

theorem Keeps.setLock {d : Nat} {on : Bool} (h : Keeps r s) : Keeps r (Machine.setLock s d on) := .ite h.setReg h.setReg

theorem Keeps.startBlocks (h : Keeps r s) : Keeps r (Machine.startBlocks s) := h.foldl (fun _ _ h1 => .ite h1.setBlk h1)

theorem Keeps.loadFuses (h : Keeps r s) : Keeps r (Machine.loadFuses s) :=
  ((h.foldl (fun _ _ h1 => h1.setReg)).fuse.foldl (fun _ _ h1 => .ite h1 h1.setLock)).setF.setF.setF.setF.startBlocks

theorem Keeps.bootStart {cause : Cause} {strap : Word} (h : Keeps r s) : Keeps r (Machine.bootStart s cause strap) :=
  (h.freshState.setF.setF.unless fun h1 => h1.raiseEv).when fun h1 => h1.loadFuses

theorem Keeps.powerOn {straps : BitVec 18} {bladeA bladeB : Nat} {sysRef netRef : Bool} (h : Keeps r s) :
    Keeps r (Machine.powerOn s straps bladeA bladeB sysRef netRef) :=
  .ite (.ite h.frame.setReg.frame (.ite h.frame.bootStart h.frame.freshState.frame)) h

theorem Keeps.supplyStop {bladeB : Bool} {millivolts : Nat} (h : Keeps r s) :
    Keeps r (Machine.supplyStop s bladeB millivolts) := by
  unfold Machine.supplyStop
  split
  · exact ⟨h.pending, fun _ => rfl, h.fuses⟩
  · exact h

theorem Keeps.modRstFall (h : Keeps r s) : Keeps r (Machine.modRstFall s) := by
  unfold Machine.modRstFall
  dsimp only
  split
  · exact h.frame
  · exact h.frame
  · exact h.frame.releaseKeepers.frame

theorem Keeps.moduleReset {straps : BitVec 18} (h : Keeps r s) : Keeps r (Machine.moduleReset s straps) := by
  unfold Machine.moduleReset
  split
  · exact h
  · dsimp only
    split
    · exact h.frame.bootStart
    · exact h.frame.setReg.frame
    · exact h.frame

theorem Keeps.thermalShutdown {die : Nat} {celsius : Int} (h : Keeps r s) : Keeps r (Machine.thermalShutdown s die celsius) :=
  .ite ((h.raiseEv.when fun h1 => h1.raiseEv).when fun h1 => h1.raiseEv).releaseKeepers.frame h

theorem Keeps.thermalRestart {junctions : List Int} (h : Keeps r s) : Keeps r (Machine.thermalRestart s junctions) :=
  .ite h.bootStart h

theorem Keeps.settleAlert (h : Keeps r s) : Keeps r (Machine.settleAlert s) := h.frame

theorem Keeps.coolantRise {inlet outlet : Int} (h : Keeps r s) : Keeps r (Machine.coolantRise s inlet outlet) :=
  .ite h.frame.raiseEv.settleAlert h

theorem Keeps.supplyLow {bladeB : Bool} {steps : Nat} (h : Keeps r s) : Keeps r (Machine.supplyLow s bladeB steps) :=
  .ite h.frame.setF.setF.raiseEv.settleAlert h

theorem Keeps.rootPllRetry {locks : Bool} (h : Keeps r s) : Keeps r (Machine.rootPllRetry s locks) := .ite h.frame.loadFuses h

theorem Keeps.loseRef {d : Nat} (h : Keeps r s) : Keeps r (Machine.loseRef s d) := .ite h.frame.setF (.ite h h.frame.setF)

theorem Keeps.clockUnlock {d : Nat} {refLost : Bool} (h : Keeps r s) : Keeps r (Machine.clockUnlock s d refLost) :=
  .ite (.raiseEv (.satF (.setLock (.ite h.loseRef h)))) h

theorem Keeps.clockDomainRelock {d : Nat} (h : Keeps r s) : Keeps r (Machine.clockDomainRelock s d) :=
  .ite (.ite h.setLock.frame.setF (h.setLock.unless fun h1 => h1.frame.setF)) h

theorem Keeps.perstAssert (h : Keeps r s) : Keeps r (Machine.perstAssert s) := .ite h.frame.satF.setF.setF.setF.frame h

theorem Keeps.closeExperts (h : Keeps r s) : Keeps r (Machine.closeExperts s) := h.foldl (fun _ _ h1 => h1.setF)

theorem Keeps.abandonCmds (h : Keeps r s) : Keeps r (Machine.abandonCmds s) :=
  (h.foldl (fun _ _ h1 => h1.dropWatches)).hurdleRelease.frame.frame.setF

theorem Keeps.flrPages (h : Keeps r s) : Keeps r (Machine.flrPages s) := h.resetPages.setF.setBlk.setBlk

/-! Sys2Proof/Machine/Events.lean -/

theorem Keeps.eventClear {page : Nat} {bits : Word} {occ : List (Nat × Nat × List Nat)} (h : Keeps r s) :
    Keeps r (Machine.eventClear s page bits occ) :=
  h.setReg.foldl (fun _ _ h1 => h1.raiseEv)

theorem Keeps.injectBit {page b : Nat} (h : Keeps r s) : Keeps r (Machine.injectBit s page b) :=
  h.markEvent.when fun h1 => h1.putRecord

theorem Keeps.eventInject {page : Nat} {bits : Word} (h : Keeps r s) : Keeps r (Machine.eventInject s page bits) :=
  h.foldl (fun _ _ h1 => .ite h1.injectBit h1)

theorem Keeps.flushHold {n : Nat} (h : Keeps r s) : Keeps r (Machine.flushHold s n) := h.frame.foldl (fun _ _ h1 => h1.ringPut)

theorem Keeps.writeEvqCfg {n : Nat} {v : Word} (h : Keeps r s) : Keeps r (Machine.writeEvqCfg s n v) :=
  .when (.setF (.setF (.setF (.setF (.ite h.satF h.setF))))) fun h1 => h1.setF.setF.setF.setRingSt.flushHold

theorem Keeps.writeEvqHead {n : Nat} {v : Word} (h : Keeps r s) : Keeps r (Machine.writeEvqHead s n v) :=
  h.setF.setF.when fun h1 => h1.setRingSt.ringMarker

theorem Keeps.holdoffExpiry {n : Nat} (h : Keeps r s) : Keeps r (Machine.holdoffExpiry s n) := .ite h.setRingSt.sendMsix h

theorem Keeps.writeUnlock {page : Nat} {unlock : BitVec 16} (h : Keeps r s) : Keeps r (Machine.writeUnlock s page unlock) :=
  .ite h.setF (.ite h.setF h)

theorem Keeps.bar0Early {t : State} (h : Keeps r s) (h1 : Keeps r t) : Keeps r (Machine.bar0Early s t) := .ite h.emit h1

theorem Keeps.bar0BadAccess {off size : Nat} {write : Bool} (h : Keeps r s) :
    Keeps r (Machine.bar0BadAccess s off size write) :=
  .ite h.satF.raiseEv h

theorem Keeps.bar0UnmappedWrite {off : Nat} (h : Keeps r s) : Keeps r (Machine.bar0UnmappedWrite s off) := .ite h.satF.raiseEv h

/-! Sys2Proof/Machine/Ports.lean -/

theorem Keeps.settlePorts (h : Keeps r s) : Keeps r (Machine.settlePorts s) := .ite h.setF h

theorem Keeps.queuePort {n : Nat} (h : Keeps r s) : Keeps r (Machine.queuePort s n) := h.setPort.frame

theorem Keeps.knockStart (h : Keeps r s) : Keeps r (Machine.knockStart s) := by
  unfold Machine.knockStart
  split
  · exact h
  · exact .ite h.frame.setPort.setF.emit h

theorem Keeps.knockReceived {n : Nat} (h : Keeps r s) : Keeps r (Machine.knockReceived s n) := by
  unfold Machine.knockReceived
  split
  · exact h
  · dsimp only
    split
    · exact h.setPort.emit
    · exact h.emit
    · exact h.emit

theorem Keeps.knockReady {n : Nat} (h : Keeps r s) : Keeps r (Machine.knockReady s n) := .ite h.setPort h

theorem Keeps.backOff {n : Nat} {falseStart : Bool} (h : Keeps r s) : Keeps r (Machine.backOff s n falseStart) :=
  .ite h.setPort.satF h

theorem Keeps.backoffExpiry {n : Nat} (h : Keeps r s) : Keeps r (Machine.backoffExpiry s n) := .ite h.queuePort h

theorem Keeps.upBlock {page : Nat} (h : Keeps r s) : Keeps r (Machine.upBlock s page) := .ite h.setBlk h

theorem Keeps.downBlock {page : Nat} (h : Keeps r s) : Keeps r (Machine.downBlock s page) := .ite h.setBlk h

theorem Keeps.endPortReset {n : Nat} (h : Keeps r s) : Keeps r (Machine.endPortReset s n) := h.setF.setF

theorem Keeps.setInsert {axisY : Bool} {i : InsertSt} (h : Keeps r s) : Keeps r (Machine.setInsert s axisY i) := h.frame

theorem Keeps.insertDone {axisY : Bool} (h : Keeps r s) : Keeps r (Machine.insertDone s axisY) :=
  .ite (.ite h.setInsert.raiseEv h.setInsert.raiseEv) h

theorem Keeps.trainTimeout {n : Nat} (h : Keeps r s) : Keeps r (Machine.trainTimeout s n) :=
  .ite ((h.frame.setPort.when fun h1 => h1.endPortReset).setF.raiseEv.when fun h1 => h1.insertDone).settlePorts h

theorem Keeps.portTrained {n : Nat} (h : Keeps r s) : Keeps r (Machine.portTrained s n) :=
  .ite (h.setPort.setF.setF.freshTaps.upBlock.when fun h1 => h1.endPortReset.raiseEv).sendCtl.settlePorts h

theorem Keeps.linkIdentity {n dev farPort : Nat} (h : Keeps r s) : Keeps r (Machine.linkIdentity s n dev farPort) :=
  .ite h (.ite (h.setPort.setF.setF.setF.setF.setF.raiseEv.when fun h1 => h1.insertDone).pump h.setPort.setF.setF.setF.raiseEv)

theorem Keeps.loadIsolated (h : Keeps r s) : Keeps r (Machine.loadIsolated s) :=
  h.frame.setF.setF.setF.setF.setF.setF.setF.raiseEv

/-! Sys2Proof/Machine/Boot.lean -/

theorem Keeps.writeBoot {r1 : BootRec} (h : Keeps r s) : Keeps r (Machine.writeBoot s r1) := h.frame

theorem Keeps.bootFails (h : Keeps r s) : Keeps r (Machine.bootFails s) := h.frame.setF

theorem Keeps.loadProfile {prof3Bad : Bool} (h : Keeps r s) : Keeps r (Machine.loadProfile s prof3Bad) := by
  unfold Machine.loadProfile
  dsimp only
  split
  · exact .ite h.applyProfile.setF.setF.setF h.applyProfile.setF.setF
  · exact h.setF.setF.raiseEv.applyProfile.setF.setF.setF

theorem Keeps.comeUp {p : Nat} (h : Keeps r s) : Keeps r (Machine.comeUp s p) := .ite h (.ite h.setBlk (.ite h.setBlk h.setBlk))

theorem Keeps.bistLane {l : Nat} {f : Option BistFail} (h : Keeps r s) : Keeps r (Machine.bistLane s l f) := by
  unfold Machine.bistLane
  split
  · exact h.setF.raiseEv.fenceLane
  · exact h.setF.when fun h1 => h1.setLane

theorem Keeps.loadProcessors {facts : BootFacts} (h : Keeps r s) : Keeps r (Machine.loadProcessors s facts) :=
  (h.frame.foldl (fun _ _ h1 => h1.bistLane)).frame.foldl (fun _ _ h1 => h1.setPort)

theorem Keeps.showBoot {b fell : Bool} (h : Keeps r s) : Keeps r (Machine.showBoot s b fell) := h.setF.setF.setF.setF.setF.setF

theorem Keeps.confirmBurn {bank : Bool} (h : Keeps r s) : Keeps r (Machine.confirmBurn s bank) := by
  have hb : Keeps r { s with fuses := { s.fuses with
      counter := max s.fuses.counter (leAt (bankBytes s.flash bank) 7 1)
      revoked := s.fuses.revoked ||| (leAt (bankBytes s.flash bank) 8 1 % 16), confirmDue := none } } :=
    ⟨h.pending, h.regs, Nat.le_trans h.fuses.counter (Nat.le_max_left _ _), fun k hk => by
      have := h.fuses.revoked k hk
      simp only [bitOf_eq_testBit, Nat.testBit_lor] at this ⊢
      simp [this]⟩
  exact hb.setF.setF.raiseEv

theorem Keeps.completeBurns (h : Keeps r s) : Keeps r (Machine.completeBurns s) := by
  unfold Machine.completeBurns
  split
  · dsimp only
    split
    · exact (h.fuse.foldl (fun _ _ h1 => h1.repairLane)).confirmBurn
    · exact h.fuse.foldl (fun _ _ h1 => h1.repairLane)
  · exact h

theorem Keeps.showUpdate (h : Keeps r s) : Keeps r (Machine.showUpdate s) := h.setF.setF.setF

theorem Keeps.beginApply (h : Keeps r s) : Keeps r (Machine.beginApply s) := h.writeBoot.frame.showUpdate

theorem Keeps.maybeApply (h : Keeps r s) : Keeps r (Machine.maybeApply s) := .ite h.beginApply h.showUpdate

theorem Keeps.serveAgain (h : Keeps r s) : Keeps r (Machine.serveAgain s) := h.frame.setBlk.raiseEv

theorem Keeps.stewardReady {b fell : Bool} {facts : BootFacts} (h : Keeps r s) :
    Keeps r (Machine.stewardReady s b fell facts) :=
  .maybeApply (.loadProcessors (.frame (.foldl (.setF (.loadProfile (.when (.showBoot (.completeBurns (.frame (.ite h.serveAgain
      h)))) fun h1 => h1.raiseEv))) (fun _ _ h1 => h1.comeUp))))

theorem Keeps.stewardImageVerified {facts : BootFacts} (h : Keeps r s) : Keeps r (Machine.stewardImageVerified s facts) := by
  unfold Machine.stewardImageVerified
  split
  · exact h
  · dsimp only
    split
    · exact h.writeBoot.bootFails
    · exact .ite h.writeBoot.writeBoot.bootStart h.writeBoot.stewardReady

theorem Keeps.pcieLinkUp {gen width : Nat} {flitMode : Bool} (h : Keeps r s) :
    Keeps r (Machine.pcieLinkUp s gen width flitMode) :=
  .ite h.frame.setF.setF.setF h

theorem Keeps.pcieConfigRequest (h : Keeps r s) : Keeps r (Machine.pcieConfigRequest s) :=
  .ite h (h.emit.unless fun h1 => .ite h1 (.ite h1 h.emit))

/-! Sys2Proof/Machine/MilTable.lean -/

theorem Keeps.readMilTable {hits : List Hit} {epoch : Nat} {own : Option (Nat × Nat)} (h : Keeps r s) :
    Keeps r (Machine.readMilTable s hits epoch own).1 := by
  unfold Machine.readMilTable
  dsimp only
  split
  · exact h
  · split
    · exact h
    · split
      next e => exact h.memRead.fst e
      next e =>
        split
        · exact h.memRead.fst e
        · split
          next e1 => exact (h.memRead.fst e).memRead.fst e1
          next e1 => exact (h.memRead.fst e).memRead.fst e1

theorem Keeps.installMilTable {b : Option (List Byte)} (h : Keeps r s) : Keeps r (Machine.installMilTable s b) := by
  unfold Machine.installMilTable
  split
  · exact h
  · exact h.frame.setF.setF.setF

/-! Sys2Proof/Machine/Frames.lean -/

theorem Keeps.setMilPort {n : Nat} {p : MilPort} (h : Keeps r s) : Keeps r (Machine.setMilPort s n p) := h.frame

theorem Keeps.closeGroup {n : Nat} (h : Keeps r s) : Keeps r (Machine.closeGroup s n) :=
  .ite h (h.foldl (fun _ _ h1 => h1.emit)).setMilPort

theorem Keeps.takePn {n : Nat} {a : Assoc} (h : Keeps r s) : Keeps r (Machine.takePn s n a) :=
  h.setMilPort.when fun h1 => h1.raiseEv

theorem Keeps.sendFrame {n : Nat} {p : Parcel} (h : Keeps r s) : Keeps r (Machine.sendFrame s n p) := by
  unfold Machine.sendFrame
  split
  · exact h
  · exact .ite h (h.emit.takePn.setMilPort.when fun h1 => h1.closeGroup)

theorem Keeps.takeWire {n : Nat} {w : Wire} {len : Nat} (h : Keeps r s) : Keeps r (Machine.takeWire s n w len).1 :=
  .iteFst h.satF.satF h.satF.satF.satF

theorem Keeps.dropSealed {n : Nat} (h : Keeps r s) : Keeps r (Machine.dropSealed s n) := h.satF

theorem Keeps.verifyFrame {n : Nat} {f : DataFrame} (h : Keeps r s) : Keeps r (Machine.verifyFrame s n f).1 := by
  unfold Machine.verifyFrame
  dsimp only
  split
  · exact h.dropSealed
  · exact .iteFst h.dropSealed (.iteFst h.satF h.setMilPort)

theorem Keeps.closeRx {n : Nat} {g : GroupRx} (h : Keeps r s) : Keeps r (Machine.closeRx s n g) := h.setMilPort

theorem Keeps.resolveGroups {n : Nat} {found : List DataFrame} (h : Keeps r s) :
    Keeps r (Machine.resolveGroups s n found).1 := by
  unfold Machine.resolveGroups
  refine h.foldlFst ?_
  intro p a h1
  split
  dsimp only
  split
  · exact h1.closeRx
  · split
    · refine h1.closeRx.satF.foldlFst ?_
      intro p a1 h2
      split
      next e => exact h2.verifyFrame.fst e
      next e => exact h2.verifyFrame.fst e
    · exact h1

theorem Keeps.receiveFrame {n : Nat} {f : DataFrame} {found : List DataFrame} (h : Keeps r s) :
    Keeps r (Machine.receiveFrame s n f found).1 := by
  unfold Machine.receiveFrame
  split
  · exact h
  · split
    next e => exact h.takeWire.fst e
    next e =>
      split
      next e1 => exact (h.takeWire.fst e).verifyFrame.fst e1
      next e1 =>
        dsimp only
        exact ((h.takeWire.fst e).verifyFrame.fst e1).setMilPort.resolveGroups

theorem Keeps.receiveRepair {n : Nat} {r1 : Repair} {found : List DataFrame} (h : Keeps r s) :
    Keeps r (Machine.receiveRepair s n r1 found).1 := by
  unfold Machine.receiveRepair
  split
  · exact h
  · split
    next e => exact h.takeWire.fst e
    next e => exact .iteFst (h.takeWire.fst e) (h.takeWire.fst e).setMilPort.resolveGroups

theorem Keeps.milLink {n : Nat} {up : Bool} (h : Keeps r s) : Keeps r (Machine.milLink s n up) :=
  .ite h (.raiseEv (.ite (h.setF.when fun h1 => h1.freshTaps).upBlock (h.setF.when fun h1 => h1.freshTaps).downBlock))

/-! Sys2Proof/Machine/Num.lean -/

theorem Keeps.denyJob (h : Keeps r s) : Keeps r (Machine.denyJob s) := h.satF

theorem Keeps.declareJob {v : Word} (h : Keeps r s) : Keeps r (Machine.declareJob s v) :=
  .ite h.denyJob (.ite h.setF.setF.setF.setF.raiseEv (h.setF.setF.setF.setF.unless fun h1 => h1.raiseEv))

theorem Keeps.setSlot {n : Nat} {r1 : SlotRec} (h : Keeps r s) : Keeps r (Machine.setSlot s n r1) := h.frame

theorem Keeps.onSlot {n : Nat} {f : SlotRec → SlotRec} (h : Keeps r s) : Keeps r (Machine.onSlot s n f) := .ite h.setSlot h

theorem Keeps.useSlot {n step : Nat} {t : State} (h : Keeps r s) (e : Machine.useSlot s n step = some t) : Keeps r t := by
  simp only [Machine.useSlot] at e
  split at e
  · cases e
  · split at e
    · cases e; exact h.setSlot
    · cases e; exact h

theorem Keeps.useSlotOr {n m step : Nat} {t : State} (h : Keeps r s)
    (e : (if n = m then some s else Machine.useSlot s n step) = some t) : Keeps r t := by
  split at e
  · cases e; exact h
  · exact h.useSlot e

theorem Keeps.useSlotGetD {n step : Nat} (h : Keeps r s) : Keeps r ((Machine.useSlot s n step).getD s) := by
  cases e : Machine.useSlot s n step with
  | none => exact h
  | some t => exact h.useSlot e

theorem Keeps.foldSlot {n : Nat} {a : Word} (h : Keeps r s) : Keeps r (Machine.foldSlot s n a) := h.onSlot

theorem Keeps.slotOvf {n step : Nat} (h : Keeps r s) : Keeps r (Machine.slotOvf s n step) := h.onSlot

theorem Keeps.slotSaturate {n step cmdId sats : Nat} (h : Keeps r s) : Keeps r (Machine.slotSaturate s n step cmdId sats) :=
  .ite h (h.setSlot.unless fun h1 => h1.satF.raiseEv)

theorem Keeps.chooseShift {n method fmt : Nat} (h : Keeps r s) : Keeps r (Machine.chooseShift s n method fmt).2 := by
  unfold Machine.chooseShift
  dsimp only
  split
  · exact h
  · exact h.setSlot

theorem Keeps.showBusy (h : Keeps r s) : Keeps r (Machine.showBusy s) := h.setF

theorem Keeps.commitSlot {w : SlotWait} (h : Keeps r s) : Keeps r (Machine.commitSlot s w) := .ite h.setSlot h.frame.showBusy

theorem Keeps.commitWaiting (h : Keeps r s) : Keeps r (Machine.commitWaiting s) :=
  (h.frame.foldl (fun _ _ h1 => h1.setSlot)).showBusy

theorem Keeps.selectSlot {v : Word} (h : Keeps r s) : Keeps r (Machine.selectSlot s v) := h.frame.setF

theorem Keeps.stageWord {w : Nat} {v : Word} (h : Keeps r s) : Keeps r (Machine.stageWord s w v) := h.frame

theorem Keeps.commitWindow {v : Word} (h : Keeps r s) : Keeps r (Machine.commitWindow s v) := h.stageWord.frame.commitSlot

/-! Sys2Proof/Machine/Convert.lean -/

theorem Keeps.readBlock {hits : List Hit} {e : CmdEntry} {n al : Nat} (h : Keeps r s) :
    Keeps r (Machine.readBlock s hits e n al).1 :=
  .iteFst h.memRead h

theorem Keeps.convRead {c : ConvOp} {e : CmdEntry} {hits : List Hit} {r1 : Nat} (h : Keeps r s) :
    Keeps r (Machine.convRead c e hits s r1).1 := by
  unfold Machine.convRead
  dsimp only
  split
  · exact h
  · split
    next e1 => exact h.memRead.fst e1
    next e1 => exact (h.memRead.fst e1).endPart

theorem Keeps.convRow {c : ConvOp} {e : CmdEntry} {hits : List Hit} {srcSh : Int} {sh : Option Int} {st : State × ConvAcc} {r1 :
    Nat} (h : Keeps r st.1) :
    Keeps r (Machine.convRow c e hits srcSh sh st r1).1 := by
  unfold Machine.convRow
  split
  next e1 => exact h.convRead.fst e1
  next e1 =>
    dsimp only
    split
    · exact h.convRead.fst e1
    · dsimp only
      split
      next e2 => exact (h.convRead.fst e1).memWrite.fst e2
      next e2 => exact ((h.convRead.fst e1).memWrite.fst e2).endPart

theorem Keeps.convUnwritten {c : ConvOp} {written : List Nat} (h : Keeps r s) : Keeps r (Machine.convUnwritten c s written) :=
  .ite h h.scrambleAll

theorem Keeps.measureRow {c : ConvOp} {e : CmdEntry} {hits : List Hit} {srcSh : Int} {st : State × Fp} {r1 : Nat} (h : Keeps r
    st.1) :
    Keeps r (Machine.measureRow c e hits srcSh st r1).1 := by
  unfold Machine.measureRow
  split
  next e1 => exact h.convRead.fst e1
  next e1 => exact h.convRead.fst e1

theorem Keeps.loseParts {e : CmdEntry} {hits : List LaneHit} (h : Keeps r s) : Keeps r (Machine.loseParts s e hits) :=
  h.foldl (fun _ _ h1 => .ite h1.pathReplayed (.ite h1.pathFailed.endPart h1))

theorem Keeps.convShift {c : ConvOp} {e : CmdEntry} {hits : List Hit} {srcSh : Int} (h : Keeps r s) :
    Keeps r (Machine.convShift c e hits srcSh s).2.2 := by
  unfold Machine.convShift
  split
  · exact h
  · split
    · exact h
    · dsimp only
      exact .chooseShift (.ite (h.foldlFst (fun _ _ h1 => h1.measureRow)).foldSlot.raiseEv h)

theorem Keeps.convRun {c : ConvOp} {e : CmdEntry} {sur : Surround} {srcSh : Int} (h : Keeps r s) :
    Keeps r (Machine.convRun c e sur srcSh s) := by
  unfold Machine.convRun
  dsimp only
  refine .endAllParts (.when ?_ fun h1 => h1.convUnwritten)
  split
  · split
    · split
      · split
        · split
          · split
            · split
              next e1 =>
                exact (h.loseParts.convShift.foldlFst (fun _ _ h1 =>
                    h1.convRow)).foldSlot.slotOvf.slotSaturate.raiseEv.memWrite.fst e1
              next e1 =>
                exact ((h.loseParts.convShift.foldlFst (fun _ _ h1 =>
                    h1.convRow)).foldSlot.slotOvf.slotSaturate.raiseEv.memWrite.fst e1).endPart
            · exact (h.loseParts.convShift.foldlFst (fun _ _ h1 => h1.convRow)).foldSlot.slotOvf.slotSaturate.raiseEv
          · split
            · split
              next e1 =>
                exact (h.loseParts.convShift.foldlFst (fun _ _ h1 => h1.convRow)).foldSlot.slotSaturate.raiseEv.memWrite.fst e1
              next e1 =>
                exact ((h.loseParts.convShift.foldlFst (fun _ _ h1 => h1.convRow)).foldSlot.slotSaturate.raiseEv.memWrite.fst
                    e1).endPart
            · exact (h.loseParts.convShift.foldlFst (fun _ _ h1 => h1.convRow)).foldSlot.slotSaturate.raiseEv
        · split
          · split
            · split
              next e1 =>
                exact (h.loseParts.convShift.foldlFst (fun _ _ h1 => h1.convRow)).foldSlot.slotOvf.raiseEv.memWrite.fst e1
              next e1 =>
                exact ((h.loseParts.convShift.foldlFst (fun _ _ h1 => h1.convRow)).foldSlot.slotOvf.raiseEv.memWrite.fst
                    e1).endPart
            · exact (h.loseParts.convShift.foldlFst (fun _ _ h1 => h1.convRow)).foldSlot.slotOvf.raiseEv
          · split
            · split
              next e1 => exact (h.loseParts.convShift.foldlFst (fun _ _ h1 => h1.convRow)).foldSlot.raiseEv.memWrite.fst e1
              next e1 =>
                exact ((h.loseParts.convShift.foldlFst (fun _ _ h1 => h1.convRow)).foldSlot.raiseEv.memWrite.fst e1).endPart
            · exact (h.loseParts.convShift.foldlFst (fun _ _ h1 => h1.convRow)).foldSlot.raiseEv
      · split
        · split
          next e1 => exact (h.loseParts.convShift.foldlFst (fun _ _ h1 => h1.convRow)).raiseEv.memWrite.fst e1
          next e1 => exact ((h.loseParts.convShift.foldlFst (fun _ _ h1 => h1.convRow)).raiseEv.memWrite.fst e1).endPart
        · exact (h.loseParts.convShift.foldlFst (fun _ _ h1 => h1.convRow)).raiseEv
    · split
      · split
        · split
          · split
            · split
              next e1 =>
                exact (h.loseParts.convShift.foldlFst (fun _ _ h1 => h1.convRow)).foldSlot.slotOvf.slotSaturate.memWrite.fst e1
              next e1 =>
                exact ((h.loseParts.convShift.foldlFst (fun _ _ h1 => h1.convRow)).foldSlot.slotOvf.slotSaturate.memWrite.fst
                    e1).endPart
            · exact (h.loseParts.convShift.foldlFst (fun _ _ h1 => h1.convRow)).foldSlot.slotOvf.slotSaturate
          · split
            · split
              next e1 => exact (h.loseParts.convShift.foldlFst (fun _ _ h1 => h1.convRow)).foldSlot.slotSaturate.memWrite.fst e1
              next e1 =>
                exact ((h.loseParts.convShift.foldlFst (fun _ _ h1 => h1.convRow)).foldSlot.slotSaturate.memWrite.fst
                    e1).endPart
            · exact (h.loseParts.convShift.foldlFst (fun _ _ h1 => h1.convRow)).foldSlot.slotSaturate
        · split
          · split
            · split
              next e1 => exact (h.loseParts.convShift.foldlFst (fun _ _ h1 => h1.convRow)).foldSlot.slotOvf.memWrite.fst e1
              next e1 =>
                exact ((h.loseParts.convShift.foldlFst (fun _ _ h1 => h1.convRow)).foldSlot.slotOvf.memWrite.fst e1).endPart
            · exact (h.loseParts.convShift.foldlFst (fun _ _ h1 => h1.convRow)).foldSlot.slotOvf
          · split
            · split
              next e1 => exact (h.loseParts.convShift.foldlFst (fun _ _ h1 => h1.convRow)).foldSlot.memWrite.fst e1
              next e1 => exact ((h.loseParts.convShift.foldlFst (fun _ _ h1 => h1.convRow)).foldSlot.memWrite.fst e1).endPart
            · exact (h.loseParts.convShift.foldlFst (fun _ _ h1 => h1.convRow)).foldSlot
      · split
        · split
          next e1 => exact (h.loseParts.convShift.foldlFst (fun _ _ h1 => h1.convRow)).memWrite.fst e1
          next e1 => exact ((h.loseParts.convShift.foldlFst (fun _ _ h1 => h1.convRow)).memWrite.fst e1).endPart
        · exact h.loseParts.convShift.foldlFst (fun _ _ h1 => h1.convRow)
  · split
    · split
      · split
        · split
          · split
            · split
              next e1 =>
                exact (h.loseParts.convShift.foldlFst (fun _ _ h1 =>
                    h1.convRow)).foldSlot.slotOvf.slotSaturate.raiseEv.memWrite.fst e1
              next e1 =>
                exact ((h.loseParts.convShift.foldlFst (fun _ _ h1 =>
                    h1.convRow)).foldSlot.slotOvf.slotSaturate.raiseEv.memWrite.fst e1).endPart
            · exact (h.loseParts.convShift.foldlFst (fun _ _ h1 => h1.convRow)).foldSlot.slotOvf.slotSaturate.raiseEv
          · split
            · split
              next e1 =>
                exact (h.loseParts.convShift.foldlFst (fun _ _ h1 => h1.convRow)).foldSlot.slotSaturate.raiseEv.memWrite.fst e1
              next e1 =>
                exact ((h.loseParts.convShift.foldlFst (fun _ _ h1 => h1.convRow)).foldSlot.slotSaturate.raiseEv.memWrite.fst
                    e1).endPart
            · exact (h.loseParts.convShift.foldlFst (fun _ _ h1 => h1.convRow)).foldSlot.slotSaturate.raiseEv
        · split
          · split
            · split
              next e1 =>
                exact (h.loseParts.convShift.foldlFst (fun _ _ h1 => h1.convRow)).foldSlot.slotOvf.raiseEv.memWrite.fst e1
              next e1 =>
                exact ((h.loseParts.convShift.foldlFst (fun _ _ h1 => h1.convRow)).foldSlot.slotOvf.raiseEv.memWrite.fst
                    e1).endPart
            · exact (h.loseParts.convShift.foldlFst (fun _ _ h1 => h1.convRow)).foldSlot.slotOvf.raiseEv
          · split
            · split
              next e1 => exact (h.loseParts.convShift.foldlFst (fun _ _ h1 => h1.convRow)).foldSlot.raiseEv.memWrite.fst e1
              next e1 =>
                exact ((h.loseParts.convShift.foldlFst (fun _ _ h1 => h1.convRow)).foldSlot.raiseEv.memWrite.fst e1).endPart
            · exact (h.loseParts.convShift.foldlFst (fun _ _ h1 => h1.convRow)).foldSlot.raiseEv
      · split
        · split
          next e1 => exact (h.loseParts.convShift.foldlFst (fun _ _ h1 => h1.convRow)).raiseEv.memWrite.fst e1
          next e1 => exact ((h.loseParts.convShift.foldlFst (fun _ _ h1 => h1.convRow)).raiseEv.memWrite.fst e1).endPart
        · exact (h.loseParts.convShift.foldlFst (fun _ _ h1 => h1.convRow)).raiseEv
    · split
      · split
        · split
          · split
            · split
              next e1 =>
                exact (h.loseParts.convShift.foldlFst (fun _ _ h1 => h1.convRow)).foldSlot.slotOvf.slotSaturate.memWrite.fst e1
              next e1 =>
                exact ((h.loseParts.convShift.foldlFst (fun _ _ h1 => h1.convRow)).foldSlot.slotOvf.slotSaturate.memWrite.fst
                    e1).endPart
            · exact (h.loseParts.convShift.foldlFst (fun _ _ h1 => h1.convRow)).foldSlot.slotOvf.slotSaturate
          · split
            · split
              next e1 => exact (h.loseParts.convShift.foldlFst (fun _ _ h1 => h1.convRow)).foldSlot.slotSaturate.memWrite.fst e1
              next e1 =>
                exact ((h.loseParts.convShift.foldlFst (fun _ _ h1 => h1.convRow)).foldSlot.slotSaturate.memWrite.fst
                    e1).endPart
            · exact (h.loseParts.convShift.foldlFst (fun _ _ h1 => h1.convRow)).foldSlot.slotSaturate
        · split
          · split
            · split
              next e1 => exact (h.loseParts.convShift.foldlFst (fun _ _ h1 => h1.convRow)).foldSlot.slotOvf.memWrite.fst e1
              next e1 =>
                exact ((h.loseParts.convShift.foldlFst (fun _ _ h1 => h1.convRow)).foldSlot.slotOvf.memWrite.fst e1).endPart
            · exact (h.loseParts.convShift.foldlFst (fun _ _ h1 => h1.convRow)).foldSlot.slotOvf
          · split
            · split
              next e1 => exact (h.loseParts.convShift.foldlFst (fun _ _ h1 => h1.convRow)).foldSlot.memWrite.fst e1
              next e1 => exact ((h.loseParts.convShift.foldlFst (fun _ _ h1 => h1.convRow)).foldSlot.memWrite.fst e1).endPart
            · exact (h.loseParts.convShift.foldlFst (fun _ _ h1 => h1.convRow)).foldSlot
      · split
        · split
          next e1 => exact (h.loseParts.convShift.foldlFst (fun _ _ h1 => h1.convRow)).memWrite.fst e1
          next e1 => exact ((h.loseParts.convShift.foldlFst (fun _ _ h1 => h1.convRow)).memWrite.fst e1).endPart
        · exact h.loseParts.convShift.foldlFst (fun _ _ h1 => h1.convRow)

theorem Keeps.convBody {find : Bool} {sur : Surround} {e : CmdEntry} (h : Keeps r s) :
    Keeps r (Machine.convBody find sur s e) := by
  unfold Machine.convBody
  dsimp only
  split
  next e1 => exact (h.readBlock.fst e1).endAllParts
  next e1 =>
    have h1 := h.readBlock.fst e1
    split
    · exact h1.endAllParts
    · split
      next e2 => exact (Keeps.fst (.iteFst h1.memRead h1) e2).convUnwritten.endAllParts
      next e2 =>
        have h2 := Keeps.fst (.iteFst h1.memRead h1) e2
        split
        · exact h2.endAllParts
        · split
          · exact h2.endAllParts
          next e3 => exact (h2.useSlotOr e3).convRun

/-! Sys2Proof/Machine/Remote.lean -/

theorem Keeps.dropTxn {tag : Nat} (h : Keeps r s) : Keeps r (Machine.dropTxn s tag) := h.frame

theorem Keeps.loseTxn {t : Txn} (h : Keeps r s) : Keeps r (Machine.loseTxn s t) := h.dropTxn.frame.reportLost

theorem Keeps.remoteCall {answers : List Answer} {q idx vc dev op a len operand : Nat} {data : List Byte} (h : Keeps r s) :
    Keeps r (Machine.remoteCall s answers q idx vc dev op a len operand data).1 := by
  unfold Machine.remoteCall
  dsimp only
  split
  next e => exact h.sendReq.fst e
  next e =>
    split
    · exact (h.sendReq.fst e).dropTxn.when fun h1 => h1.satF
    · exact (h.sendReq.fst e).loseTxn
    · exact h.sendReq.fst e

theorem Keeps.remoteRead {answers : List Answer} {q idx vc dev a n : Nat} (h : Keeps r s) :
    Keeps r (Machine.remoteRead s answers q idx vc dev a n).1 := by
  unfold Machine.remoteRead
  refine h.foldlFst ?_
  intro p a1 h1
  split
  · exact h1
  · split
    next e => exact h1.remoteCall.fst e
    next e => exact h1.remoteCall.fst e

theorem Keeps.remoteWrite {answers : List Answer} {q idx vc dev a : Nat} {bs : List Byte} (h : Keeps r s) :
    Keeps r (Machine.remoteWrite s answers q idx vc dev a bs).1 := by
  unfold Machine.remoteWrite
  refine h.foldlFst ?_
  intro p a1 h1
  split
  · exact h1
  · split
    next e => exact h1.remoteCall.fst e
    next e => exact h1.remoteCall.fst e

theorem Keeps.anyRead {sur : Surround} {q idx vc : Nat} {who : Requester} {dev : Option Nat} {a n : Nat} (h : Keeps r s) :
    Keeps r (Machine.anyRead s sur q idx vc who dev a n).1 := by
  unfold Machine.anyRead
  split
  · exact h.remoteRead
  · split
    next e => exact h.memRead.fst e
    next e => exact h.memRead.fst e

theorem Keeps.anyWrite {sur : Surround} {q idx vc : Nat} {who : Requester} {dev : Option Nat} {a : Nat} {bs : List Byte} (h :
    Keeps r s) :
    Keeps r (Machine.anyWrite s sur q idx vc who dev a bs).1 := by
  unfold Machine.anyWrite
  split
  · exact h.remoteWrite
  · split
    next e => exact h.memWrite.fst e
    next e => exact h.memWrite.fst e

/-! Sys2Proof/Machine/Cabouz.lean -/

theorem Keeps.judgeBlock {addr cmdId : Nat} {head : List Byte} {firstFails failed : Option Nat} (h : Keeps r s) :
    Keeps r (Machine.judgeBlock s addr cmdId head firstFails failed) := by
  unfold Machine.judgeBlock
  split
  · exact h.satF
  · dsimp only
    split
    · exact h.satF.raiseEv.satF
    · exact h.satF.raiseEv.satF.setF.setF.setF.setF.setF.setF.setF.raiseEv

theorem Keeps.countEncoded {raw : Bool} (h : Keeps r s) : Keeps r (Machine.countEncoded s raw) := h.satF.when fun h1 => h1.satF

/-! Sys2Proof/Machine/Arrays.lean -/

theorem Keeps.readRows {l base pitch size : Nat} {own : Nat × Nat} {a : List Nat} (h : Keeps r s) :
    Keeps r (Machine.readRows s l base pitch size own a).1 := by
  induction a generalizing s l base pitch size own with
  | nil =>
    simp only [Machine.readRows]
    exact h
  | cons x a ih =>
    simp only [Machine.readRows]
    split
    next e => exact h.memRead.fst e
    next e =>
      split
      next e1 => exact (ih (h.memRead.fst e)).fst e1
      next e1 => exact (ih (h.memRead.fst e)).fst e1

theorem Keeps.setAcc {l : Nat} {right : Bool} {row col : Nat} {v : Word} (h : Keeps r s) :
    Keeps r (Machine.setAcc s l right row col v) :=
  h.setLane

theorem Keeps.wakeArray {l : Nat} {right : Bool} (h : Keeps r s) : Keeps r (Machine.wakeArray s l right) := h.setLane

theorem Keeps.fillShelf {l base m : Nat} {bytes : List Byte} (h : Keeps r s) : Keeps r (Machine.fillShelf s l base m bytes) :=
  h.setLane

theorem Keeps.fillRow {l : Nat} {mode : Mode} {base : Nat → Nat} {m : Nat} {v : Vec} (h : Keeps r s) :
    Keeps r (Machine.fillRow s l mode base m v) :=
  h.foldl (fun _ _ h1 => h1.fillShelf)

theorem Keeps.laneFault {e : CmdEntry} {l detail : Nat} {right : Bool} (h : Keeps r s) :
    Keeps r (Machine.laneFault s e l detail right) :=
  h.raiseEv.endPart

theorem Keeps.productHit {e : CmdEntry} {h1 : LaneHit} (h : Keeps r s) : Keeps r (Machine.productHit e s h1) := by
  unfold Machine.productHit
  split
  · exact h
  · split
    · exact h.raiseEv
    · exact h.raiseEv
    · exact h.laneFault
    · exact h.laneFault
    · exact h.laneFault
    · exact h.pathReplayed
    · exact h.pathFailed.endPart
    · exact h

/-! Sys2Proof/Machine/Matmul.lean -/

theorem Keeps.setLanding {n : Nat} {l : Landing} (h : Keeps r s) : Keeps r (Machine.setLanding s n l) := h.frame

theorem Keeps.readHeader {hits : List Hit} {l f a : Nat} {own : Nat × Nat} (h : Keeps r s) :
    Keeps r (Machine.readHeader s hits l f a own).1 := by
  unfold Machine.readHeader
  split
  · exact h
  · split
    next e => exact h.memRead.fst e
    next e => exact h.memRead.fst e

theorem Keeps.drainRow {l out drain addr : Nat} {own : Nat × Nat} {rnd : Nat → Rounding} {vals : List Word} {st : State × MmAcc}
    (h : Keeps r st.1) :
    Keeps r (Machine.drainRow l out drain addr own rnd vals st).1 := by
  unfold Machine.drainRow
  split
  dsimp only
  split
  next e => exact .fst (.iteFst h.memRead h) e
  next e =>
    split
    next e1 => exact .fst (.memWrite (.fst (.iteFst h.memRead h) e)) e1
    next e1 => exact .fst (.memWrite (.fst (.iteFst h.memRead h) e)) e1

theorem Keeps.mmRow {p : MmRun} {e : CmdEntry} {t m accRow j : Nat} {bs : List Vec} {st : State × MmAcc} {r1 : Nat} (h : Keeps r
    st.1) :
    Keeps r (Machine.mmRow p e t m accRow j bs st r1).1 := by
  unfold Machine.mmRow
  split
  dsimp only
  split
  · exact h
  · split
    next e1 => exact (h.memRead.fst e1).endPart
    next e1 =>
      split
      · exact (h.memRead.fst e1).fillRow.when fun h1 => h1.foldl (fun _ _ h2 => h2.setAcc)
      · split
        next e2 => exact ((h.memRead.fst e1).fillRow.when fun h1 => h1.foldl (fun _ _ h2 => h2.setAcc)).drainRow.fst e2
        next e2 =>
          exact (((h.memRead.fst e1).fillRow.when fun h1 => h1.foldl (fun _ _ h2 => h2.setAcc)).drainRow.fst e2).endPart

theorem Keeps.countTile {l loads rows : Nat} (h : Keeps r s) : Keeps r (Machine.countTile s l loads rows) := h.satF.satF

theorem Keeps.mmTile {p : MmRun} {e : CmdEntry} {st : State × MmAcc} {t : Nat} (h : Keeps r st.1) :
    Keeps r (Machine.mmTile p e st t).1 := by
  unfold Machine.mmTile
  split
  dsimp only
  split
  · exact h
  · split
    next e1 => exact (h.wakeArray.readRows.fst e1).endPart
    next e1 => exact (h.wakeArray.readRows.fst e1).countTile.foldlFst (fun _ _ h1 => h1.mmRow)

theorem Keeps.countBubbles {e : CmdEntry} {bs : List LaneBubbles} (h : Keeps r s) : Keeps r (Machine.countBubbles e s bs).1 :=
  h.foldlFst (fun _ _ h1 => .iteFst h1.satF.satF h1)

theorem Keeps.productMeets {e : CmdEntry} {sur : Surround} (h : Keeps r s) : Keeps r (Machine.productMeets e s sur).1 := by
  unfold Machine.productMeets
  split
  next e1 =>
    split
    next e2 => exact ((h.countBubbles.fst e1).foldlFst (fun _ _ h1 => h1.productHit)).fst e2

theorem Keeps.noteProduct {e : CmdEntry} {tiles : List Nat} {acc : MmAcc} {bubbles : Nat} {replayed : Bool} (h : Keeps r s) :
    Keeps r (Machine.noteProduct s e tiles acc bubbles replayed) := by
  unfold Machine.noteProduct
  split
  · exact h
  · exact h.putCmd

theorem Keeps.productSlot {slot step : Nat} {acc : MmAcc} (h : Keeps r s) : Keeps r (Machine.productSlot s slot step acc) :=
  .ite (h.foldSlot.when fun h1 => h1.slotOvf) h

theorem Keeps.mmTilesRun {p : MmRun} {e : CmdEntry} {sur : Surround} {ts : List Nat} (h : Keeps r s) :
    Keeps r (Machine.mmTilesRun p e sur ts s) :=
  .productSlot (.noteProduct (.foldlFst h.meetHits.productMeets fun _ _ h1 => h1.mmTile))

theorem Keeps.mmFinish {e : CmdEntry} {o : MmOp} (h : Keeps r s) : Keeps r (Machine.mmFinish e o s) :=
  .endAllParts (.when (.foldl (.ite h.scrambleAll h) (fun _ _ h1 => h1.setTag)) fun h1 => h1.setLanding)

theorem Keeps.stopProduct {e : CmdEntry} {status : Nat} {scr : Bool} (h : Keeps r s) :
    Keeps r (Machine.stopProduct s e status scr) :=
  .endAllParts (.ite h.scrambleAll h)

theorem Keeps.mmAdvance {p : MmRun} {e : CmdEntry} {sur : Surround} (h : Keeps r s) :
    Keeps r (Machine.mmAdvance p e sur s) := by
  unfold Machine.mmAdvance
  dsimp only
  split
  · exact h.putCmd.mmTilesRun
  · exact .ite h.putCmd.mmTilesRun.mmFinish (h.putCmd.mmTilesRun.when fun h1 => h1.stopProduct)

theorem Keeps.mmSetup {e : CmdEntry} {sur : Surround} (h : Keeps r s) : Keeps r (Machine.mmSetup s e sur).1 := by
  unfold Machine.mmSetup
  split
  next e1 => exact h.readBlock.fst e1
  next e1 =>
    dsimp only
    split
    · exact h.readBlock.fst e1
    · split
      next e2 => exact (h.readBlock.fst e1).readHeader.fst e2
      next e2 => exact (h.readBlock.fst e1).readHeader.fst e2
      next e2 =>
        split
        next e3 => exact ((h.readBlock.fst e1).readHeader.fst e2).readHeader.fst e3
        next e3 => exact ((h.readBlock.fst e1).readHeader.fst e2).readHeader.fst e3
        next e3 => exact ((h.readBlock.fst e1).readHeader.fst e2).readHeader.fst e3

theorem Keeps.mmBody {sur : Surround} {e : CmdEntry} (h : Keeps r s) : Keeps r (Machine.mmBody sur s e) := by
  unfold Machine.mmBody
  dsimp only
  split
  next e1 => exact (h.putCmd.mmSetup.fst e1).endAllParts
  next e1 =>
    have h1 := h.putCmd.mmSetup.fst e1
    split
    · exact h1.endAllParts
    next e2 =>
      split
      · exact h1.useSlotOr e2
      · exact (h1.useSlotOr e2).mmAdvance

theorem Keeps.fusedChunkReady {q idx : Nat} {sur : Surround} (h : Keeps r s) :
    Keeps r (Machine.fusedChunkReady s q idx sur) := by
  unfold Machine.fusedChunkReady
  split
  · exact h
  · exact .ite h.mmAdvance h

theorem Keeps.failLanding {n : Nat} (h : Keeps r s) : Keeps r (Machine.failLanding s n) :=
  h.setLanding.foldl (fun _ _ h1 => h1.stopProduct)

theorem Keeps.voidLandingChunk {n c : Nat} (h : Keeps r s) : Keeps r (Machine.voidLandingChunk s n c) :=
  (h.setLanding.foldl (fun _ _ h1 => h1.stopProduct)).foldl (fun _ _ h1 => h1.raiseEv)

theorem Keeps.endRunningOn {l status : Nat} (h : Keeps r s) : Keeps r (Machine.endRunningOn s l status) := by
  unfold Machine.endRunningOn
  refine h.foldl ?_
  intro s1 a h1
  split
  · exact .ite h1.endPart.finishParts h1
  · exact h1

theorem Keeps.laneReset {l : Nat} (h : Keeps r s) : Keeps r (Machine.laneReset s l) :=
  .ite h (h.endRunningOn.setLane.foldl (fun _ _ h1 => h1.setF)).setF

theorem Keeps.startLaneReset {l : Nat} (h : Keeps r s) : Keeps r (Machine.startLaneReset s l) := .ite h h.setF.laneReset

theorem Keeps.laneResetDone {l : Nat} (h : Keeps r s) : Keeps r (Machine.laneResetDone s l) :=
  .ite h.setLane.setF.setF.raiseEv h

/-! Sys2Proof/Machine/Target.lean -/

theorem Keeps.targetRead {hits : List Hit} {a n : Nat} (h : Keeps r s) : Keeps r (Machine.targetRead s hits a n).1 :=
  .iteFst h.memRead h

theorem Keeps.targetWrite {hits : List Hit} {a : Nat} {bs : List Byte} {store : Bool} (h : Keeps r s) :
    Keeps r (Machine.targetWrite s hits a bs store).1 :=
  .iteFst (.iteFst h.lapStore h) (.iteFst h.memWrite h)

theorem Keeps.maskedLine {hits : List Hit} {a mask : Nat} {bs : List Byte} (h : Keeps r s) :
    Keeps r (Machine.maskedLine s hits a mask bs).1 :=
  .iteFst h (.iteFst (.when (.touchRegions (.foldl (.ite h h.meetHits) (fun _ _ h1 => h1.poke))) fun h1 => h1.frame) (.iteFst
      (.failLine (.when (.touchRegions (.foldl (.ite h h.meetHits) (fun _ _ h1 => h1.poke))) fun h1 => h1.frame)) (.poke (.when
      (.touchRegions (.foldl (.ite h h.meetHits) (fun _ _ h1 => h1.poke))) fun h1 => h1.frame))))

theorem Keeps.targetAtomic {hits : List Hit} {kind a operand cmp src : Nat} {counterFails : Bool} {who : Requester} {own :
    Option (Nat × Nat)} (h : Keeps r s) :
    Keeps r (Machine.targetAtomic s hits kind a operand cmp src counterFails who own).1 := by
  unfold Machine.targetAtomic
  split
  · exact h
  · split
    · dsimp only
      split
      · exact h
      · split
        next e => exact .fst (.lapAdd (.ite h.failLap h)) e
        next e => exact .fst (.lapAdd (.ite h.failLap h)) e
    · split
      · exact h
      · split
        next e => exact h.memRead.fst e
        next e =>
          dsimp only
          split
          · exact h.memRead.fst e
          · split
            next e1 => exact (h.memRead.fst e).memWrite.fst e1
            next e1 => exact (h.memRead.fst e).memWrite.fst e1

/-! Sys2Proof/Machine/VecCore.lean -/

theorem Keeps.settleVec {l : Nat} (h : Keeps r s) : Keeps r (Machine.settleVec s l) := by
  unfold Machine.settleVec
  dsimp only
  split
  · exact .ite h.setLane.raiseEv.endPart.finishParts h
  · exact h

theorem Keeps.vecFaultAt {l st d pc : Nat} (h : Keeps r s) : Keeps r (Machine.vecFaultAt s l st d pc) := h.setLane.settleVec

theorem Keeps.vecRetire {l slots : Nat} (h : Keeps r s) : Keeps r (Machine.vecRetire s l slots) := h.setLane

theorem Keeps.vecGoto {l old pc : Nat} (h : Keeps r s) : Keeps r (Machine.vecGoto s l old pc) := .ite h.setLane h.vecFaultAt

theorem Keeps.vecReplay {kind l : Nat} (h : Keeps r s) : Keeps r (Machine.vecReplay kind s l) := h.setLane.raiseEv

theorem Keeps.vecReplays {kind : Nat} {s0 : State} {l : Nat} (h : Keeps r s0) (h1 : Keeps r s) :
    Keeps r (Machine.vecReplays kind s0 s l) :=
  .ite h1.vecReplay h1

theorem Keeps.vecReload {hits : List Hit} {l : Nat} (h : Keeps r s) : Keeps r (Machine.vecReload hits s l).1 := by
  unfold Machine.vecReload
  dsimp only
  split
  · exact h.vecReplay
  · split
    next e => exact (h.vecReplay.memRead.fst e).setLane
    next e => exact h.vecReplay.memRead.fst e

theorem Keeps.vecHit {l cmdId : Nat} {hits : List Hit} {st : State × Option (Nat × Nat)} {h1 : LaneHit} (h : Keeps r st.1) :
    Keeps r (Machine.vecHit l cmdId hits st h1).1 := by
  unfold Machine.vecHit
  split
  · exact h
  · split
    · split
      next e => exact h.vecReload.fst e
      next e => exact h.vecReload.fst e
    · exact h.vecReplay
    · exact h
    · exact h.pathReplayed
    · exact h.pathFailed
    · exact h

theorem Keeps.vecStep {sel : Nat → Bool} {body : State → Nat → LaneSt → Nat → VOut} {l : Nat} {sur : Surround} (h : Keeps r s)
    (H : ∀ s l ln w, Keeps r s → KeepsOut r (body s l ln w)) : Keeps r (Machine.vecStep sel body l sur s) := by
  unfold Machine.vecStep
  dsimp only
  split
  · exact h
  · split
    · exact h
    · split
      · exact h
      · split
        · exact h
        · split
          next e => exact (Keeps.fst (.foldlFst h fun _ _ h1 => h1.vecHit) e).vecFaultAt
          next e =>
            have h1 := Keeps.fst (.foldlFst h fun _ _ h1 => h1.vecHit) e
            split
            · exact h1
            · split
              · exact h1
              · split
                · exact h1
                next e2 => exact (keepsOut_fault ((H _ _ _ _ h1).of_eq e2)).vecFaultAt
                next e2 => exact (keepsOut_next ((H _ _ _ _ h1).of_eq e2)).vecRetire.vecGoto
                next e2 => exact (keepsOut_jump ((H _ _ _ _ h1).of_eq e2)).vecRetire.vecGoto
                next e2 => exact (keepsOut_done ((H _ _ _ _ h1).of_eq e2)).vecRetire.setLane.endPart.finishParts

theorem Keeps.regOp {f : State → LaneSt → Nat → LaneSt} {l : Nat} {ln : LaneSt} {w : Nat} (h : Keeps r s) :
    KeepsOut r (Machine.regOp f s l ln w) :=
  h.setLane

theorem Keeps.vecLoad {hits : List Hit} {l : Nat} {b : List Byte} {own : Nat × Nat} (h : Keeps r s) :
    Keeps r (Machine.vecLoad s hits l b own).1 := by
  unfold Machine.vecLoad
  dsimp only
  split
  · exact h.setLane
  · split
    · exact (h.vecReplays h.memRead).setLane
    · exact (h.vecReplays h.memRead).setLane

theorem Keeps.vecStart {b : List Byte} {hits : List Hit} {e : CmdEntry} {l : Nat} (h : Keeps r s) :
    Keeps r (Machine.vecStart b hits e s l) := by
  unfold Machine.vecStart
  dsimp only
  split
  next e1 => exact (h.setLane.vecLoad.fst e1).endPart
  next e1 =>
    split
    · exact h.setLane.vecLoad.fst e1
    · exact (h.setLane.vecLoad.fst e1).setLane.vecFaultAt

theorem Keeps.vecRunBody {sur : Surround} {e : CmdEntry} (h : Keeps r s) : Keeps r (Machine.vecRunBody sur s e) := by
  unfold Machine.vecRunBody
  split
  next e1 => exact (h.readBlock.fst e1).endAllParts
  next e1 =>
    split
    · exact (h.readBlock.fst e1).endAllParts
    · exact ((h.readBlock.fst e1).foldl (fun _ _ h1 => h1.vecStart)).finishParts

/-! Sys2Proof/Machine/VecOps.lean -/

theorem Keeps.branchIf {t : LaneSt → Nat → Bool} {l : Nat} {ln : LaneSt} {w : Nat} (h : Keeps r s) :
    KeepsOut r (Machine.branchIf t s l ln w) := by
  unfold Machine.branchIf
  split
  · exact h
  · exact h

theorem Keeps.loopBody {l : Nat} {ln : LaneSt} {w : Nat} (h : Keeps r s) : KeepsOut r (Machine.loopBody s l ln w) := by
  unfold Machine.loopBody
  dsimp only
  split
  · exact h.setLane
  · exact h.setLane

theorem Keeps.scalarOp {f : Dword → Dword → Dword → Dword} {a : State} {a1 : Nat} {a2 : LaneSt} {a3 : Nat} (h : Keeps r a) :
    KeepsOut r (Machine.scalarOp f a a1 a2 a3) :=
  h.regOp

theorem Keeps.elementOp {f : LaneSt → Nat → Nat → Word × Nat} {a : State} {a1 : Nat} {a2 : LaneSt} {a3 : Nat} (h : Keeps r a) :
    KeepsOut r (Machine.elementOp f a a1 a2 a3) :=
  h.regOp

theorem Keeps.argmaxBody {l : Nat} {ln : LaneSt} {w : Nat} (h : Keeps r s) : KeepsOut r (Machine.argmaxBody s l ln w) :=
  h.setLane

/-! Sys2Proof/Machine/Coll.lean -/

theorem Keeps.putRun {r1 : CollRun} (h : Keeps r s) : Keeps r (Machine.putRun s r1) := h.frame

theorem Keeps.onRun {q idx : Nat} {f : CollRun → CollRun} (h : Keeps r s) : Keeps r (Machine.onRun s q idx f) := by
  unfold Machine.onRun
  split
  · exact h.putRun
  · exact h

theorem Keeps.onChunk {q idx key : Nat} {f : ChunkSt → ChunkSt} (h : Keeps r s) : Keeps r (Machine.onChunk s q idx key f) :=
  h.onRun

theorem Keeps.openStep {step : Nat} (h : Keeps r s) : Keeps r (Machine.openStep s step) :=
  .ite (.ite h.setF.setF h) (.ite h.setF.setF h)

theorem Keeps.noteOvf {q idx step : Nat} {ovf : Bool} (h : Keeps r s) : Keeps r (Machine.noteOvf s q idx step ovf) :=
  .ite h (.onRun (.ite h.setF h))

theorem Keeps.missedPacket {q idx : Nat} {data : List Byte} (h : Keeps r s) : Keeps r (Machine.missedPacket s q idx data) := by
  unfold Machine.missedPacket
  split
  · exact h.onRun
  · exact h

theorem Keeps.pumpOut {a : Nat} {a1 : State} (h : Keeps r a1) : Keeps r (Machine.pumpOut a a1) := by
  induction a generalizing a1 with
  | zero =>
    simp only [Machine.pumpOut]
    exact h
  | succ a ih =>
    simp only [Machine.pumpOut]
    split
    · exact h
    · split
      · split
        next e => exact ih (h.frame.sendReq.fst e)
        next e => exact ih (h.frame.sendReq.fst e).missedPacket
      · exact h

theorem Keeps.pumpChunks (h : Keeps r s) : Keeps r (Machine.pumpChunks s) := h.pumpOut

theorem Keeps.sendChunk {q idx dev : Nat} {m : ChunkMsg} (h : Keeps r s) : Keeps r (Machine.sendChunk s q idx dev m) :=
  h.frame.pumpChunks

theorem Keeps.codeChunk {r1 : CollRun} {ty : Nat} {bs : List Byte} (h : Keeps r s) :
    Keeps r (Machine.codeChunk s r1 ty bs).1 := by
  unfold Machine.codeChunk
  split
  · exact h
  · split
    · exact h
    · split
      · exact h
      · exact h.foldl (fun _ _ h1 => h1.countEncoded)

theorem Keeps.sendContrib {r1 : CollRun} {key : Nat} {bs : List Byte} {ovf : Bool} (h : Keeps r s) :
    Keeps r (Machine.sendContrib s r1 key bs ovf) := by
  unfold Machine.sendContrib
  split
  next e => exact (h.codeChunk.fst e).noteOvf.sendChunk

theorem Keeps.sendResult {r1 : CollRun} {key : Nat} {bs : List Byte} {ovf : Bool} {tos : List Nat} (h : Keeps r s) :
    Keeps r (Machine.sendResult s r1 key bs ovf tos) := by
  unfold Machine.sendResult
  split
  · exact h
  · split
    next e =>
      exact .ite ((h.codeChunk.fst e).noteOvf.foldl (fun _ _ h1 => h1.sendChunk)) ((h.codeChunk.fst e).noteOvf.foldl (fun _ _ h1
          => .ite h1.sendChunk h1))

theorem Keeps.sendPlain {r1 : CollRun} {msg key p : Nat} (h : Keeps r s) : Keeps r (Machine.sendPlain s r1 msg key p) :=
  h.sendChunk

theorem Keeps.leaveEngine {r1 : CollRun} {ok : Bool} (h : Keeps r s) : Keeps r (Machine.leaveEngine s r1 ok) :=
  h.frame.when fun h1 => .ite h1.setLanding h1.failLanding

theorem Keeps.endColl {q idx status detail : Nat} (h : Keeps r s) : Keeps r (Machine.endColl s q idx status detail) := by
  unfold Machine.endColl
  split
  · exact h
  · exact h.leaveEngine.endCmd

theorem Keeps.abandonColl {q idx n : Nat} (h : Keeps r s) : Keeps r (Machine.abandonColl s q idx n) := by
  unfold Machine.abandonColl
  split
  · exact h
  · exact h.raiseEv.endColl

theorem Keeps.writeCounts {r1 : CollRun} (h : Keeps r s) : Keeps r (Machine.writeCounts s r1) := .ite h h.memWrite

theorem Keeps.settleColl {q idx : Nat} (h : Keeps r s) : Keeps r (Machine.settleColl s q idx) := by
  unfold Machine.settleColl
  split
  · exact h
  · exact .ite h (.ite h.abandonColl (.ite h.endColl (.ite h.writeCounts.endColl h)))

theorem Keeps.voidChunk {q idx key reason : Nat} (h : Keeps r s) : Keeps r (Machine.voidChunk s q idx key reason) := by
  unfold Machine.voidChunk
  split
  · exact h
  · exact .ite h (h.onChunk.onRun.satF.raiseEv.when fun h1 => h1.voidLandingChunk)

theorem Keeps.declareVoid {q idx key reason : Nat} (h : Keeps r s) : Keeps r (Machine.declareVoid s q idx key reason) := by
  unfold Machine.declareVoid
  split
  · exact h
  · exact (h.foldl (fun _ _ h1 => h1.sendChunk)).voidChunk.settleColl

theorem Keeps.markUsable {r1 : CollRun} {key : Nat} (h : Keeps r s) : Keeps r (Machine.markUsable s r1 key) :=
  .ite (.ite h h.setLanding) h

theorem Keeps.chunkFormed {q idx key : Nat} {bs : List Byte} {ovf : Bool} {x : Meet} (h : Keeps r s) :
    Keeps r (Machine.chunkFormed s q idx key bs ovf x) := by
  unfold Machine.chunkFormed
  split
  · exact h
  · dsimp only
    split
    next e => exact .declareVoid (.fst (.iteFst h (.iteFst h h.memWrite)) e)
    next e =>
      exact .settleColl (.sendResult (.noteOvf (.markUsable (.when (.onChunk (.fst (.iteFst h (.iteFst h h.memWrite)) e)) fun h1
          => h1.memWrite))))

theorem Keeps.formChunk {q idx key : Nat} {x : Meet} (h : Keeps r s) : Keeps r (Machine.formChunk s q idx key x) := by
  unfold Machine.formChunk
  split
  · exact h
  · exact .ite h h.chunkFormed

theorem Keeps.takeContrib {q idx key : Nat} {c : Contrib} {x : Meet} (h : Keeps r s) :
    Keeps r (Machine.takeContrib s q idx key c x) :=
  h.onChunk.noteOvf.formChunk

/-! Sys2Proof/Machine/CollRows.lean -/

theorem Keeps.collRead {q idx : Nat} {hits : List Hit} {a n : Nat} (h : Keeps r s) :
    Keeps r (Machine.collRead s q idx hits a n).1 := by
  unfold Machine.collRead
  split
  · exact h
  · split
    next e => exact h.memRead.fst e
    next e => exact (h.memRead.fst e).endColl

theorem Keeps.contribute {q idx : Nat} {hits : List Hit} {lost : List Nat} {key : Nat} (h : Keeps r s) :
    Keeps r (Machine.contribute q idx hits lost s key) := by
  unfold Machine.contribute
  split
  · exact h
  · split
    next e => exact h.collRead.fst e
    next e => exact .ite (h.collRead.fst e).takeContrib (h.collRead.fst e).sendContrib

theorem Keeps.offer {q idx : Nat} {hits : List Hit} {lost : List Nat} {key : Nat} (h : Keeps r s) :
    Keeps r (Machine.offer q idx hits lost s key) := by
  unfold Machine.offer
  split
  · exact h
  · split
    next e => exact h.collRead.fst e
    next e => exact (h.collRead.fst e).chunkFormed

theorem Keeps.exchange {q idx n : Nat} {hits : List Hit} {key : Nat} (h : Keeps r s) :
    Keeps r (Machine.exchange q idx n hits s key) := by
  unfold Machine.exchange
  split
  · exact h
  · split
    next e => exact h.collRead.fst e
    next e => exact (h.collRead.fst e).chunkFormed

theorem Keeps.exchangeTo {q idx : Nat} {hits : List Hit} {counts : List Byte} {j : Nat} (h : Keeps r s) :
    Keeps r (Machine.exchangeTo q idx hits counts s j) := by
  unfold Machine.exchangeTo
  split
  · exact h
  · dsimp only
    split
    · split
      next e => exact .fst (.collRead (.ite h.onRun.raiseEv h)) e
      next e => exact .onRun (.memWrite (.fst (.collRead (.ite h.onRun.raiseEv h)) e))
    · exact .foldl (.ite h.onRun.raiseEv h) (fun _ _ h1 => h1.exchange)

theorem Keeps.produce {q idx : Nat} {hits : List Hit} {lost : List Nat} (h : Keeps r s) :
    Keeps r (Machine.produce s q idx hits lost) := by
  unfold Machine.produce
  split
  · exact h
  · split
    · exact h.foldl (fun _ _ h1 => h1.contribute)
    · split
      · split
        next e => exact h.collRead.fst e
        next e => exact (h.collRead.fst e).foldl (fun _ _ h1 => h1.exchangeTo)
      · exact h.foldl (fun _ _ h1 => h1.offer)

theorem Keeps.armLanding {o : CollOp} (h : Keeps r s) : Keeps r (Machine.armLanding s o) := .ite h.setLanding h

theorem Keeps.mismatched (h : Keeps r s) : Keeps r (Machine.mismatched s) := h.satF

theorem Keeps.answerChunk {m : ChunkMsg} {msg : Nat} (h : Keeps r s) : Keeps r (Machine.answerChunk s m msg) := h.sendChunk

theorem Keeps.holdChunk {m : ChunkMsg} {bad : Bool} (h : Keeps r s) : Keeps r (Machine.holdChunk s m bad) :=
  .ite h.mismatched (.ite h.frame h.satF.answerChunk)

theorem Keeps.forwardChunk {r1 : CollRun} {m : ChunkMsg} (h : Keeps r s) : Keeps r (Machine.forwardChunk s r1 m) :=
  h.noteOvf.sendChunk

theorem Keeps.onContrib {r1 : CollRun} {m : ChunkMsg} {x : Meet} (h : Keeps r s) : Keeps r (Machine.onContrib s r1 m x) := by
  unfold Machine.onContrib
  dsimp only
  split
  · exact .ite h.mismatched h.forwardChunk
  · split
    · exact h.mismatched
    · split
      · exact h
      · split
        · exact .takeContrib (.ite h.satF h)
        · exact .ite h.onChunk.onRun.declareVoid h.onChunk.onRun.sendPlain

theorem Keeps.keepResult {r1 : CollRun} {m : ChunkMsg} {key : Nat} {bs : List Byte} {hits : List Hit} (h : Keeps r s) :
    Keeps r (Machine.keepResult s r1 m key bs hits).1 := by
  unfold Machine.keepResult
  dsimp only
  split
  next e => exact .fst (.iteFst h h.memWrite) e
  next e =>
    exact .sendPlain (.noteOvf (.when (.onChunk (.markUsable (.when (.fst (.iteFst h h.memWrite) e) fun h1 => h1.satF))) fun h1
        => h1.onRun))

theorem Keeps.onResult {r1 : CollRun} {m : ChunkMsg} {x : Meet} (h : Keeps r s) : Keeps r (Machine.onResult s r1 m x) := by
  unfold Machine.onResult
  dsimp only
  split
  · exact (h.forwardChunk.unless fun h1 => .ite h1 h).when fun h1 => h1.mismatched
  · split
    · exact h.forwardChunk.unless fun h1 => .ite h1 h
    · split
      · exact ((h.forwardChunk.unless fun h1 => .ite h1 h).unless fun h1 => h1.memWrite).onRun.sendPlain
      · split
        · exact (h.forwardChunk.unless fun h1 => .ite h1 h).onRun.sendPlain
        · split
          next e => exact (h.forwardChunk.unless fun h1 => .ite h1 h).keepResult.fst e
          next e => exact ((h.forwardChunk.unless fun h1 => .ite h1 h).keepResult.fst e).onRun.sendPlain

theorem Keeps.onAck {r1 : CollRun} {m : ChunkMsg} (h : Keeps r s) : Keeps r (Machine.onAck s r1 m) :=
  .ite h.mismatched (.ite h (h.onChunk.when fun h1 => (h1.onChunk.foldl (fun _ _ h2 => h2.sendPlain)).settleColl))

theorem Keeps.resendResult {r1 : CollRun} {key p : Nat} {hits : List Hit} {count : Bool} (h : Keeps r s) :
    Keeps r (Machine.resendResult s r1 key p hits count) := by
  unfold Machine.resendResult
  dsimp only
  split
  next e => exact .declareVoid (.fst (.iteFst h h.memRead) e)
  next e =>
    exact .ite (.declareVoid (.fst (.iteFst h h.memRead) e)) (.sendResult (.when (.fst (.iteFst h h.memRead) e) fun h1 =>
        h1.onRun.satF.raiseEv))

theorem Keeps.onNak {r1 : CollRun} {m : ChunkMsg} {x : Meet} (h : Keeps r s) : Keeps r (Machine.onNak s r1 m x) :=
  .ite (.ite h (.ite h.onChunk.declareVoid h.onChunk.resendResult)) (.ite h.onRun.satF.contribute h.mismatched)

theorem Keeps.onConfirm {r1 : CollRun} {m : ChunkMsg} (h : Keeps r s) : Keeps r (Machine.onConfirm s r1 m) :=
  .ite h.mismatched h.onChunk.settleColl

theorem Keeps.onVoid {r1 : CollRun} {m : ChunkMsg} (h : Keeps r s) : Keeps r (Machine.onVoid s r1 m) := h.voidChunk.settleColl

theorem Keeps.onLater {r1 : CollRun} {m : ChunkMsg} (h : Keeps r s) : Keeps r (Machine.onLater s r1 m) :=
  .ite h.sendChunk h.satF.onRun

theorem Keeps.onStale {r1 : CollRun} {m : ChunkMsg} (h : Keeps r s) : Keeps r (Machine.onStale s r1 m) := h.abandonColl

theorem Keeps.onMessage {r1 : CollRun} {m : ChunkMsg} {x : Meet} (h : Keeps r s) : Keeps r (Machine.onMessage s r1 m x) := by
  unfold Machine.onMessage
  split
  · exact h.mismatched.raiseEv
  · split
    · exact h.mismatched
    · split
      · exact h.onContrib
      · exact h.onResult
      · exact h.onAck
      · exact h.onNak
      · exact h.onConfirm
      · exact h.onVoid
      · exact h.onLater
      · exact h.onStale
      · exact h.mismatched

theorem Keeps.staleChunk {m : ChunkMsg} (h : Keeps r s) : Keeps r (Machine.staleChunk s m) :=
  h.satF.raiseEv.unless fun h1 => h1.answerChunk

theorem Keeps.collArrive {m : ChunkMsg} {x : Meet} (h : Keeps r s) : Keeps r (Machine.collArrive s m x) := by
  unfold Machine.collArrive
  split
  · exact h.mismatched
  · split
    · exact h.mismatched
    · split
      · exact h.holdChunk
      · exact h.staleChunk
      · exact .ite h.onMessage h.staleChunk
      · exact h.holdChunk
      · exact h.onMessage

theorem Keeps.takeHeld {p : ChunkMsg × Bool → Bool} {lost : List Nat} (h : Keeps r s) : Keeps r (Machine.takeHeld s p lost) :=
  h.frame.foldl (fun _ _ h1 => h1.collArrive)

theorem Keeps.startColl {sur : Surround} {e : CmdEntry} (h : Keeps r s) : Keeps r (Machine.startColl sur s e) := by
  unfold Machine.startColl
  split
  next e1 =>
    split
    exact (h.readBlock.fst e1).endCmd
  next e1 =>
    dsimp only
    split
    · exact (h.readBlock.fst e1).endCmd
    · exact ((h.readBlock.fst e1).when fun h1 => h1.takeRef).putCmd.frame.openStep.armLanding.produce.settleColl.takeHeld

theorem Keeps.laterRetry {q idx : Nat} {x : Meet} (h : Keeps r s) : Keeps r (Machine.laterRetry s q idx x) := by
  unfold Machine.laterRetry
  split
  · exact h
  · split
    · exact h
    · exact .ite h.onRun.contribute (.ite h.onRun.sendChunk (h.onRun.when fun h1 => h1.resendResult))

theorem Keeps.abandonChunks {q idx : Nat} {p : CollRun → Nat → Bool} (h : Keeps r s) :
    Keeps r (Machine.abandonChunks s q idx p) := by
  unfold Machine.abandonChunks
  split
  · exact h
  · exact (h.foldl (fun _ _ h1 => h1.onChunk)).settleColl

theorem Keeps.abandonLost (h : Keeps r s) : Keeps r (Machine.abandonLost s) := .ite h (h.foldl (fun _ _ h1 => h1.abandonChunks))

theorem Keeps.timeoutColl {q idx : Nat} (h : Keeps r s) : Keeps r (Machine.timeoutColl s q idx) := by
  unfold Machine.timeoutColl
  split
  · exact h
  · exact h.endColl

/-! Sys2Proof/Machine/Keeper.lean -/

theorem Keeps.applyKeeper {axisY level : Bool} (h : Keeps r s) : Keeps r (Machine.applyKeeper s axisY level) :=
  .ite h.setInsert (.ite h.driveKeeper.setInsert.setF h.driveKeeper.setInsert.setInsert.setF.raiseEv)

theorem Keeps.wantKeeper {axisY level : Bool} (h : Keeps r s) : Keeps r (Machine.wantKeeper s axisY level) :=
  .ite h.setInsert (.ite h.applyKeeper h.setInsert)

theorem Keeps.keeperHoldExpiry {axisY : Bool} (h : Keeps r s) : Keeps r (Machine.keeperHoldExpiry s axisY) := by
  unfold Machine.keeperHoldExpiry
  dsimp only
  split
  · exact h.setInsert.applyKeeper
  · exact h.setInsert

theorem Keeps.completeHandshake {axisY : Bool} (h : Keeps r s) : Keeps r (Machine.completeHandshake s axisY) :=
  h.setInsert.wantKeeper

/-! Sys2Proof/Machine/VecMem.lean -/

theorem Keeps.vecRead {l : Nat} {ln : LaneSt} {hits : List Hit} {a n : Nat} (h : Keeps r s) :
    Keeps r (Machine.vecRead s l ln hits a n).1 :=
  h.vecReplays h.memRead

theorem Keeps.readAux {l : Nat} {ln : LaneSt} {hits : List Hit} {w : Nat} (h : Keeps r s) :
    Keeps r (Machine.readAux s l ln hits w).1 := by
  unfold Machine.readAux
  split
  · exact h
  · exact h.vecRead

theorem Keeps.vldBody {hits : List Hit} {l : Nat} {ln : LaneSt} {w : Nat} (h : Keeps r s) :
    KeepsOut r (Machine.vldBody hits s l ln w) := by
  unfold Machine.vldBody
  dsimp only
  split
  · exact h
  · split
    next e => exact h.vecRead.fst e
    next e =>
      split
      next e1 => exact (h.vecRead.fst e).readAux.fst e1
      next e1 => exact ((h.vecRead.fst e).readAux.fst e1).setLane

theorem Keeps.vecWrite {l : Nat} {ln : LaneSt} {hits : List Hit} {a : Nat} {bs : List Byte} (h : Keeps r s) :
    Keeps r (Machine.vecWrite s l ln hits a bs).1 :=
  h.vecReplays h.memWrite

theorem Keeps.vstBody {hits : List Hit} {l : Nat} {ln : LaneSt} {w : Nat} (h : Keeps r s) :
    KeepsOut r (Machine.vstBody hits s l ln w) := by
  have hb : ∀ {st : State × Bool} {a : Nat} {bs : List Byte}, Keeps r st.1 → Keeps r
      (match Machine.vecWrite st.1 l ln hits a bs with | (s, ok) => (s, st.2 && ok)).1 := fun h1 => h1.vecWrite
  unfold Machine.vstBody
  dsimp only
  split
  · exact h
  · split
    · split
      next e => exact h.vecWrite.fst e
      next e =>
        split
        next e1 => exact (h.vecWrite.fst e).vecWrite.fst e1
        next e1 => exact ((h.vecWrite.fst e).vecWrite.fst e1).setLane
    · split
      next e => exact h.readAux.fst e
      next e =>
        have h1 := h.readAux.fst e
        split
        next e1 => exact Keeps.fst (.iteFst h1.vecWrite (.foldlFst (p := (_, true)) h1 fun _ _ => hb)) e1
        next e1 => exact (Keeps.fst (.iteFst h1.vecWrite (.foldlFst (p := (_, true)) h1 fun _ _ => hb)) e1).setLane

theorem Keeps.vgathBody {hits : List Hit} {l : Nat} {ln : LaneSt} {w : Nat} (h : Keeps r s) :
    KeepsOut r (Machine.vgathBody hits s l ln w) := by
  unfold Machine.vgathBody
  dsimp only
  split
  · exact h
  · split
    next e =>
      refine (h.foldlFst ?_).fst e
      intro p a h1
      split
      · exact h1
      · split
        next e1 => exact h1.vecRead.fst e1
        next e1 => exact h1.vecRead.fst e1
    next e =>
      refine ((h.foldlFst ?_).fst e).setLane
      intro p a h1
      split
      · exact h1
      · split
        next e1 => exact h1.vecRead.fst e1
        next e1 => exact h1.vecRead.fst e1

theorem Keeps.vscatBody {hits : List Hit} {l : Nat} {ln : LaneSt} {w : Nat} (h : Keeps r s) :
    KeepsOut r (Machine.vscatBody hits s l ln w) := by
  unfold Machine.vscatBody
  dsimp only
  split
  · exact h
  · exact h.foldl (fun _ _ h1 => h1.vecWrite)

theorem Keeps.vecSend {l pc kind reg mask a op len operand : Nat} {data : List Byte} (h : Keeps r s) :
    Keeps r (Machine.vecSend s l pc kind reg mask a op len operand data).1 := by
  unfold Machine.vecSend
  dsimp only
  split
  next e => exact (h.sendReq.fst e).setLane
  next e => exact h.sendReq.fst e

theorem Keeps.rldBody {hits : List Hit} {l : Nat} {ln : LaneSt} {w : Nat} (h : Keeps r s) :
    KeepsOut r (Machine.rldBody hits s l ln w) := by
  unfold Machine.rldBody
  dsimp only
  split
  · exact h
  · exact h
  · split
    · exact h
    · split
      next e => exact h.vecRead.fst e
      next e => exact (h.vecRead.fst e).setLane
  · split
    · exact trivial
    · split
      next e => exact h.vecSend.fst e
      next e => exact h.vecSend.fst e

theorem Keeps.rstBody {hits : List Hit} {l : Nat} {ln : LaneSt} {w : Nat} (h : Keeps r s) :
    KeepsOut r (Machine.rstBody hits s l ln w) := by
  have hb : ∀ {st : State × Bool} {x : Nat × Nat × List Byte}, Keeps r st.1 → Keeps r
      (match Machine.maskedLine st.1 hits (localPart x.1) x.2.1 x.2.2 with | (s, ok) => (s, st.2 && ok)).1 :=
    fun h1 => h1.maskedLine
  unfold Machine.rstBody
  dsimp only
  split
  · exact h
  · exact h
  · split
    next e => exact Keeps.fst (.iteFst h.targetWrite (.foldlFst (p := (s, true)) h fun _ _ => hb)) e
    next e => exact Keeps.fst (.iteFst h.targetWrite (.foldlFst (p := (s, true)) h fun _ _ => hb)) e
  · split
    · split
      · exact trivial
      · split
        next e => exact h.vecSend.fst e
        next e => exact h.vecSend.fst e
    · split
      · exact trivial
      · split
        next e => exact (Keeps.foldlFst h fun _ _ h1 => .iteFst h1.vecSend h1).fst e
        next e => exact (Keeps.foldlFst h fun _ _ h1 => .iteFst h1.vecSend h1).fst e

theorem Keeps.ratomBody {hits : List Hit} {l : Nat} {ln : LaneSt} {w : Nat} (h : Keeps r s) :
    KeepsOut r (Machine.ratomBody hits s l ln w) := by
  unfold Machine.ratomBody
  dsimp only
  split
  · exact h
  · exact h
  · split
    · exact (h.vecReplays h.targetAtomic).setLane
    · split
      · exact h.vecReplays h.targetAtomic
      · exact h.vecReplays h.targetAtomic
  · split
    · exact trivial
    · split
      next e => exact h.vecSend.fst e
      next e => exact h.vecSend.fst e

theorem Keeps.rankBody {l : Nat} {ln : LaneSt} {w : Nat} (h : Keeps r s) : KeepsOut r (Machine.rankBody s l ln w) := by
  unfold Machine.rankBody
  split
  · exact trivial
  · split
    · exact h
    · exact h
    · exact h.setLane

theorem Keeps.vecAnswer {l tag status : Nat} {data : List Byte} (h : Keeps r s) :
    Keeps r (Machine.vecAnswer s l tag status data) := by
  unfold Machine.vecAnswer
  dsimp only
  split
  · exact h
  · exact .ite h.setLane.vecFaultAt h.setLane.settleVec

/-! Sys2Proof/Machine/Answers.lean -/

theorem Keeps.signalAnswer {q idx status : Nat} (h : Keeps r s) : Keeps r (Machine.signalAnswer s q idx status) := by
  unfold Machine.signalAnswer
  split
  · exact h
  · split
    · exact h
    · split
      · exact h.putCmd
      · split
        exact h.putCmd.raiseEv

theorem Keeps.waitAnswer {q idx w status : Nat} (h : Keeps r s) : Keeps r (Machine.waitAnswer s q idx w status) := by
  unfold Machine.waitAnswer
  split
  · exact h
  · split
    · exact h
    · dsimp only
      exact .ite h.putCmd (.ite h.putCmd h.endCmd.dropWatches)

theorem Keeps.vecDeliver {l tag status : Nat} {data : List Byte} (h : Keeps r s) :
    Keeps r (Machine.vecDeliver s l tag status data) := by
  unfold Machine.vecDeliver
  split
  · dsimp only
    split
    · exact h
    · exact h.setLane.vecFaultAt
  · exact h.vecAnswer

theorem Keeps.settleForwards (h : Keeps r s) : Keeps r (Machine.settleForwards s) := h.frame.foldl (fun _ _ h1 => h1.respond)

theorem Keeps.requestAnswer {requester tag : Nat} {plus : Bool} {status : Nat} (h : Keeps r s) :
    Keeps r (Machine.requestAnswer s requester tag plus status) :=
  h.frame.settleForwards

theorem Keeps.forwardAnswer {axisY : Bool} {status : Nat} {data : List Byte} (h : Keeps r s) :
    Keeps r (Machine.forwardAnswer s axisY status data) :=
  .ite (h.setInsert.when fun h1 => h1.completeHandshake) h

theorem Keeps.bar2Unmapped {off a : Nat} (h : Keeps r s) : Keeps r (Machine.bar2Unmapped s off a) := h.raiseEv

theorem Keeps.bar2Parity {a : Nat} (h : Keeps r s) : Keeps r (Machine.bar2Parity s a) := h.raiseEv

theorem Keeps.bar2Written {p : Packet} {off status : Nat} (h : Keeps r s) : Keeps r (Machine.bar2Written s p off status) :=
  .ite h.bar2Unmapped (.ite h.bar2Parity h)

theorem Keeps.bar2Answer {p : Packet} {off skip size status : Nat} {data : List Byte} (h : Keeps r s) :
    Keeps r (Machine.bar2Answer s p off skip size status data) :=
  .ite h.emit h.bar2Written.emit

theorem Keeps.deliver {t : Txn} {status : Nat} {data : List Byte} (h : Keeps r s) :
    Keeps r (Machine.deliver s t status data) := by
  unfold Machine.deliver
  refine .pumpChunks ?_
  split
  · exact h.signalAnswer
  · exact h.waitAnswer
  · exact h.vecDeliver
  · exact h.bar2Answer
  · exact h.bar2Written
  · exact h
  · exact .settleColl (.ite h h.missedPacket)
  · exact h.forwardAnswer
  · exact h.requestAnswer

theorem Keeps.declareLost {t : Txn} (h : Keeps r s) : Keeps r (Machine.declareLost s t) := h.loseTxn.deliver

/-! Sys2Proof/Machine/Reroute.lean -/

theorem Keeps.putTxn {t : Txn} (h : Keeps r s) : Keeps r (Machine.putTxn s t) := h.frame

theorem Keeps.loseAll {d : Nat} (h : Keeps r s) : Keeps r (Machine.loseAll s d) := h.foldl (fun _ _ h1 => h1.declareLost)

theorem Keeps.makeUnreachable {d : Nat} (h : Keeps r s) : Keeps r (Machine.makeUnreachable s d) :=
  h.frame.loseAll.raiseEv.abandonLost

theorem Keeps.reissueTxn {r1 : Nat} {t : Txn} (h : Keeps r s) : Keeps r (Machine.reissueTxn r1 s t) :=
  .ite h.declareLost h.putTxn.satF.transmit

theorem Keeps.releaseTxn {r1 : Nat} {t : Txn} (h : Keeps r s) : Keeps r (Machine.releaseTxn r1 s t) := h.putTxn.transmit

theorem Keeps.finishReroute {d trigger : Nat} (h : Keeps r s) : Keeps r (Machine.finishReroute s d trigger) := by
  unfold Machine.finishReroute
  dsimp only
  split
  · exact h.frame.makeUnreachable
  · exact .ite h.frame.makeUnreachable (.foldl (.foldl (.ite h.frame h.frame.raiseEv) (fun _ _ h1 => h1.reissueTxn)) (fun _ _ h1
        => h1.releaseTxn))

theorem Keeps.startReroute {d trigger : Nat} (h : Keeps r s) : Keeps r (Machine.startReroute s d trigger) :=
  .ite h (h.frame.when fun h1 => h1.finishReroute)

theorem Keeps.settleReroute {d : Nat} (h : Keeps r s) : Keeps r (Machine.settleReroute s d) := by
  unfold Machine.settleReroute
  split
  · exact .ite h.finishReroute h
  · exact h

theorem Keeps.drainExpiry {d : Nat} (h : Keeps r s) : Keeps r (Machine.drainExpiry s d) := by
  unfold Machine.drainExpiry
  split
  · exact h.finishReroute
  · exact h

theorem Keeps.rerouteAll {n : Nat} (h : Keeps r s) : Keeps r (Machine.rerouteAll s n) := h.foldl (fun _ _ h1 => h1.startReroute)

theorem Keeps.portDown {n cause : Nat} (h : Keeps r s) : Keeps r (Machine.portDown s n cause) :=
  .ite h (((h.setF.setF.setF.setF.setPort.frame.downBlock.when fun h1 => h1.queuePort).unless fun h1 =>
      h1.setF.raiseEv.rerouteAll).foldl (fun _ _ h1 => h1.routeDown))

theorem Keeps.drainPort {n why : Nat} (h : Keeps r s) : Keeps r (Machine.drainPort s n why) :=
  .ite h.setPort.setF.setF.raiseEv.rerouteAll h

theorem Keeps.portReset {n : Nat} (h : Keeps r s) : Keeps r (Machine.portReset s n) :=
  .ite h.portDown.frame.setF.setPort.queuePort h.portDown.raiseEv

theorem Keeps.startPortReset {n : Nat} (h : Keeps r s) : Keeps r (Machine.startPortReset s n) := .ite h h.setF.portReset

theorem Keeps.requestSwap {n lane : Nat} {lock : Bool} (h : Keeps r s) : Keeps r (Machine.requestSwap s n lane lock) := by
  unfold Machine.requestSwap
  split
  · exact h.setF.setPort.sendCtl
  · exact h

theorem Keeps.secondLane {n lane : Nat} (h : Keeps r s) : Keeps r (Machine.secondLane s n lane) := h.raiseEv.portDown

theorem Keeps.lossOfLock {n lane : Nat} (h : Keeps r s) : Keeps r (Machine.lossOfLock s n lane) := by
  unfold Machine.lossOfLock
  dsimp only
  split
  · exact h
  · split
    · exact .ite h.portDown h.secondLane
    · split
      · exact .ite h.setPort h.secondLane
      · exact .ite h.requestSwap h.portDown

theorem Keeps.symbolLimit {n lane count : Nat} (h : Keeps r s) : Keeps r (Machine.symbolLimit s n lane count) :=
  .ite h.requestSwap h

theorem Keeps.writePortLane {n : Nat} {v : Word} (h : Keeps r s) : Keeps r (Machine.writePortLane s n v) :=
  h.setF.setF.setF.when fun h1 => h1.requestSwap

theorem Keeps.swapRequest {n lane : Nat} (h : Keeps r s) : Keeps r (Machine.swapRequest s n lane) := by
  unfold Machine.swapRequest
  dsimp only
  split
  · exact .ite h h.secondLane
  · split
    · exact h.setPort.sendCtl.setPort
    · exact .ite h.setPort.sendCtl.setPort h
    · exact h

theorem Keeps.swapAnswer {n lane : Nat} (h : Keeps r s) : Keeps r (Machine.swapAnswer s n lane) := .ite h.setPort h

theorem Keeps.swapDrainDone {n : Nat} (h : Keeps r s) : Keeps r (Machine.swapDrainDone s n) := by
  unfold Machine.swapDrainDone
  dsimp only
  split
  · exact .ite h.setPort h
  · exact h

theorem Keeps.repeatSwap {n lane : Nat} {lock : Bool} (h : Keeps r s) : Keeps r (Machine.repeatSwap s n lane lock) :=
  .ite h (h.requestSwap.when fun h1 => h1.secondLane)

theorem Keeps.spareTrained {n us : Nat} (h : Keeps r s) : Keeps r (Machine.spareTrained s n us) := by
  unfold Machine.spareTrained
  dsimp only
  split
  · split
    · exact h.setPort.freshTaps.setF.setF.setF.raiseEv.pump.repeatSwap
    · exact h.setPort.freshTaps.setF.setF.setF.raiseEv.pump
  · exact h

theorem Keeps.txnTimeout {tag : Nat} (h : Keeps r s) : Keeps r (Machine.txnTimeout s tag) := by
  unfold Machine.txnTimeout
  split
  · exact .ite h h.declareLost.settleReroute
  · exact h

theorem Keeps.watchRetry {q idx w : Nat} (h : Keeps r s) : Keeps r (Machine.watchRetry s q idx w) := by
  unfold Machine.watchRetry
  split
  · exact h
  · exact .ite h h.putCmd.sendWatch

theorem Keeps.damagedResponse {t : Txn} (h : Keeps r s) : Keeps r (Machine.damagedResponse s t) :=
  .ite h.dropTxn.deliver.settleReroute (.ite h.declareLost.settleReroute (h.putTxn.satF.satF.unless fun h1 => h1.transmit))

theorem Keeps.takeResponse {p : Packet} {bad : Bool} (h : Keeps r s) : Keeps r (Machine.takeResponse s p bad) := by
  unfold Machine.takeResponse
  split
  · exact h.satF
  · exact .ite h.damagedResponse (.ite h.putTxn.startReroute.settleReroute h.dropTxn.deliver.settleReroute)

/-! Sys2Proof/Machine/Insert.lean -/

theorem Keeps.insertStart {axisY : Bool} (h : Keeps r s) : Keeps r (Machine.insertStart s axisY) := by
  unfold Machine.insertStart
  dsimp only
  split
  · split
    · exact h.setInsert.setF
    · exact h.setInsert.setF.when fun h1 => h1.sendReq
  · exact h

theorem Keeps.insertWait {axisY : Bool} (h : Keeps r s) : Keeps r (Machine.insertWait s axisY) :=
  .ite h.setInsert.completeHandshake h

theorem Keeps.sendInsert {p : Packet} {axisY plus : Bool} (h : Keeps r s) : Keeps r (Machine.sendInsert s p axisY plus) := by
  unfold Machine.sendInsert
  dsimp only
  split
  · exact h.requestAnswer
  · split
    next e => exact h.sendReq.fst e
    next e => exact (h.sendReq.fst e).requestAnswer

theorem Keeps.serveForward {p : Packet} (h : Keeps r s) : Keeps r (Machine.serveForward s p) := h.frame.sendInsert.sendInsert

theorem Keeps.serveInsert {p : Packet} (h : Keeps r s) : Keeps r (Machine.serveInsert s p) := .ite h.respond h.frame.drainPort

theorem Keeps.insertDrained {n : Nat} (h : Keeps r s) : Keeps r (Machine.insertDrained s n) :=
  .ite (h.frame.foldl (fun _ _ h1 => h1.respond)) h

theorem Keeps.releaseAxis {axisY : Bool} (h : Keeps r s) : Keeps r (Machine.releaseAxis s axisY) :=
  .ite ((h.setF.setF.when fun h1 => h1.sendCtl).when fun h1 => (h.setF.setF.when fun h2 =>
      h2.sendCtl).sendCtl).drainPort.drainPort (h.setF.when fun h1 => h1.setInsert.setF)

theorem Keeps.writeKeep {v : Word} (h : Keeps r s) : Keeps r (Machine.writeKeep s v) :=
  .ite (.setF (.ite h.setF (.ite h.releaseAxis h))) (.when (.ite h.setF (.ite h.releaseAxis h)) fun h1 => .releaseAxis (.ite
      h.setF (.ite h.releaseAxis h)))

theorem Keeps.releaseDrained {axisY : Bool} (h : Keeps r s) : Keeps r (Machine.releaseDrained s axisY) := .ite h.wantKeeper h

theorem Keeps.directKeeper {axisY allow : Bool} (h : Keeps r s) : Keeps r (Machine.directKeeper s axisY allow) :=
  .ite h.setF (.ite h.releaseAxis h)

theorem Keeps.fabricReady {ms : Nat} (h : Keeps r s) : Keeps r (Machine.fabricReady s ms) :=
  .ite (h.setF.unless fun h1 => h1.loadIsolated).setF.setF.raiseEv.directKeeper.directKeeper h

/-! Sys2Proof/Machine/Retire.lean -/

theorem Keeps.writeCompletion {e : CmdEntry} (h : Keeps r s) : Keeps r (Machine.writeCompletion s e) := h.emit.emit.setF

theorem Keeps.reportCommand {e : CmdEntry} (h : Keeps r s) : Keeps r (Machine.reportCommand s e) := .ite h h.raiseEv

theorem Keeps.startAudit {e : CmdEntry} (h : Keeps r s) : Keeps r (Machine.startAudit s e) := .ite h.frame.setF h

theorem Keeps.resumeDispatch {q idx : Nat} (h : Keeps r s) : Keeps r (Machine.resumeDispatch s q idx) :=
  .ite h.frame.hurdleRelease.latchAll.takeHeld h

theorem Keeps.completeCmd {e : CmdEntry} {counterFails : Bool} (h : Keeps r s) :
    Keeps r (Machine.completeCmd s e counterFails) := by
  unfold Machine.completeCmd
  refine .resumeDispatch (.dropCmd (.when (.startAudit ?_) fun h1 => h1.sendMsix))
  split
  · refine .unless ?_ fun h1 => .ite h1.lapStore h1.lapAdd
    split
    · exact .unless (.when (.ite h.failLap h) fun h1 => h1.reportCommand) fun h1 => .writeCompletion (.when (.ite h.failLap h)
          fun h2 => h2.reportCommand)
    · exact .unless (.ite h.reportCommand h) fun h1 => .writeCompletion (.ite h.reportCommand h)
  · split
    · exact .unless (.when (.ite h.failLap h) fun h1 => h1.reportCommand) fun h1 => .writeCompletion (.when (.ite h.failLap h)
          fun h2 => h2.reportCommand)
    · exact .unless (.ite h.reportCommand h) fun h1 => .writeCompletion (.ite h.reportCommand h)

theorem Keeps.sendSignal {e : CmdEntry} {d : Nat} {counterFails : Bool} (h : Keeps r s) :
    Keeps r (Machine.sendSignal s e d counterFails) := by
  unfold Machine.sendSignal
  split
  · exact h.putCmd
  · dsimp only
    exact .ite (.putCmd (.iteFst h.sendReq h.sendReq)) (.completeCmd (.reportCommand (.iteFst h.sendReq h.sendReq)))

theorem Keeps.retire {q idx : Nat} {tableFails counterFails : Bool} (h : Keeps r s) :
    Keeps r (Machine.retire s q idx tableFails counterFails) := by
  unfold Machine.retire
  split
  · exact h
  · split
    · split
      · exact h
      · dsimp only
        split
        · exact h.reportCommand.sendSignal
        · exact h.reportCommand.completeCmd
    · exact h.completeCmd
    · exact h

theorem Keeps.haltCmd {q idx status : Nat} (h : Keeps r s) : Keeps r (Machine.haltCmd s q idx status) := by
  unfold Machine.haltCmd
  split
  · exact h
  · split
    · dsimp only
      split
      · exact .stopCmd (.leaveEngine (.dropHurdle (.frame (.ite h.scrambleAll h))))
      · exact .stopCmd (.dropHurdle (.frame (.ite h.scrambleAll h)))
    · exact h

theorem Keeps.commandTimeout {q idx : Nat} (h : Keeps r s) : Keeps r (Machine.commandTimeout s q idx) := by
  unfold Machine.commandTimeout
  split
  · exact h.timeoutColl
  · split
    · exact h
    · exact .ite h.putCmd h.haltCmd

theorem Keeps.installImage {b : List Byte} {epoch : Nat} (h : Keeps r s) : Keeps r (Machine.installImage s b epoch) :=
  h.frame.setF.setF.setF.setF.setF.setF.setF.foldl (fun _ _ h1 => h1.setF)

theorem Keeps.rerouteLoaded (h : Keeps r s) : Keeps r (Machine.rerouteLoaded s) :=
  (h.frame.foldl (fun _ _ h1 => h1.startReroute)).foldl (fun _ _ h1 => h1.rerouteAll)

theorem Keeps.loadImage {b : List Byte} {epoch : Nat} (h : Keeps r s) : Keeps r (Machine.loadImage s b epoch) :=
  h.installImage.raiseEv.rerouteLoaded

theorem Keeps.readImage {hits : List Hit} {a : Nat} {own : Option (Nat × Nat)} (h : Keeps r s) :
    Keeps r (Machine.readImage s hits a own).1 := by
  unfold Machine.readImage
  split
  · exact h
  · split
    next e => exact h.memRead.fst e
    next e =>
      dsimp only
      split
      · exact h.memRead.fst e
      · split
        next e1 => exact (h.memRead.fst e).memRead.fst e1
        next e1 => exact (h.memRead.fst e).memRead.fst e1

theorem Keeps.startHurdle {e : CmdEntry} (h : Keeps r s) : Keeps r (Machine.startHurdle s e) :=
  h.putCmd.frame.setF.hurdleHold.abandonLost

theorem Keeps.passHurdle {e : CmdEntry} (h : Keeps r s) : Keeps r (Machine.passHurdle s e) := h.setF.setF.raiseEv.frame.endCmd

theorem Keeps.failHurdle {e : CmdEntry} {reason : Nat} (h : Keeps r s) : Keeps r (Machine.failHurdle s e reason) :=
  h.dropHurdle.raiseEv.endCmd

theorem Keeps.failMilTable {e : CmdEntry} {reason : Nat} (h : Keeps r s) : Keeps r (Machine.failMilTable s e reason) :=
  h.dropHurdle.raiseEv.endCmd

theorem Keeps.checkImage {hits : List Hit} {e : CmdEntry} (h : Keeps r s) : Keeps r (Machine.checkImage s hits e).1 := by
  unfold Machine.checkImage
  split
  · exact h
  · split
    next e1 => exact h.readImage.fst e1
    next e1 => exact h.readImage.fst e1

theorem Keeps.hurdleLoad {q idx : Nat} {sur : Surround} (h : Keeps r s) : Keeps r (Machine.hurdleLoad s q idx sur) := by
  unfold Machine.hurdleLoad
  split
  · exact h
  · split
    · split
      next e => exact (h.checkImage.fst e).failHurdle
      next e =>
        split
        next e1 => exact ((h.checkImage.fst e).readMilTable.fst e1).failMilTable
        next e1 =>
          refine .passHurdle (.installMilTable ?_)
          split
          · exact ((h.checkImage.fst e).readMilTable.fst e1).loadImage
          · exact (h.checkImage.fst e).readMilTable.fst e1
    · exact h

/-! Sys2Proof/Machine/Streams.lean -/

theorem Keeps.sendOnPorts {ns : List Nat} {p : Parcel} (h : Keeps r s) : Keeps r (Machine.sendOnPorts s ns p) := by
  unfold Machine.sendOnPorts
  split
  · exact h
  · exact h.frame.sendFrame

theorem Keeps.sendHop {h1 : MilHop} {p : Parcel} (h : Keeps r s) : Keeps r (Machine.sendHop s h1 p) := by
  unfold Machine.sendHop
  split
  · exact h.sendOnPorts
  · exact .ite h.emit h
  · exact h

theorem Keeps.numberMsg {h1 : Parcel} (h : Keeps r s) : Keeps r (Machine.numberMsg s h1).1 := h.frame

theorem Keeps.readPiece {hits : List Hit} {m : MsgTx} {i : Nat} (h : Keeps r s) : Keeps r (Machine.readPiece s hits m i).1 := by
  unfold Machine.readPiece
  dsimp only
  split
  · exact h
  · split
    next e => exact h.memRead.fst e
    next e => exact h.memRead.fst e

theorem Keeps.countParcels {q idx : Nat} {resend : Bool} (h : Keeps r s) : Keeps r (Machine.countParcels s q idx resend) :=
  h.frame

theorem Keeps.sendPieces {hits : List Hit} {m : MsgTx} {resend : Bool} {is : List Nat} (h : Keeps r s) :
    Keeps r (Machine.sendPieces hits m resend is s).1 := by
  unfold Machine.sendPieces
  refine h.foldlFst ?_
  intro p a h1
  split
  · exact h1
  · split
    next e => exact h1.readPiece.fst e
    next e => exact (h1.readPiece.fst e).countParcels.sendHop

theorem Keeps.endMil {q idx status detail : Nat} (h : Keeps r s) : Keeps r (Machine.endMil s q idx status detail) := by
  unfold Machine.endMil
  split
  · exact h
  · exact h.frame.endCmd

theorem Keeps.settleMil {q idx : Nat} (h : Keeps r s) : Keeps r (Machine.settleMil s q idx) := .ite h.endMil h

theorem Keeps.sendMsg {hits : List Hit} {m : MsgTx} {resend : Bool} {is : List Nat} (h : Keeps r s) :
    Keeps r (Machine.sendMsg s hits m resend is) := by
  unfold Machine.sendMsg
  split
  next e => exact h.sendPieces.fst e
  next e => exact (h.sendPieces.fst e).endMil

theorem Keeps.resendAll {q idx : Nat} {sur : Surround} (h : Keeps r s) : Keeps r (Machine.resendAll s q idx sur) := by
  unfold Machine.resendAll
  split
  · exact h
  · split
    next e => exact (h.stageWords.fst e).endMil
    next e => exact (h.stageWords.fst e).foldl (fun _ _ h1 => .ite h1.sendMsg h1)

theorem Keeps.sendCtlParcel {h1 : Parcel} {back : Bool} {es : List CtlEntry} (h : Keeps r s) :
    Keeps r (Machine.sendCtlParcel s h1 back es) :=
  h.sendHop

theorem Keeps.ackMsg {h1 : Parcel} (h : Keeps r s) : Keeps r (Machine.ackMsg s h1) := h.sendCtlParcel

theorem Keeps.relayTimeout {q idx : Nat} (h : Keeps r s) : Keeps r (Machine.relayTimeout s q idx) := by
  unfold Machine.relayTimeout
  split
  · exact h
  · exact .ite h.frame.settleMil (h.foldl (fun _ _ h1 => h1.raiseEv.sendCtlParcel)).endMil

theorem Keeps.onAckEntry {from' : Nat} {c : CtlEntry} (h : Keeps r s) : Keeps r (Machine.onAckEntry s from' c) := by
  unfold Machine.onAckEntry
  dsimp only
  split
  · exact h
  · exact h.frame.settleMil

theorem Keeps.onResendEntry {hits : List Hit} {from' : Nat} {c : CtlEntry} (h : Keeps r s) :
    Keeps r (Machine.onResendEntry s hits from' c) := by
  unfold Machine.onResendEntry
  split
  · exact h
  · exact h.sendMsg

theorem Keeps.putStream {r1 : StreamRx} (h : Keeps r s) : Keeps r (Machine.putStream s r1) := h.frame

theorem Keeps.openStream {p : Parcel} (h : Keeps r s) : Keeps r (Machine.openStream s p) := by
  unfold Machine.openStream
  dsimp only
  split
  · exact h.putStream
  · exact .ite h.putStream (.ite h (.ite h.putStream h.frame.putStream))

theorem Keeps.countDuplicate (h : Keeps r s) : Keeps r (Machine.countDuplicate s) := h.frame

theorem Keeps.collect {n : Nat} {p : Parcel} (h : Keeps r s) : Keeps r (Machine.collect s n p) := by
  unfold Machine.collect
  dsimp only
  split
  · exact h.openStream
  · exact h.openStream.unless fun h1 => .ite h1.countDuplicate.ackMsg (.frame (.ite h1.countDuplicate h1))

theorem Keeps.markDelivered {h1 : Parcel} (h : Keeps r s) : Keeps r (Machine.markDelivered s h1) := by
  unfold Machine.markDelivered
  dsimp only
  split
  · exact h.frame
  · exact h.frame.putStream

theorem Keeps.onWithdrawEntry {dest : Nat} {c : CtlEntry} (h : Keeps r s) : Keeps r (Machine.onWithdrawEntry s dest c) := by
  unfold Machine.onWithdrawEntry
  dsimp only
  split
  · exact h.putStream
  · exact .ite h h.frame.putStream

theorem Keeps.noteTransit {n : Nat} {p : Parcel} (h : Keeps r s) : Keeps r (Machine.noteTransit s n p) := .ite h h.frame

theorem Keeps.endTransit {p : Parcel} (h : Keeps r s) : Keeps r (Machine.endTransit s p) := h.frame

theorem Keeps.askResend {m : MsgRx} (h : Keeps r s) : Keeps r (Machine.askResend s m) := .ite h h.sendCtlParcel

theorem Keeps.groupWait {n pnFirst : Nat} (h : Keeps r s) : Keeps r (Machine.groupWait s n pnFirst) := by
  unfold Machine.groupWait
  split
  · exact h
  · exact h.closeRx.satF.raiseEv.foldl (fun _ _ h1 => h1.askResend)

/-! Sys2Proof/Machine/Dma.lean -/

theorem Keeps.dmaPlace {sur : Surround} {e : CmdEntry} (h : Keeps r s) : Keeps r (Machine.dmaPlace sur s e) := by
  unfold Machine.dmaPlace
  dsimp only
  split
  next e1 => exact (h.placeCmd.readBlock.fst e1).endAllParts
  next e1 =>
    split
    · exact (h.placeCmd.readBlock.fst e1).endAllParts
    · split
      · exact (h.placeCmd.readBlock.fst e1).endAllParts
      · split
        · split
          · exact (h.placeCmd.readBlock.fst e1).takeRef.putCmd
          · exact (h.placeCmd.readBlock.fst e1).takeRef
        · split
          · exact (h.placeCmd.readBlock.fst e1).putCmd
          · exact h.placeCmd.readBlock.fst e1

theorem Keeps.dmaFail {p : DmaRun} {l : Nat} {r1 : Nat × Nat} (h : Keeps r s) : Keeps r (Machine.dmaFail p s l r1) := h.endPart

theorem Keeps.dmaRead {p : DmaRun} {l a n : Nat} (h : Keeps r s) : Keeps r (Machine.dmaRead p l s a n).1 := h.anyRead

theorem Keeps.dmaWrite {p : DmaRun} {l a : Nat} {bs : List Byte} (h : Keeps r s) : Keeps r (Machine.dmaWrite p l s a bs).1 :=
  h.anyWrite

theorem Keeps.dmaUnit {p : DmaRun} {l : Nat} {enc : Option (Table Nat × Nat)} {from' : Nat} {st : State × DmaAcc × Nat} {u : Nat
    × Nat} (h : Keeps r st.1) :
    Keeps r (Machine.dmaUnit p l enc from' st u).1 := by
  unfold Machine.dmaUnit
  split
  split
  · exact h
  · dsimp only
    split
    next e => exact (h.dmaRead.fst e).dmaFail
    next e =>
      split
      next e1 =>
        refine .fst (.dmaWrite ?_) e1
        split
        · exact h.dmaRead.fst e
        · exact (h.dmaRead.fst e).countEncoded
      next e1 =>
        refine .dmaFail (.fst (.dmaWrite ?_) e1)
        split
        · exact h.dmaRead.fst e
        · exact (h.dmaRead.fst e).countEncoded

theorem Keeps.dmaDecode {p : DmaRun} {l dst : Nat} {st : State × DmaAcc × Nat} {k : Nat} (h : Keeps r st.1) :
    Keeps r (Machine.dmaDecode p l dst st k).1 := by
  unfold Machine.dmaDecode
  split
  split
  · exact h
  · split
    next e => exact (h.dmaRead.fst e).dmaFail
    next e =>
      dsimp only
      split
      · exact (h.dmaRead.fst e).judgeBlock.dmaFail
      · split
        next e1 => exact ((h.dmaRead.fst e).dmaRead.fst e1).dmaFail
        next e1 =>
          split
          · exact ((h.dmaRead.fst e).dmaRead.fst e1).judgeBlock.dmaFail
          · split
            next e2 => exact ((h.dmaRead.fst e).dmaRead.fst e1).judgeBlock.dmaWrite.fst e2
            next e2 => exact (((h.dmaRead.fst e).dmaRead.fst e1).judgeBlock.dmaWrite.fst e2).dmaFail

theorem Keeps.dmaRow {p : DmaRun} {st : State × DmaAcc} {r1 : Nat} (h : Keeps r st.1) : Keeps r (Machine.dmaRow p st r1).1 :=
  .iteFst (.foldlFst (p := (st.1, _)) h fun _ _ h1 => h1.dmaDecode) (.foldlFst (p := (st.1, _)) h fun _ _ h1 => h1.dmaUnit)

theorem Keeps.dmaBody {sur : Surround} {e : CmdEntry} (h : Keeps r s) : Keeps r (Machine.dmaBody sur s e) := by
  unfold Machine.dmaBody
  dsimp only
  exact ((h.loseParts.foldlFst (fun _ _ h1 => h1.dmaRow)).when fun h1 => h1.foldl (fun _ _ h2 => h2.scramble)).endAllParts

theorem Keeps.dmaStep {q idx : Nat} {sur : Surround} (h : Keeps r s) : Keeps r (Machine.dmaStep s q idx sur) := by
  unfold Machine.dmaStep
  dsimp only
  split
  · exact h.onDispatch (fun _ _ h1 => h1.dmaPlace)
  · exact (h.onDispatch (fun _ _ h1 => h1.dmaPlace)).when fun h1 => h1.putCmd.dmaBody

theorem Keeps.andThen {α β : Type} {r1 : Reading α} {f : State → α → Reading β} (h : Keeps r r1.1) (H : ∀ s0 x1, Keeps r s0 →
    Keeps r (f s0 x1).1) :
    Keeps r (Machine.Reading.andThen r1 f).1 := by
  unfold Machine.Reading.andThen
  split
  · exact H _ _ h
  · exact h

/-! Sys2Proof/Machine/Update.lean -/

theorem Keeps.updRead {c : UpdCtx} {a n : Nat} (h : Keeps r s) : Keeps r (Machine.updRead c s a n).1 := h.anyRead

theorem Keeps.ownerRead {c : UpdCtx} {answers : List Answer} {dev : Option Nat} {a n : Nat} (h : Keeps r s) :
    Keeps r (Machine.ownerRead c answers s dev a n).1 :=
  h.anyRead

theorem Keeps.updWrite {c : UpdCtx} {a : Nat} {bs : List Byte} (h : Keeps r s) : Keeps r (Machine.updWrite c s a bs).1 := by
  unfold Machine.updWrite
  split
  next e => exact h.anyWrite.fst e
  next e => exact h.anyWrite.fst e

theorem Keeps.orEnd {v : ShardOut} {r1 : Reading ShardOut} (h : Keeps r r1.1) : Keeps r (Machine.Reading.orEnd v r1).1 := by
  unfold Machine.Reading.orEnd
  split
  · exact h
  · exact h

theorem Keeps.settleShard {v : ShardOut} {r1 : Reading ShardOut} (h : Keeps r r1.1) : Keeps r (Machine.settleShard v r1).1 := by
  unfold Machine.settleShard
  split
  · exact h
  · exact h

theorem Keeps.ownRecord {c : UpdCtx} {d : Shard} (h : Keeps r s) : Keeps r (Machine.ownRecord c s d).1 :=
  h.updRead.andThen (fun _ _ h1 => .iteFst h1 (.iteFst h1 h1.raiseEv))

theorem Keeps.writeRecord {c : UpdCtx} {d : Shard} {r1 : CommitRec} (h : Keeps r s) :
    Keeps r (Machine.writeRecord c s d r1).1 :=
  h.updWrite.andThen (fun _ _ h1 => h1.setF.setF)

theorem Keeps.reportSkip {step loss : Nat} (h : Keeps r s) : Keeps r (Machine.reportSkip s step loss) :=
  .ite h h.frame.satF.raiseEv

theorem Keeps.reportGrown {step loss : Nat} (h : Keeps r s) : Keeps r (Machine.reportGrown s step loss) :=
  .ite h h.frame.satF.raiseEv

theorem Keeps.readLayer {c : UpdCtx} {d : Shard} (h : Keeps r s) : Keeps r (Machine.readLayer c s d).1 :=
  .iteFst h (h.updRead.andThen (fun _ _ h1 => h1))

theorem Keeps.readSlot {c : UpdCtx} {d : Shard} {slot mode : Nat} {k5 : Bool} (h : Keeps r s) :
    Keeps r (Machine.readSlot c s d slot mode k5).1 :=
  h.updRead.andThen (fun _ _ h1 => h1.updRead.andThen (fun _ _ h2 => .iteFst h2 (h2.updRead.andThen (fun _ _ h3 => h3))))

theorem Keeps.writeSlot {c : UpdCtx} {d : Shard} {slot mode : Nat} {k5 : Bool} {w m1 m2 : List Byte} (h : Keeps r s) :
    Keeps r (Machine.writeSlot c s d slot mode k5 w m1 m2).1 :=
  h.updWrite.andThen (fun _ _ h1 => h1.updWrite.andThen (fun _ _ h2 => h2.updWrite))

theorem Keeps.formStep {c : UpdCtx} {d : Shard} {slot used : Nat} (h : Keeps r s) :
    Keeps r (Machine.formStep c s d slot used).1 :=
  h.readLayer.andThen (fun _ _ h1 => h1.readSlot.andThen (fun _ _ h2 => h2.updRead.andThen (fun _ _ h3 => h3)))

theorem Keeps.sweepStep {c : UpdCtx} {d : Shard} {p : CommitRec} (h : Keeps r s) : Keeps r (Machine.sweepStep c s d p).1 := by
  unfold Machine.sweepStep
  dsimp only
  exact .iteFst (h.writeRecord.andThen (fun _ _ h1 => h1.setF.reportSkip)) (h.formStep.andThen (fun _ _ h1 =>
      (h1.writeSlot.andThen (fun _ _ h2 => h2.writeRecord.andThen (fun _ _ h3 => h3.setF.when fun h4 =>
      h4.reportGrown))).orEnd))

theorem Keeps.judgeRedo {c : UpdCtx} {d : Shard} {p : CommitRec} {same : Bool} {v : ShardOut} (h : Keeps r s) :
    Keeps r (Machine.judgeRedo c s d p same v).1 :=
  .iteFst (h.writeRecord.andThen (fun _ _ h1 => h1.raiseEv)) h.raiseEv

theorem Keeps.sweepAgain {c : UpdCtx} {d : Shard} {p : CommitRec} (h : Keeps r s) : Keeps r (Machine.sweepAgain c s d p).1 :=
  .iteFst h (.iteFst h (.iteFst h (.iteFst (h.readSlot.andThen (fun _ _ h1 => h1.judgeRedo)) (.iteFst (h.readLayer.andThen (fun
      _ _ h1 => h1.readSlot.andThen (fun _ _ h2 => h2.updRead.andThen (fun _ _ h3 => h3.writeSlot.andThen (fun _ _ h4 =>
      h4.judgeRedo))))) (h.formStep.andThen (fun _ _ h1 => h1.writeSlot.andThen (fun _ _ h2 => h2.judgeRedo)))))))

theorem Keeps.innerShard {c : UpdCtx} {d : Shard} (h : Keeps r s) : Keeps r (Machine.innerShard c s d).1 := by
  unfold Machine.innerShard
  refine h.updRead.andThen ?_
  intro s0 x1 h1
  dsimp only
  split
  · exact h1
  · refine h1.ownRecord.andThen ?_
    intro s01 x11 h2
    split
    · exact h2
    · split
      · exact h2
      · split
        · exact h2
        · split
          · exact h2
          · exact h2

theorem Keeps.outerStep {c : UpdCtx} {d : Shard} {p : CommitRec} (h : Keeps r s) : Keeps r (Machine.outerStep c s d p).1 := by
  unfold Machine.outerStep
  refine h.innerShard.andThen ?_
  intro s0 x1 h1
  split
  exact h1.readLayer.andThen (fun _ _ h2 => h2.readSlot.andThen (fun _ _ h3 => h3.readSlot.andThen (fun _ _ h4 =>
      h4.updRead.andThen (fun _ _ h5 => h5.writeSlot.andThen (fun _ _ h6 => h6.writeSlot.andThen (fun _ _ h7 =>
      h7.writeRecord.andThen (fun _ _ h8 => h8.writeRecord.andThen (fun _ _ h9 => h9.setF))))))))

theorem Keeps.sweepShard {c : UpdCtx} {d : Shard} (h : Keeps r s) : Keeps r (Machine.sweepShard c s d).1 := by
  unfold Machine.sweepShard
  refine .settleShard ?_
  split
  · exact h
  · split
    · exact h
    · refine h.ownRecord.andThen ?_
      intro s0 x1 h1
      split
      · exact h1
      · exact .iteFst h1.sweepAgain (.iteFst h1 (.iteFst h1.outerStep (.iteFst h1 h1.sweepStep)))

theorem Keeps.reportMismatch {d : Shard} {step source : Nat} (h : Keeps r s) :
    Keeps r (Machine.reportMismatch s d step source) :=
  h.satF.raiseEv

theorem Keeps.fetchRecord {c : UpdCtx} {answers : List Answer} {d : Shard} {dev : Option Nat} (h : Keeps r s) :
    Keeps r (Machine.fetchRecord c answers s d dev).1 :=
  h.ownerRead.andThen (fun _ _ h1 => .iteFst h1 (.iteFst h1 h1.raiseEv))

theorem Keeps.fetchOnce {c : UpdCtx} {first again : List Answer} {d : Shard} {dev : Option Nat} {step : Nat} (h : Keeps r s) :
    Keeps r (Machine.fetchOnce c first again s d dev step).1 := by
  unfold Machine.fetchOnce
  refine h.fetchRecord.andThen ?_
  intro s0 x1 h1
  split
  · exact h1
  · split
    · exact h1
    · refine h1.ownerRead.andThen ?_
      intro s01 x11 h2
      refine h2.updWrite.andThen ?_
      intro s02 x12 h3
      refine h3.fetchRecord.andThen ?_
      intro s03 x13 h4
      split
      · exact .iteFst h4 (.iteFst h4 h4)
      · exact h4

theorem Keeps.fetchShard {c : UpdCtx} {d : Shard} {step source : Nat} {v : ShardOut} (h : Keeps r s) :
    Keeps r (Machine.fetchShard c s d step source v).1 := by
  unfold Machine.fetchShard
  refine .settleShard ?_
  split
  · exact h
  · split
    · exact h
    · refine h.fetchOnce.andThen ?_
      intro s0 x1 h1
      split
      · exact h1
      · exact h1.updWrite.andThen (fun _ _ h2 => h2)
      · exact h1.satF
      · split
        next e =>
          split
          · exact h1.reportMismatch.fst e
          · refine ((h1.reportMismatch.fst e).satF.fetchOnce.andThen ?_).orEnd
            intro s01 x1 h2
            split
            · exact h2
            · exact h2.updWrite.andThen (fun _ _ h3 => h3)
            · exact h2.satF
            · split
              next e1 => exact h2.reportMismatch.fst e1

theorem Keeps.auditOwn {c : UpdCtx} {d : Shard} (h : Keeps r s) : Keeps r (Machine.auditOwn c s d).1 :=
  .settleShard (.iteFst h (h.ownRecord.andThen (fun _ _ h1 => .iteFst h1 (h1.readSlot.andThen (fun _ _ h2 => .iteFst h2
      (h2.writeRecord.andThen (fun _ _ h3 => h3.reportMismatch)))))))

theorem Keeps.auditCopy {c : UpdCtx} {d : Shard} {v : ShardOut} (h : Keeps r s) : Keeps r (Machine.auditCopy c s d v).1 := by
  unfold Machine.auditCopy
  split
  · exact h.fetchShard
  · dsimp only
    split
    next e =>
      exact .fst (.iteFst h (h.updRead.andThen (fun _ _ h1 => .iteFst h1 (.iteFst h1.raiseEv (h1.updRead.andThen (fun _ _ h2 =>
          h2)))))) e
    next e =>
      exact .fst (.iteFst h (h.updRead.andThen (fun _ _ h1 => .iteFst h1 (.iteFst h1.raiseEv (h1.updRead.andThen (fun _ _ h2 =>
          h2)))))) e
    next e =>
      exact .fetchShard (.reportMismatch (.fst (.iteFst h (h.updRead.andThen (fun _ _ h1 => .iteFst h1 (.iteFst h1.raiseEv
          (h1.updRead.andThen (fun _ _ h2 => h2)))))) e))

theorem Keeps.runShard {c : UpdCtx} {d : Shard} {v : ShardOut} (h : Keeps r s) : Keeps r (Machine.runShard c s d v).1 :=
  .iteFst h.sweepShard (.iteFst h.fetchShard (.iteFst h.auditCopy h.auditOwn))

theorem Keeps.runShards {c : UpdCtx} {outs : List ShardOut} (h : Keeps r s) : Keeps r (Machine.runShards c s outs).1 := by
  unfold Machine.runShards
  refine h.foldlFst ?_
  intro p a h1
  split
  split
  split
  · exact h1
  · split
    next e => exact h1.updRead.fst e
    next e =>
      split
      next e1 => exact (h1.updRead.fst e).runShard.fst e1

theorem Keeps.finishUpd {q idx : Nat} {o : UpdOp} {outs : List ShardOut} (h : Keeps r s) :
    Keeps r (Machine.finishUpd s q idx o outs) :=
  .ite h.frame.frame h.frame.endCmd

theorem Keeps.updBody {sur : Surround} {e : CmdEntry} (h : Keeps r s) : Keeps r (Machine.updBody sur s e) := by
  unfold Machine.updBody
  split
  next e1 =>
    split
    exact (h.readBlock.fst e1).endCmd
  next e1 =>
    dsimp only
    exact .ite (h.readBlock.fst e1).putCmd.endCmd (h.readBlock.fst e1).putCmd.runShards.finishUpd

theorem Keeps.fetchRetry {q idx : Nat} {sur : Surround} (h : Keeps r s) : Keeps r (Machine.fetchRetry s q idx sur) := by
  unfold Machine.fetchRetry
  split
  · split
    · exact h
    · split
      next e => exact (h.stageWords.fst e).finishUpd
      next e =>
        dsimp only
        exact (h.stageWords.fst e).runShards.finishUpd
  · exact h

theorem Keeps.auditDone {sur : Surround} (h : Keeps r s) : Keeps r (Machine.auditDone s sur) := by
  unfold Machine.auditDone
  split
  · exact h
  · split
    · exact h
    · split
      next e => exact (h.stageWords.fst e).frame.setF
      next e =>
        dsimp only
        exact (h.stageWords.fst e).runShards.frame.setF

/-! Sys2Proof/Machine/Baton.lean -/

theorem Keeps.setRoundSlot {k : Nat} {r1 : RoundSlot} (h : Keeps r s) : Keeps r (Machine.setRoundSlot s k r1) := h.frame

theorem Keeps.claimRound {base : Nat} (h : Keeps r s) : Keeps r (Machine.claimRound s base).1 := by
  unfold Machine.claimRound
  dsimp only
  split
  · exact .iteFst h (.iteFst h.setRoundSlot h)
  · exact h.setRoundSlot

theorem Keeps.openRound {base : Nat} (h : Keeps r s) : Keeps r (Machine.openRound s base).1 := .iteFst h h.claimRound

theorem Keeps.appendRound {k : Nat} {bs : List Byte} (h : Keeps r s) : Keeps r (Machine.appendRound s k bs).1 := by
  refine .iteFst h ?_
  split
  next e => exact (h.targetWrite.fst e).setRoundSlot
  next e => exact h.targetWrite.fst e

/-- The kernel must not evaluate the room of a slot, a multiple of 2^20: what appendRound answers is taken as a variable. -/
theorem Keeps.storeBaton {b : List Byte} (h : Keeps r s) : Keeps r (Machine.storeBaton s b).1 := by
  conv => arg 2; arg 1; fun; fun; delta Machine.storeBaton
  extract_lets hd k
  have h1 := h.openRound (base := hd.base)
  generalize Machine.openRound _ _ = p at h1 ⊢
  split
  · exact h1
  next t =>
    have h2 := Keeps.appendRound (s := t) h1 (k := k) (bs := b)
    generalize List.find? _ _ = o
    generalize Machine.appendRound _ _ _ = p at h2 ⊢
    cases o with
    | some x => exact h1
    | none =>
      obtain ⟨t, _ | a⟩ := p
      · exact h2
      · exact h2.setRoundSlot.setF.frame

theorem Keeps.dropBaton {h1 : BatonHead} {reason : Nat} (h : Keeps r s) : Keeps r (Machine.dropBaton s h1 reason) := h.raiseEv

theorem Keeps.keepBaton {b : List Byte} (h : Keeps r s) : Keeps r (Machine.keepBaton s b).1 := by
  unfold Machine.keepBaton
  split
  next e => exact h.storeBaton.fst e
  next e => exact (h.storeBaton.fst e).dropBaton

theorem Keeps.hearBaton {w : BatonWait} (h : Keeps r s) : Keeps r (Machine.hearBaton s w) := by
  unfold Machine.hearBaton
  dsimp only
  split
  next e => exact h.openRound.fst e
  next e => exact (h.openRound.fst e).setRoundSlot.when fun h1 => h1.raiseEv

theorem Keeps.launch {sur : Surround} {e : CmdEntry} {h1 : Parcel} {pre : List Byte} {src len : Nat} (h : Keeps r s) :
    Keeps r (Machine.launch s sur e h1 pre src len) := by
  unfold Machine.launch
  split
  · exact h.frame
  · split
    next e1 => exact (h.numberMsg.fst e1).frame.sendMsg

theorem Keeps.beginMil {e : CmdEntry} {o : BatonOp} (h : Keeps r s) : Keeps r (Machine.beginMil s e o) := h.putCmd.frame

theorem Keeps.sendMust {sur : Surround} {e : CmdEntry} {o : BatonOp} {hs : List Parcel} {pre : List Byte} {src len : Nat} (h :
    Keeps r s) :
    Keeps r (Machine.sendMust s sur e o hs pre src len) := by
  unfold Machine.sendMust
  split
  · exact h.endCmd
  · exact (h.beginMil.foldl (fun _ _ h1 => h1.launch)).settleMil

theorem Keeps.sendRelay {sur : Surround} {o : BatonOp} {e : CmdEntry} (h : Keeps r s) : Keeps r (Machine.sendRelay sur o s e) :=
  h.sendMust

theorem Keeps.sendFlag {sur : Surround} {o : BatonOp} {e : CmdEntry} (h : Keeps r s) : Keeps r (Machine.sendFlag sur o s e) :=
  h.sendMust

theorem Keeps.sendTransfer {sur : Surround} {o : BatonOp} {e : CmdEntry} (h : Keeps r s) :
    Keeps r (Machine.sendTransfer sur o s e) :=
  h.sendMust

theorem Keeps.sendManifest {sur : Surround} {o : BatonOp} {e : CmdEntry} (h : Keeps r s) :
    Keeps r (Machine.sendManifest sur o s e) :=
  (h.beginMil.foldl (fun _ _ h1 => h1.launch)).settleMil

theorem Keeps.formBaton {c : UpdCtx} {o : BatonOp} {i total : Nat} {d : Shard} (h : Keeps r s) :
    Keeps r (Machine.formBaton c o i total s d).1 :=
  .iteFst h (h.ownRecord.andThen (fun _ _ h1 => h1.innerShard.andThen (fun _ _ h2 => h2.updRead.andThen (fun _ _ h3 =>
      h3.updRead.andThen (fun _ _ h4 => h4.updRead.andThen (fun _ _ h5 => h5.updWrite.andThen (fun _ _ h6 => h6.foldl (fun _ _
      h7 => h7.countEncoded))))))))

theorem Keeps.noteFormed {base n : Nat} (h : Keeps r s) : Keeps r (Machine.noteFormed s base n) := .ite h.setRoundSlot h

theorem Keeps.noteOverflow {q idx : Nat} {ovf : Bool} (h : Keeps r s) : Keeps r (Machine.noteOverflow s q idx ovf) := h.frame

theorem Keeps.sendBaton {sur : Surround} {o : BatonOp} {e : CmdEntry} {first i : Nat} (h : Keeps r s) :
    Keeps r (Machine.sendBaton sur o e first s i) := by
  unfold Machine.sendBaton
  dsimp only
  split
  · exact h
  · split
    next e1 => exact ((h.updRead.andThen (fun _ _ h1 => h1.formBaton)).fst e1).endMil
    next e1 =>
      split
      next e2 => exact ((h.updRead.andThen (fun _ _ h1 => h1.formBaton)).fst e1).noteOverflow.keepBaton.fst e2
      next e2 =>
        exact (((h.updRead.andThen (fun _ _ h1 => h1.formBaton)).fst e1).noteOverflow.keepBaton.fst e2).foldl (fun _ _ h1 =>
            h1.launch)

theorem Keeps.sendBatons {sur : Surround} {o : BatonOp} {e : CmdEntry} (h : Keeps r s) :
    Keeps r (Machine.sendBatons sur o s e) :=
  .ite h.endCmd (.ite h.endCmd (h.beginMil.foldl (fun _ _ h1 => h1.sendBaton)).noteFormed.settleMil)

/-! Sys2Proof/Machine/Flr.lean -/

theorem Keeps.abandonResults (h : Keeps r s) : Keeps r (Machine.abandonResults s) :=
  h.foldl (fun _ _ h1 => .ite h1.scrambleAll.clearTags h1)

theorem Keeps.flrEffects (h : Keeps r s) : Keeps r (Machine.flrEffects s) :=
  h.abandonResults.abandonCmds.frame.flrPages.closeExperts.setF.setF.setF.applyEventDefaults.satF

theorem Keeps.functionLevelReset {c : FlrCause} (h : Keeps r s) : Keeps r (Machine.functionLevelReset s c) := by
  unfold Machine.functionLevelReset
  split
  · exact h
  · split
    · exact .ite h (h.frame.when fun h1 => h1.flrEffects)
    · exact .ite h.flrEffects h
    · exact .ite h.frame h
    · exact .ite h.frame.flrEffects h

theorem Keeps.flrComplete (h : Keeps r s) : Keeps r (Machine.flrComplete s) := .ite h.frame h

/-! Sys2Proof/Machine/Blocks.lean -/

theorem Keeps.enableQueue {q : Nat} (h : Keeps r s) : Keeps r (Machine.enableQueue s q) :=
  .ite h.satF (.ite h h.setF.setF.setF.setF.setF.setBlk)

theorem Keeps.enablePage {page : Nat} (h : Keeps r s) : Keeps r (Machine.enablePage s page) := by
  unfold Machine.enablePage
  split
  · exact h.enableQueue
  · exact h.setF.when fun h1 => h1.setBlk

theorem Keeps.disablePage {page : Nat} (h : Keeps r s) : Keeps r (Machine.disablePage s page) :=
  h.setF.unless fun h1 => h1.setBlk

theorem Keeps.blockDrained {page : Nat} (h : Keeps r s) : Keeps r (Machine.blockDrained s page) := .ite h.setBlk.setF h

theorem Keeps.abortWhere {f : CmdEntry → Bool} (h : Keeps r s) : Keeps r (Machine.abortWhere s f) :=
  h.foldl (fun _ _ h1 => h1.haltCmd)

theorem Keeps.resetQueue {q : Nat} (h : Keeps r s) : Keeps r (Machine.resetQueue s q) := .ite h h.abortWhere.setF.setBlk

theorem Keeps.clearCabouz (h : Keeps r s) : Keeps r (Machine.clearCabouz s) := h.foldl (fun _ _ h1 => h1.setReg)

theorem Keeps.softEffect {page : Nat} (h : Keeps r s) : Keeps r (Machine.softEffect s page) := by
  unfold Machine.softEffect
  split
  · exact h.resetQueue
  · exact h.laneReset
  · exact h.frame.setF
  · exact h.clearCabouz
  · exact h.portReset
  · exact h.abortWhere.frame
  · exact h.abortWhere
  · exact .ite h.setBlk h
  · exact h

theorem Keeps.softReset {page : Nat} (h : Keeps r s) : Keeps r (Machine.softReset s page) :=
  .ite h (h.setF.softEffect.when fun h1 => h1.setBlk).setF

theorem Keeps.writeBlkCtrl {page : Nat} {v : Word} (h : Keeps r s) : Keeps r (Machine.writeBlkCtrl s page v) :=
  .when (.ite h.writeUnlock.enablePage (h.writeUnlock.when fun h1 => h1.disablePage)) fun h1 => h1.softReset

/-! Sys2Proof/Machine/Cellar.lean -/

theorem Keeps.applyPpr {st : State × List (Nat × Nat × Nat)} {c : Nat × Nat × Nat} (h : Keeps r st.1) :
    Keeps r (Machine.applyPpr st c).1 := by
  unfold Machine.applyPpr
  split
  dsimp only
  split
  · exact h.frame.satF.raiseEv
  · exact h.raiseEv

theorem Keeps.showPkg {spares : List (Nat × Nat × Nat)} {pkg : Nat} (h : Keeps r s) : Keeps r (Machine.showPkg spares s pkg) :=
  h.setF.setF

theorem Keeps.failPkg {f : Nat × Nat} (h : Keeps r s) : Keeps r (Machine.failPkg s f) := h.setF.setF.satF.raiseEv

theorem Keeps.cellarTrainingDone {failed : List (Nat × Nat)} {spares : List (Nat × Nat × Nat)} (h : Keeps r s) :
    Keeps r (Machine.cellarTrainingDone s failed spares) := by
  unfold Machine.cellarTrainingDone
  split
  · exact h
  · dsimp only
    exact .ite ((((h.foldl (fun _ _ h1 => h1.setF)).foldlFst (fun _ _ h1 => h1.applyPpr)).foldl (fun _ _ h1 =>
        h1.showPkg)).setF.setF.frame.foldl (fun _ _ h1 => h1.setBlk)).setF.setF ((h.foldl (fun _ _ h1 => h1.setF)).foldl (fun _
        _ h1 => h1.failPkg)).blkFault

theorem Keeps.retrain {pkg : Nat} {drifts : List Int} (h : Keeps r s) : Keeps r (Machine.retrain s pkg drifts) := .ite h h.satF

theorem Keeps.retrainNow {pkg : Nat} {drifts : List Int} (h : Keeps r s) : Keeps r (Machine.retrainNow s pkg drifts) :=
  .ite h.satF (.ite h.retrain h)

theorem Keeps.mr4Poll {pkg rate : Nat} {above : Bool} (h : Keeps r s) : Keeps r (Machine.mr4Poll s pkg rate above) :=
  (h.setF.frame.when fun h1 => h1.raiseEv).setPace

theorem Keeps.patrolRead {line : Nat} {hits : List Hit} {last : Bool} (h : Keeps r s) :
    Keeps r (Machine.patrolRead s line hits last) :=
  .ite (.when (.ite h.memRead h) fun h1 => h1.satF) h

theorem Keeps.initRegion {ch ms : Nat} (h : Keeps r s) : Keeps r (Machine.initRegion s ch ms) := .ite h.setInit h

/-! Sys2Proof/Machine/Keys.lean -/

theorem Keeps.showKeys (h : Keeps r s) : Keeps r (Machine.showKeys s) :=
  h.setF.setF.setF.setF.setF.setF.setF.setF.setF.setF.setF

theorem Keeps.keyFields {v : Word} (h : Keeps r s) : Keeps r (Machine.keyFields s v) := h.setF.setF.setF

theorem Keeps.keyInstall {v : Word} {unwraps : Bool} (h : Keeps r s) : Keeps r (Machine.keyInstall s v unwraps) :=
  .ite h.keyFields.setF.raiseEv (.ite h.keyFields.setF (.ite h.keyFields.setF (.raiseEv (.showKeys (.setF (.ite
      h.keyFields.setMilPort h.keyFields.setMilPort))))))

theorem Keeps.keyErase {v : Word} (h : Keeps r s) : Keeps r (Machine.keyErase s v) :=
  .ite h.keyFields.setF (.ite h.keyFields.setF h.keyFields.setMilPort.setF.showKeys)

theorem Keeps.keySched {v : Word} (h : Keeps r s) : Keeps r (Machine.keySched s v) :=
  .ite h.setF.setF.setF.setF.setF.raiseEv (.ite h.setF.setF.setF.setF.setF.raiseEv (.ite h.setF.setF.setF.setF.setF.raiseEv
      h.setF.setF.setF.setF.setMilPort.setF.showKeys))

theorem Keeps.keyInstant {n : Nat} {receive : Bool} (h : Keeps r s) : Keeps r (Machine.keyInstant s n receive) := by
  unfold Machine.keyInstant
  split
  · split
    · exact h
    · exact h.setMilPort.showKeys
  · split
    · exact h
    · exact .ite h.closeGroup.setMilPort.showKeys h.closeGroup.setMilPort.showKeys.raiseEv

theorem Keeps.eraseOldTx {n : Nat} (h : Keeps r s) : Keeps r (Machine.eraseOldTx s n) := by
  unfold Machine.eraseOldTx
  dsimp only
  split
  · exact h
  · exact h.setMilPort.showKeys

theorem Keeps.graceExpiry {n : Nat} (h : Keeps r s) : Keeps r (Machine.graceExpiry s n) := by
  unfold Machine.graceExpiry
  dsimp only
  split
  · exact h
  · exact h.setMilPort.showKeys.raiseEv

/-! Sys2Proof/Machine/Steward.lean -/

theorem Keeps.lapseTrial (h : Keeps r s) : Keeps r (Machine.lapseTrial s) := by
  unfold Machine.lapseTrial
  dsimp only
  split
  · exact h
  · split
    · exact h.frame.writeBoot
    · exact .ite h.frame.writeBoot h

theorem Keeps.watchdogExpiry {which : Nat} (h : Keeps r s) : Keeps r (Machine.watchdogExpiry s which) :=
  .ite h ((h.frame.satF.frame.raiseEv.lapseTrial.foldl (fun _ _ h1 => h1.endCmd)).frame.setBlk.when fun h1 =>
      h1.frame.setF.blkFault)

theorem Keeps.stewardRestarted {readOk : Bool} (h : Keeps r s) : Keeps r (Machine.stewardRestarted s readOk) :=
  .ite h (h.serveAgain.when fun h1 => h1.frame.emit).maybeApply

theorem Keeps.doeWait {protocol : Nat} {bytes : List Byte} (h : Keeps r s) : Keeps r (Machine.doeWait s protocol bytes) :=
  .ite h (.ite h.emit h.frame)

theorem Keeps.readRecord {record : Option (List Byte)} {hi : Word} {hits : List Hit} (h : Keeps r s) :
    Keeps r (Machine.readRecord s record hi hits).1 := by
  unfold Machine.readRecord
  split
  · exact h
  · dsimp only
    split
    · exact h.setF
    · split
      next e => exact h.setF.memRead.fst e
      next e =>
        split
        · exact h.setF.memRead.fst e
        · split
          · exact h.setF.memRead.fst e
          · split
            next e1 => exact (h.setF.memRead.fst e).memRead.fst e1
            next e1 => exact (h.setF.memRead.fst e).memRead.fst e1

theorem Keeps.answerRecord {record : Option (List Byte)} {code : Nat} {more : List Byte} (h : Keeps r s) :
    Keeps r (Machine.answerRecord s record code more) :=
  .ite h.emit h

theorem Keeps.recordRow {ok : Nat → Bool} {record : Option (List Byte)} {hi : Word} {hits : List Hit} {body : State → List Byte
    → State} (h : Keeps r s) (H : ∀ s0 x1, Keeps r s0 → Keeps r (body s0 x1)) :
    Keeps r (Machine.recordRow ok s record hi hits body) := by
  unfold Machine.recordRow
  split
  · split
    · exact h.doeWait
    · exact h
  · split
    · exact h.emit
    · split
      next e => exact h.readRecord.fst e
      next e => exact (h.readRecord.fst e).when fun h1 => H _ _ h1

theorem Keeps.updateManifest {record : Option (List Byte)} {r1 : List Byte} (h : Keeps r s) :
    Keeps r (Machine.updateManifest record s r1) := by
  unfold Machine.updateManifest
  dsimp only
  split
  · exact h.raiseEv.answerRecord
  · exact h.frame.showUpdate.answerRecord

theorem Keeps.updatePiece {record : Option (List Byte)} {r1 : List Byte} (h : Keeps r s) :
    Keeps r (Machine.updatePiece record s r1) :=
  .ite h.raiseEv.answerRecord (.answerRecord (.ite h h.frame.maybeApply))

theorem Keeps.updateStatus {record : Option (List Byte)} {r1 : List Byte} (h : Keeps r s) :
    Keeps r (Machine.updateStatus record s r1) :=
  .ite h.answerRecord h.answerRecord

theorem Keeps.applyFails {off : Nat} (h : Keeps r s) : Keeps r (Machine.applyFails s off) := h.frame.showUpdate.raiseEv

theorem Keeps.applyDone {flashFails : Option Nat} (h : Keeps r s) : Keeps r (Machine.applyDone s flashFails) := by
  unfold Machine.applyDone
  split
  · exact h
  · dsimp only
    split
    · exact h.frame.applyFails
    · exact h.frame.applyFails
    · exact .ite h.frame.applyFails h.frame.writeBoot.frame.showUpdate.setF.raiseEv

theorem Keeps.dropStaging (h : Keeps r s) : Keeps r (Machine.dropStaging s) := h.frame.showUpdate

theorem Keeps.fwuConfirm (h : Keeps r s) : Keeps r (Machine.fwuConfirm s) :=
  .ite h (h.writeBoot.fuse.setF.dropStaging.when fun h1 => h1.confirmBurn)

theorem Keeps.fwuRevert (h : Keeps r s) : Keeps r (Machine.fwuRevert s) := .ite h h.writeBoot.setF.setF.dropStaging

theorem Keeps.fwuAbandon (h : Keeps r s) : Keeps r (Machine.fwuAbandon s) := .ite h h.dropStaging

theorem Keeps.fwuApply (h : Keeps r s) : Keeps r (Machine.fwuApply s) := .ite h.beginApply h

/-! Sys2Proof/Machine/Identity.lean -/

theorem Keeps.attestRow {request : List Byte} {t : State} (h : Keeps r s) (h1 : Keeps r t) :
    Keeps r (Machine.attestRow s request t) :=
  .ite h.doeWait (.ite h1 h.emit)

theorem Keeps.attestReport {nonce : List Byte} (h : Keeps r s) : Keeps r (Machine.attestReport s nonce) := h.frame.emit

theorem Keeps.attestEndorsement (h : Keeps r s) : Keeps r (Machine.attestEndorsement s) := h.emit

theorem Keeps.setKek {ct : List Byte} (h : Keeps r s) : Keeps r (Machine.setKek s ct) := .ite h.emit h.frame.setF.raiseEv.emit

theorem Keeps.debugChallenge (h : Keeps r s) : Keeps r (Machine.debugChallenge s) := h.frame.emit

theorem Keeps.eraseAssocs {n : Nat} (h : Keeps r s) : Keeps r (Machine.eraseAssocs s n) := h.setMilPort

theorem Keeps.debugUnlock {key : List Byte} {serial : Nat} {challenge : List Byte} {scope : Nat} {sig : List Byte} (h : Keeps r
    s) :
    Keeps r (Machine.debugUnlock s key serial challenge scope sig) := by
  unfold Machine.debugUnlock
  dsimp only
  split
  · exact h.frame.raiseEv.emit
  · exact h.frame.eraseAssocs.eraseAssocs.showKeys.setF.setF.raiseEv.emit

theorem Keeps.doeDiscovery {index : Nat} (h : Keeps r s) : Keeps r (Machine.doeDiscovery s index) := .ite h.emit h.emit

theorem Keeps.management {addr : Nat} {req : MgmtReq} (h : Keeps r s) : Keeps r (Machine.management s addr req) := by
  unfold Machine.management
  split
  · exact h
  · split
    · split
      · exact h.emit
      · exact h
    · exact .ite h h.frame.settleAlert

/-! Sys2Proof/Machine/Pacers.lean -/

theorem Keeps.droopDetect {l mv : Nat} (h : Keeps r s) : Keeps r (Machine.droopDetect s l mv) := .ite h h.setLane.satF

theorem Keeps.droopRelease {l slots mv : Nat} (h : Keeps r s) : Keeps r (Machine.droopRelease s l slots mv) :=
  .ite h h.setLane.frame.satF

theorem Keeps.voltageTick {d count : Nat} (h : Keeps r s) : Keeps r (Machine.voltageTick s d count) :=
  .ite h (h.setF.frame.when fun h1 => h1.raiseEv)

theorem Keeps.capTick {mvA maA mvB maB : Nat} (h : Keeps r s) : Keeps r (Machine.capTick s mvA maA mvB maB) :=
  .ite h (.settleAlert (.ite (h.frame.setF.setF.setF.frame.when fun h1 => h1.raiseEv).setPace (h.frame.setF.setF.setF.frame.when
      fun h1 => h1.setPace)))

theorem Keeps.thermalSample {x : ThermalReading} (h : Keeps r s) : Keeps r (Machine.thermalSample s x) := by
  unfold Machine.thermalSample
  dsimp only
  exact .settleAlert (.ite (.setPace (.ite (h.frame.foldl (fun _ _ h1 => h1.setF)).frame.raiseEv (h.frame.foldl (fun _ _ h1 =>
      h1.setF)).frame)) (.ite ((h.frame.foldl (fun _ _ h1 => h1.setF)).frame.setPace.when fun h1 => h1.frame.raiseEv)
      (h.frame.foldl (fun _ _ h1 => h1.setF)).frame))

theorem Keeps.profileWrite {v : Word} {hits : List Hit} (h : Keeps r s) : Keeps r (Machine.profileWrite s v hits) := by
  unfold Machine.profileWrite
  dsimp only
  split
  · exact h
  · split
    · exact h.setF
    · refine .setF (.frame ?_)
      split
      · exact h.setF
      · split
        next e => exact h.setF.memRead.fst e
        next e => exact .iteFst (h.setF.memRead.fst e) (h.setF.memRead.fst e).memRead

theorem Keeps.profileWriteDone {flashOk : Bool} (h : Keeps r s) : Keeps r (Machine.profileWriteDone s flashOk) := by
  unfold Machine.profileWriteDone
  split
  · exact h
  · exact .ite h (.raiseEv (.setF (.setF (.ite h.frame.frame (h.frame.when fun h1 => h1.frame)))))

theorem Keeps.darken {n : Nat} (h : Keeps r s) : Keeps r (Machine.darken s n) := h.frame.drainPort.portDown.setPort.setF

theorem Keeps.releaseForSwitch {axisY : Bool} (h : Keeps r s) : Keeps r (Machine.releaseForSwitch s axisY) :=
  .when (.ite h.releaseAxis h) fun h1 => h1.wantKeeper

theorem Keeps.leavePorts {ports : Nat} (h : Keeps r s) : Keeps r (Machine.leavePorts s ports) :=
  .foldl (.when (.ite h.releaseForSwitch h) fun h1 => h1.releaseForSwitch) (fun _ _ h1 => h1.darken)

theorem Keeps.holdPages {three : Bool} (h : Keeps r s) : Keeps r (Machine.holdPages s three) :=
  h.foldl (fun _ _ h1 => .ite h1.setBlk (.ite h1.setBlk h1))

theorem Keeps.allowAxes (h : Keeps r s) : Keeps r (Machine.allowAxes s) :=
  .ite h (.ite (.setF (.ite h.setF (.ite h.releaseAxis h))) (.when (.ite h.setF (.ite h.releaseAxis h)) fun h1 => .releaseAxis
      (.ite h.setF (.ite h.releaseAxis h))))

theorem Keeps.switchTo {n : Nat} {p : Prof} {keepCal : Bool} (h : Keeps r s) : Keeps r (Machine.switchTo s n p keepCal) :=
  (((h.leavePorts.foldl (fun _ _ h1 => .ite h1.milLink h1)).applyProfile.holdPages.setF.setF.setF.foldl (fun _ _ h1 =>
      h1.queuePort)).when fun h1 => h1.setF.setF).allowAxes.satF.raiseEv

theorem Keeps.profileSwitch {e : CmdEntry} (h : Keeps r s) : Keeps r (Machine.profileSwitch s e) := by
  unfold Machine.profileSwitch
  dsimp only
  split
  · exact h.endCmd
  · split
    · exact h.endCmd
    · split
      · exact h.endCmd
      · exact h.putCmd.switchTo.endCmd

theorem Keeps.adaptTaps (h : Keeps r s) : Keeps r (Machine.adaptTaps s) := h.foldl (fun _ _ h1 => h1.freshTaps)

/-! Sys2Proof/Machine/Time.lean -/

theorem Keeps.setPs {t : Int} (h : Keeps r s) : Keeps r (Machine.setPs s t) := h.frame

theorem Keeps.tickClock (h : Keeps r s) : Keeps r (Machine.tickClock s) := .ite h.frame.frame h.frame.frame

theorem Keeps.noteOffset {theta : Int} (h : Keeps r s) : Keeps r (Machine.noteOffset s theta) := .setF (.ite h.satF h.setF)

theorem Keeps.settleTime (h : Keeps r s) : Keeps r (Machine.settleTime s) := .ite h (h.setF.unless fun h1 => h1.setF.raiseEv)

theorem Keeps.applyOffset {theta : Int} (h : Keeps r s) : Keeps r (Machine.applyOffset s theta) :=
  .ite h.setPs.frame.noteOffset.raiseEv h.frame.noteOffset.settleTime

theorem Keeps.takeExchange {t1 t2 t3 t4 a : Int} (h : Keeps r s) : Keeps r (Machine.takeExchange s t1 t2 t3 t4 a) :=
  .ite (.frame (.ite h.setF.setF h)) (.applyOffset (.frame (.ite h.setF.setF h)))

theorem Keeps.writeTimSrc {v : Word} (h : Keeps r s) : Keeps r (Machine.writeTimSrc s v) := h.applyTimSrc

theorem Keeps.stadiumTime {n : Nat} {m : Option LinkMsg} {stamp : Nat} (h : Keeps r s) :
    Keeps r (Machine.stadiumTime s n m stamp) := by
  unfold Machine.stadiumTime
  split
  · exact h
  · split
    · exact .ite h.sendCtl h
    · exact .ite h.sendCtl h
    · exact .ite h.takeExchange h
    · exact h

theorem Keeps.sendPtp {n : Nat} {m : PtpMsg} (h : Keeps r s) : Keeps r (Machine.sendPtp s n m) := by
  unfold Machine.sendPtp
  split
  · exact h
  · exact .ite h.emit.takePn h

theorem Keeps.ptpIn {n : Nat} {m : PtpMsg} {stamp : Nat} (h : Keeps r s) : Keeps r (Machine.ptpIn s n m stamp) := by
  unfold Machine.ptpIn
  dsimp only
  split
  · exact .ite h.frame h
  · split
    · exact .ite h.frame.sendPtp h
    · exact h
  · exact .ite h.sendPtp h
  · split
    · exact .ite h.frame.takeExchange h
    · exact h
  · exact h

theorem Keeps.ptpMessage {n an pn : Nat} {icv : Bool} {domain : Nat} {m : PtpFrame} {stamp : Nat} (h : Keeps r s) :
    Keeps r (Machine.ptpMessage s n an pn icv domain m stamp) := by
  unfold Machine.ptpMessage
  split
  · exact h
  · split
    next e => exact h.takeWire.fst e
    next e =>
      split
      next e1 => exact (h.takeWire.fst e).verifyFrame.fst e1
      next e1 => exact ((h.takeWire.fst e).verifyFrame.fst e1).when fun h1 => h1.ptpIn

theorem Keeps.ptpSync {n : Nat} (h : Keeps r s) : Keeps r (Machine.ptpSync s n) := .ite h.frame.sendPtp.sendPtp h

theorem Keeps.sourceLost (h : Keeps r s) : Keeps r (Machine.sourceLost s) := .ite h.frame.setF.raiseEv h

theorem Keeps.armSeconds {v : Word} (h : Keeps r s) : Keeps r (Machine.armSeconds s v) := h.setF.frame

theorem Keeps.ppsEdge (h : Keeps r s) : Keeps r (Machine.ppsEdge s) := by
  unfold Machine.ppsEdge
  split
  · exact h
  · dsimp only
    split
    · exact h.frame
    · exact h.frame.setF.unless fun h1 => h1.setF.raiseEv

/-! Sys2Proof/Machine/Bus.lean -/

theorem Keeps.writeCbzTbl {n o : Nat} {v : Word} (h : Keeps r s) : Keeps r (Machine.writeCbzTbl s n o v) :=
  .ite h (.ite h.tableLenWrite (.ite h.tableCtrlWrite h))

theorem Keeps.writeQueueCfg {q : Nat} {v : Word} (h : Keeps r s) : Keeps r (Machine.writeQueueCfg s q v) :=
  .setReg (.ite h.satF h)

theorem Keeps.writeQueue {q a o : Nat} {v : Word} (h : Keeps r s) : Keeps r (Machine.writeQueue s q a o v) :=
  .ite h.doorbell (h.plainWrite.when fun h1 => .ite h.satF (.ite h.writeQueueCfg h1))

theorem Keeps.writeEvq {a o : Nat} {v : Word} (h : Keeps r s) : Keeps r (Machine.writeEvq s a o v) :=
  h.plainWrite.unless fun h1 => .ite h.writeEvqCfg (.ite h.writeEvqHead (.ite h.satF h1))

theorem Keeps.writeRst {o : Nat} {v : Word} (h : Keeps r s) : Keeps r (Machine.writeRst s o v) :=
  .ite (.ite h.satF (.ite h.startLaneReset h.setF)) (.ite (.ite h.satF (.ite h.startPortReset h.setF)) h)

theorem Keeps.writeNum {a o : Nat} {v : Word} (h : Keeps r s) : Keeps r (Machine.writeNum s a o v) :=
  .ite h.declareJob (.ite (.ite h.denyJob h.plainWrite) (.ite h.selectSlot (.ite h.commitWindow (.ite h.stageWord
      h.plainWrite))))

theorem Keeps.writeKey {a o : Nat} {v : Word} {x : BusSur} (h : Keeps r s) : Keeps r (Machine.writeKey s a o v x) :=
  .ite h.setReg (.ite (.ite h.keyInstall (.ite h.keyErase h.keyFields)) (.ite h.keySched h.plainWrite))

theorem Keeps.submitRecord {hi : Word} {x : BusSur} (h : Keeps r s) : Keeps r (Machine.submitRecord s hi x) := by
  unfold Machine.submitRecord
  dsimp only
  split
  · exact h.setF
  · split
    next e => exact h.setF.readRecord.fst e
    next e => exact .ite (h.setF.readRecord.fst e).updateManifest ((h.setF.readRecord.fst e).when fun h1 => h1.updatePiece)

theorem Keeps.writeFwuCtrl {a : Nat} {v : Word} (h : Keeps r s) : Keeps r (Machine.writeFwuCtrl s a v) :=
  .ite h (.when (.when (.ite h.plainWrite.fwuConfirm (.ite h.plainWrite.fwuRevert (h.plainWrite.when fun h1 => h1.fwuAbandon)))
      fun h1 => h1.fwuApply) fun h1 => h1.maybeApply)

theorem Keeps.writePkgTrain {a pkg : Nat} {v : Word} {x : BusSur} (h : Keeps r s) :
    Keeps r (Machine.writePkgTrain s a pkg v x) :=
  h.plainWrite.setF.when fun h1 => h1.retrainNow

theorem Keeps.busWrite {a : Nat} {v : Word} {x : BusSur} (h : Keeps r s) : Keeps r (Machine.busWrite s a v x) := by
  unfold Machine.busWrite
  dsimp only
  split
  · exact h.bar0UnmappedWrite
  · split
    · exact h.writeBlkCtrl
    · split
      · exact h.eventClear
      · split
        · exact h.eventInject
        · split
          · exact h.plainWrite
          · split
            · exact h.satF
            · split
              · exact h.writeRst
              · exact .ite h.profileWrite h.plainWrite
              · exact .ite h.writeFwuCtrl (.ite h.submitRecord h.plainWrite)
              · exact h.writeEvq
              · exact h.writeQueue
              · exact .ite h.hostLapAdd h.plainWrite
              · exact h.writeNum
              · exact h.writeCbzTbl
              · exact .ite h.writePkgTrain h.plainWrite
              · exact .ite h.writeKeep h.plainWrite
              · exact .ite h.writePortLane h.plainWrite
              · exact .ite h h.plainWrite
              · exact .ite h.writeTimSrc (.ite h.armSeconds h.plainWrite)
              · exact h.writeKey
              · exact h.plainWrite

theorem Keeps.busWriteN {a size v : Nat} {x : BusSur} (h : Keeps r s) : Keeps r (Machine.busWriteN s a size v x) :=
  h.busWrite.when fun h1 => h1.busWrite

theorem Keeps.bar0Write {off size v : Nat} {x : BusSur} (h : Keeps r s) : Keeps r (Machine.bar0Write s off size v x) :=
  h.bar0Early (.ite (h.onPage h.bar0BadAccess) (.ite (h.onPage (h.bar0UnmappedWrite.when fun h1 => h1.bar0UnmappedWrite))
      (h.onPage h.busWriteN)))

theorem Keeps.bar4Write {off size v : Nat} (h : Keeps r s) : Keeps r (Machine.bar4Write s off size v) :=
  .ite h (h.storeMsix.when fun h1 => h1.storeMsix)

/-! Sys2Proof/Machine/Export.lean -/

theorem Keeps.putRec {c : UpdCtx} {x : ExpOp} {acc : ExpAcc} {h1 : RecHead} {payload : List Byte} (h : Keeps r s) :
    Keeps r (Machine.putRec c x s acc h1 payload).1 := by
  unfold Machine.putRec
  dsimp only
  split
  · exact h
  · split
    next e => exact h.anyWrite.fst e
    next e => exact h.anyWrite.fst e

theorem Keeps.goOn {α β : Type} {f : State → β → α → Reading β} {l : List α} {b : β} (h : Keeps r s)
    (H : ∀ s b a, Keeps r s → Keeps r (f s b a).1) : Keeps r (Machine.goOn f l s b).1 := by
  induction l generalizing s b with
  | nil => exact h
  | cons a l ih => exact (H s b a h).andThen fun _ _ h1 => ih h1

theorem Keeps.exportShard {c : UpdCtx} {x : ExpOp} {acc : ExpAcc} {d : Shard} (h : Keeps r s) :
    Keeps r (Machine.exportShard c x s acc d).1 := by
  unfold Machine.exportShard
  split
  · exact h
  · refine h.ownRecord.andThen ?_
    intro s0 x1 h1
    split
    · exact h1
    · exact .iteFst h1 (.iteFst h1 (h1.readSlot.andThen (fun _ _ h2 => .iteFst h2 (h2.goOn (fun _ _ _ h3 => .iteFst h3
          h3.putRec)))))

theorem Keeps.exportLoss {c : UpdCtx} {x : ExpOp} {ds : List Shard} {acc : ExpAcc} (h : Keeps r s) :
    Keeps r (Machine.exportLoss c x ds s acc).1 := by
  unfold Machine.exportLoss
  split
  · exact h
  · exact .iteFst h (h.ownRecord.andThen (fun _ _ h1 => h1.putRec))

theorem Keeps.exportSlots {c : UpdCtx} {x : ExpOp} {acc : ExpAcc} (h : Keeps r s) : Keeps r (Machine.exportSlots c x s acc).1 :=
  h.goOn (fun _ _ _ h1 => h1.putRec)

theorem Keeps.readShards {c : UpdCtx} {table n : Nat} (h : Keeps r s) : Keeps r (Machine.readShards c s table n).1 :=
  h.goOn (fun _ _ _ h1 => h1.updRead.andThen (fun _ _ h2 => h2))

theorem Keeps.exportRun {c : UpdCtx} {x : ExpOp} (h : Keeps r s) : Keeps r (Machine.exportRun c x s).1 := by
  unfold Machine.exportRun
  split
  next e => exact h.readShards.fst e
  next e =>
    split
    next e1 => exact (h.readShards.fst e).exportLoss.fst e1
    next e1 =>
      dsimp only
      split
      · refine ((h.readShards.fst e).exportLoss.fst e1).foldlFst ?_
        intro p a h1
        split
        · exact h1
        · split
          next e2 => exact h1.exportShard.fst e2
          next e2 => exact h1.exportShard.fst e2
      · split
        next e2 =>
          refine (((h.readShards.fst e).exportLoss.fst e1).foldlFst ?_).exportSlots.fst e2
          intro p a h1
          split
          · exact h1
          · split
            next e3 => exact h1.exportShard.fst e3
            next e3 => exact h1.exportShard.fst e3
        next e2 =>
          refine (((h.readShards.fst e).exportLoss.fst e1).foldlFst ?_).exportSlots.fst e2
          intro p a h1
          split
          · exact h1
          · split
            next e3 => exact h1.exportShard.fst e3
            next e3 => exact h1.exportShard.fst e3

theorem Keeps.exportBody {sur : Surround} {e : CmdEntry} (h : Keeps r s) : Keeps r (Machine.exportBody sur s e) := by
  unfold Machine.exportBody
  split
  next e1 =>
    split
    exact (h.readBlock.fst e1).endCmd
  next e1 =>
    dsimp only
    exact .ite (h.readBlock.fst e1).putCmd.endCmd (.ite (h.readBlock.fst e1).putCmd.endCmd (h.readBlock.fst
        e1).putCmd.exportRun.endCmd)

theorem Keeps.readTargets {c : UpdCtx} {x : ExpOp} (h : Keeps r s) : Keeps r (Machine.readTargets c x s).1 :=
  h.readShards.andThen (fun _ _ h1 => h1.goOn (fun _ _ _ h2 => .iteFst h2 (h2.updRead.andThen (fun _ _ h3 => .iteFst h3 (.iteFst
      h3 h3.raiseEv)))))

theorem Keeps.importBlock {c : UpdCtx} {x : ExpOp} {h1 : RecHead} {pay : List Byte} {t : Target} {r1 col i : Nat} (h : Keeps r
    s) :
    Keeps r (Machine.importBlock c x h1 pay t s r1 col i).1 := by
  unfold Machine.importBlock
  dsimp only
  exact .iteFst (.iteFst h.updWrite h.updWrite) (.iteFst (.iteFst h.updWrite (h.updWrite.andThen (fun _ _ h2 => h2.updWrite)))
      (.iteFst h.updWrite h.updWrite))

theorem Keeps.importInto {c : UpdCtx} {x : ExpOp} {h1 : RecHead} {pay : List Byte} {acc : ImpAcc} {jt : Nat × Target} (h : Keeps
    r s) :
    Keeps r (Machine.importInto c x h1 pay s acc jt).1 := by
  unfold Machine.importInto
  split
  exact .iteFst h ((h.goOn (fun _ _ _ h2 => h2.importBlock)).andThen (fun _ _ h2 => h2))

theorem Keeps.importSlot {c : UpdCtx} {n : Nat} {pay : List Byte} (h : Keeps r s) : Keeps r (Machine.importSlot c s n pay) :=
  .ite h.commitSlot h

theorem Keeps.importRecord {c : UpdCtx} {x : ExpOp} {ts : List Target} {acc : ImpAcc} {head pay : List Byte} (h : Keeps r s) :
    Keeps r (Machine.importRecord c x ts s acc head pay).1 :=
  .iteFst h (.iteFst h (.iteFst h (.iteFst h (.iteFst h.importSlot (.iteFst h (.iteFst h (.iteFst h (h.goOn (fun _ _ _ h1 =>
      h1.importInto)))))))))

theorem Keeps.importStream {c : UpdCtx} {x : ExpOp} {ts : List Target} {a a1 : Nat} {a2 : State} {a3 : ImpAcc} (h : Keeps r a2)
    :
    Keeps r (Machine.importStream c x ts a a1 a2 a3).1 := by
  induction a generalizing c x ts a1 a2 a3 with
  | zero =>
    simp only [Machine.importStream]
    exact h
  | succ a ih =>
    simp only [Machine.importStream]
    split
    · exact h
    · split
      next e => exact h.updRead.fst e
      next e =>
        split
        · exact h.updRead.fst e
        · split
          next e1 => exact .fst (.iteFst (h.updRead.fst e) (h.updRead.fst e).updRead) e1
          next e1 =>
            split
            next e2 => exact .fst (.importRecord (.fst (.iteFst (h.updRead.fst e) (h.updRead.fst e).updRead) e1)) e2
            next e2 => exact ih (.fst (.importRecord (.fst (.iteFst (h.updRead.fst e) (h.updRead.fst e).updRead) e1)) e2)

theorem Keeps.importCommit {c : UpdCtx} {x : ExpOp} {acc : ImpAcc} {st : State × Nat × Option (Nat × Nat)} {jt : Nat × Target}
    (h : Keeps r st.1) :
    Keeps r (Machine.importCommit c x acc st jt).1 := by
  unfold Machine.importCommit
  split
  split
  dsimp only
  split
  · exact h.raiseEv
  · split
    next e => exact (h.readSlot.andThen (fun _ _ h1 => h1.writeSlot.andThen (fun _ _ h2 => h2.writeRecord))).fst e
    next e => exact (h.readSlot.andThen (fun _ _ h1 => h1.writeSlot.andThen (fun _ _ h2 => h2.writeRecord))).fst e

theorem Keeps.importRun {c : UpdCtx} {x : ExpOp} (h : Keeps r s) : Keeps r (Machine.importRun c x s).1 := by
  unfold Machine.importRun
  split
  next e => exact h.readTargets.fst e
  next e =>
    split
    next e1 => exact (h.readTargets.fst e).importStream.fst e1
    next e1 =>
      split
      next e2 => exact (((h.readTargets.fst e).importStream.fst e1).foldlFst (fun _ _ h1 => h1.importCommit)).fst e2

theorem Keeps.importBody {sur : Surround} {e : CmdEntry} (h : Keeps r s) : Keeps r (Machine.importBody sur s e) := by
  unfold Machine.importBody
  split
  next e1 =>
    split
    exact (h.readBlock.fst e1).endCmd
  next e1 =>
    dsimp only
    exact .ite (h.readBlock.fst e1).putCmd.endCmd (h.readBlock.fst e1).putCmd.importRun.endCmd

/-! Sys2Proof/Machine/Jtag.lean -/

theorem Keeps.setJtag {j : JtagSt} (h : Keeps r s) : Keeps r (Machine.setJtag s j) := h.frame

theorem Keeps.tckRise {tms tdi : Bool} {x : BoardPins} (h : Keeps r s) : Keeps r (Machine.tckRise s tms tdi x) := by
  unfold Machine.tckRise
  dsimp only
  split
  · exact h.setJtag
  · exact h.setJtag
  · exact .ite h.setJtag (.ite h.frame.setJtag h.setJtag)
  · exact h.setJtag
  · exact h.setJtag

theorem Keeps.tckFall (h : Keeps r s) : Keeps r (Machine.tckFall s) := by
  unfold Machine.tckFall
  dsimp only
  split
  · exact h.setJtag
  · exact h.emit
  · exact h.emit
  · exact h.setJtag
  · exact .ite h.setJtag (.ite h.setJtag h)
  · exact h

theorem Keeps.jtagAccess {trstN tms tdi : Bool} {x : BoardPins} (h : Keeps r s) :
    Keeps r (Machine.jtagAccess s trstN tms tdi x) :=
  .ite h (.ite h.setJtag h.tckRise.tckFall)

/-! Sys2Proof/Machine/Window.lean -/

theorem Keeps.abort (h : Keeps r s) : Keeps r (Machine.abort s) := h.emit

theorem Keeps.bar2Local {off a n : Nat} {x : BusSur} (h : Keeps r s) : Keeps r (Machine.bar2Local s off a n x) := by
  unfold Machine.bar2Local
  split
  · split
    · exact h.abort
    · exact .ite (.abort (.ite h.failLap h)) (.emit (.ite h.failLap h))
  · split
    · exact .ite h.bar0BadAccess.abort h.emit
    · split
      · exact h.raiseEv.abort
      · split
        · exact h.bar2Unmapped.abort
        · split
          next e => exact (h.stageWords.fst e).bar2Parity.abort
          next e =>
            split
            next e1 => exact ((h.stageWords.fst e).memRead.fst e1).bar2Parity.abort
            next e1 => exact ((h.stageWords.fst e).memRead.fst e1).emit

theorem Keeps.bar2Read {off n : Nat} {x : BusSur} (h : Keeps r s) : Keeps r (Machine.bar2Read s off n x) := by
  unfold Machine.bar2Read
  split
  · exact h.emit
  · dsimp only
    split
    · exact h.bar2Unmapped.abort
    · split
      · exact h.bar2Local
      · split
        · exact h
        · split
          next e => exact h.sendReq.fst e
          next e => exact (h.sendReq.fst e).abort

theorem Keeps.bar2Store {off a : Nat} {data : List Byte} {x : BusSur} (h : Keeps r s) :
    Keeps r (Machine.bar2Store s off a data x) := by
  unfold Machine.bar2Store
  dsimp only
  split
  · split
    · exact h
    · exact h.lapStore
  · split
    · exact h.bar0Write
    · split
      · exact h.raiseEv
      · split
        · exact h.bar2Unmapped
        · split
          next e => exact (h.stageWords.fst e).bar2Parity
          next e =>
            split
            next e1 => exact (h.stageWords.fst e).targetWrite.fst e1
            next e1 => exact ((h.stageWords.fst e).targetWrite.fst e1).bar2Parity

theorem Keeps.bar2Write {off : Nat} {data : List Byte} {x : BusSur} (h : Keeps r s) :
    Keeps r (Machine.bar2Write s off data x) := by
  unfold Machine.bar2Write
  split
  · exact h
  · dsimp only
    split
    · exact h.bar2Unmapped
    · split
      · exact h.bar2Store
      · exact .ite h (h.foldl (fun _ _ h1 => h1.sendReq))

/-! Sys2Proof/Machine/Serve.lean -/

theorem Keeps.freeBuffer {n b k : Nat} (h : Keeps r s) : Keeps r (Machine.freeBuffer s n b k) := h.setPort

theorem Keeps.takePacket {n c : Nat} {p : Packet} {t : State} (h : Keeps r s)
    (e : Machine.takePacket s n p = some (c, t)) : Keeps r t := by
  unfold Machine.takePacket at e
  split at e
  · cases e
  · cases e; exact .ite h.frame h.frame.freeBuffer.sendNull

theorem Keeps.refuse {p : Packet} (h : Keeps r s) : Keeps r (Machine.refuse s p) := h.respond

theorem Keeps.refuseReg {p : Packet} (h : Keeps r s) : Keeps r (Machine.refuseReg s p) := h.satF.refuse

theorem Keeps.serveRead {p : Packet} {x : Meet} (h : Keeps r s) : Keeps r (Machine.serveRead s p x) := by
  unfold Machine.serveRead
  split
  · exact h.refuse
  · split
    next e => exact (h.targetRead.fst e).refuse
    next e => exact (h.targetRead.fst e).respond

theorem Keeps.serveWrite {p : Packet} {x : Meet} (h : Keeps r s) : Keeps r (Machine.serveWrite s p x) := by
  unfold Machine.serveWrite
  split
  · exact h.refuse
  · split
    next e => exact (h.targetWrite.fst e).respond
    next e => exact (h.targetWrite.fst e).refuse

theorem Keeps.serveMasked {p : Packet} {x : Meet} (h : Keeps r s) : Keeps r (Machine.serveMasked s p x) := by
  unfold Machine.serveMasked
  split
  next e => exact (h.maskedLine.fst e).respond
  next e => exact (h.maskedLine.fst e).refuse

theorem Keeps.serveAtomic {p : Packet} {x : Meet} (h : Keeps r s) : Keeps r (Machine.serveAtomic s p x) := by
  unfold Machine.serveAtomic
  split
  next e => exact (h.targetAtomic.fst e).refuse
  next e => exact (h.targetAtomic.fst e).frame.respond

theorem Keeps.serveWatch {p : Packet} {x : Meet} (h : Keeps r s) : Keeps r (Machine.serveWatch s p x) := by
  unfold Machine.serveWatch
  split
  · exact h.refuse
  · dsimp only
    split
    · split
      · exact h.failLap.refuse
      · split
        · exact h.failLap.respond
        · split
          · exact h.failLap.frame
          · refine .respond (.raiseEv (.satF ?_))
            split
            · exact h.failLap
            · exact h.failLap.freshBytes
    · split
      · exact h.refuse
      · split
        · exact h.respond
        · split
          · exact h.frame
          · refine .respond (.raiseEv (.satF ?_))
            split
            · exact h
            · exact h.freshBytes

theorem Keeps.serveReg {p : Packet} {x : Meet} (h : Keeps r s) : Keeps r (Machine.serveReg s p x) := by
  unfold Machine.serveReg
  split
  · exact h.refuse
  · exact h.refuseReg.unless fun h1 => .ite (.ite h.respond h1) (.ite h.busWriteN.respond h1)

theorem Keeps.performMem {p : Packet} {x : Meet} (h : Keeps r s) : Keeps r (Machine.performMem s p x) :=
  .ite h.serveRead (.ite h.serveWrite (.ite h.serveMasked (.ite h.serveAtomic (.ite h.serveWatch h.refuse))))

theorem Keeps.perform {p : Packet} {x : Meet} (h : Keeps r s) : Keeps r (Machine.perform s p x) := by
  unfold Machine.perform
  split
  · exact .ite h.refuse (.ite h.mismatched.respond h.frame.respond)
  · split
    · exact h.refuse
    · split
      · exact .ite h.serveInsert (.ite h.serveForward h.serveReg)
      · split
        · exact h.refuseReg
        · split
          next e => exact (h.stageWords.fst e).refuse
          next e => exact (h.stageWords.fst e).performMem

theorem Keeps.performAgain {p : Packet} {x : Meet} (h : Keeps r s) : Keeps r (Machine.performAgain s p x) := by
  unfold Machine.performAgain
  dsimp only
  split
  · exact h.satF.respond
  · split
    · split
      · exact h.satF.respond
      · exact h.satF.refuse
    · exact h.satF.perform

theorem Keeps.performEarly {a : Nat} {a1 : State} {a2 : Nat} (h : Keeps r a1) : Keeps r (Machine.performEarly a a1 a2) := by
  induction a generalizing a1 a2 with
  | zero =>
    simp only [Machine.performEarly]
    exact h
  | succ a ih =>
    simp only [Machine.performEarly]
    split
    · exact h
    · exact ih h.frame.perform

theorem Keeps.arrive {p : Packet} {x : Meet} (h : Keeps r s) : Keeps r (Machine.arrive s p x) :=
  .ite h.respond (.ite h.frame.perform.performEarly (.ite (.ite h.frame h.satF.raiseEv) h.performAgain))

theorem Keeps.forwardPacket {n cls : Nat} {p : Packet} (h : Keeps r s) : Keeps r (Machine.forwardPacket s n cls p) :=
  .ite h.respond (.ite h.enqueue h.routeDown)

/-! Sys2Proof/Machine/Link.lean -/

theorem Keeps.resendFlit {n : Nat} {f : Flit} (h : Keeps r s) : Keeps r (Machine.resendFlit n s f) := by
  unfold Machine.resendFlit
  split
  exact h.setPort.emit

theorem Keeps.replay {n a : Nat} {bufBad : Bool} (h : Keeps r s) : Keeps r (Machine.replay s n a bufBad) :=
  .ite h (.ite h.portDown (.ite h.setPort.satF.raiseEv.portDown (h.setPort.satF.foldl (fun _ _ h1 => h1.resendFlit))))

theorem Keeps.takeAck {n a : Nat} (h : Keeps r s) : Keeps r (Machine.takeAck s n a) := .ite h h.setPort

theorem Keeps.takeCredit {n sel total : Nat} (h : Keeps r s) : Keeps r (Machine.takeCredit s n sel total) := h.setPort

theorem Keeps.takeFields {n : Nat} {f : Flit} {bufBad : Bool} (h : Keeps r s) : Keeps r (Machine.takeFields s n f bufBad) :=
  (h.takeAck.takeCredit.when fun h1 => h1.replay).pump

theorem Keeps.sendNak {n : Nat} (h : Keeps r s) : Keeps r (Machine.sendNak s n) := .ite h h.setPort.sendNull

theorem Keeps.packetDone {n cls vc : Nat} {bytes : List Byte} (h : Keeps r s) : Keeps r (Machine.packetDone s n cls vc bytes) :=
  h.freeBuffer.unless fun h1 => .ite h1.arrive h.frame

theorem Keeps.deliverFlit {n : Nat} {f : Flit} (h : Keeps r s) : Keeps r (Machine.deliverFlit s n f) :=
  .ite h.freeBuffer (.ite h.setPort.packetDone h.setPort)

theorem Keeps.decodeFlit {n : Nat} {corrected : List Nat} {uncorrectable : Bool} (h : Keeps r s) :
    Keeps r (Machine.decodeFlit s n corrected uncorrectable).1 :=
  h.setPort.satF.satF

theorem Keeps.receiveFlit {n : Nat} {f : Flit} {corrected : List Nat} {uncorrectable parity bufBad : Bool} (h : Keeps r s) :
    Keeps r (Machine.receiveFlit s n f corrected uncorrectable parity bufBad) := by
  unfold Machine.receiveFlit
  split
  · exact h
  · split
    next e =>
      exact .ite ((h.decodeFlit.fst e).when fun h1 => h1.satF).satF.sendNak (((h.decodeFlit.fst e).when fun h1 =>
          h1.satF).takeFields.unless fun h1 => .ite (h1.deliverFlit.unless fun h2 => h2.setPort.sendNull) (((h.decodeFlit.fst
          e).when fun h2 => h2.satF).satF.takeFields.when fun h2 => h2.sendNak))

/-! Sys2Proof/Machine/Merge.lean -/

theorem Keeps.decodeStripes {c : UpdCtx} {a a1 a2 : Nat} {a3 : List Byte} {a4 : State} (h : Keeps r a4) :
    Keeps r (Machine.decodeStripes c a a1 a2 a3 a4).1 := by
  induction a generalizing c a1 a2 a3 a4 with
  | zero =>
    simp only [Machine.decodeStripes]
    exact h
  | succ a ih =>
    simp only [Machine.decodeStripes]
    split
    · exact h
    · split
      · exact h.judgeBlock
      · exact (ih h.judgeBlock).andThen (fun _ _ h1 => h1)

theorem Keeps.readDeltas {c : UpdCtx} {d : Shard} {a : Nat × Nat} (h : Keeps r s) : Keeps r (Machine.readDeltas c d a s).1 :=
  .iteFst h (h.foldlFst (fun _ _ h1 => h1.andThen (fun _ _ h2 => h2.updRead.andThen (fun _ _ h3 => h3.decodeStripes.andThen (fun
      _ _ h4 => h4)))))

theorem Keeps.mergeShard {c : UpdCtx} {adm : List (Nat × Nat)} {fs : List Word} {d : Shard} (h : Keeps r s) :
    Keeps r (Machine.mergeShard c adm fs s d).1 :=
  .iteFst h ((h.foldlFst (fun _ _ h1 => h1.andThen (fun _ _ h2 => h2.readDeltas.andThen (fun _ _ h3 => h3)))).andThen (fun _ _
      h1 => .iteFst h1 (h1.updWrite.andThen (fun _ _ h2 => h2))))

theorem Keeps.overShards {c : UpdCtx} {o : BatonOp} {e : CmdEntry} {f : State → Shard → Reading ShardOut} (h : Keeps r s) (H : ∀
    s0 x1, Keeps r s0 → Keeps r (f s0 x1).1) :
    Keeps r (Machine.overShards c o e f s) := by
  unfold Machine.overShards
  split
  next e1 =>
    refine ((h.foldlFst ?_).fst e1).endCmd
    intro p a h1
    split
    split
    next e2 => exact (h1.updRead.andThen (fun _ _ h2 => H _ _ h2)).settleShard.fst e2

theorem Keeps.runMerge {sur : Surround} {o : BatonOp} {e : CmdEntry} (h : Keeps r s) :
    Keeps r (Machine.runMerge sur o s e) := by
  unfold Machine.runMerge
  dsimp only
  split
  · exact h.endCmd
  · split
    next e1 => exact (h.putCmd.updRead.fst e1).endCmd
    next e1 => exact .ite (h.putCmd.updRead.fst e1).endCmd ((h.putCmd.updRead.fst e1).overShards (fun _ _ h1 => h1.mergeShard))

theorem Keeps.rebaseShard {c : UpdCtx} {d : Shard} (h : Keeps r s) : Keeps r (Machine.rebaseShard c s d).1 :=
  .iteFst h (h.ownRecord.andThen (fun _ _ h1 => h1.innerShard.andThen (fun _ _ h2 => h2.updRead.andThen (fun _ _ h3 => .iteFst
      h3 (h3.ownRecord.andThen (fun _ _ h4 => h4.readSlot.andThen (fun _ _ h5 => h5.readSlot.andThen (fun _ _ h6 =>
      h6.readSlot.andThen (fun _ _ h7 => h7.writeSlot.andThen (fun _ _ h8 => h8.writeSlot.andThen (fun _ _ h9 =>
      h9.writeRecord.andThen (fun _ _ h10 => h10.writeRecord.andThen (fun _ _ h11 => h11)))))))))))))

theorem Keeps.runRebase {sur : Surround} {o : BatonOp} {e : CmdEntry} (h : Keeps r s) : Keeps r (Machine.runRebase sur o s e) :=
  h.putCmd.overShards (fun _ _ h1 => h1.rebaseShard)

/-! Sys2Proof/Machine/Parcels.lean -/

theorem Keeps.signalMsg {b : List Byte} (h : Keeps r s) : Keeps r (Machine.signalMsg s b) := .ite h h.lapAdd

theorem Keeps.landMessage {m : MsgRx} {x : Meet} (h : Keeps r s) : Keeps r (Machine.landMessage s m x) := by
  unfold Machine.landMessage
  dsimp only
  split
  next e => exact .fst (.iteFst h (.iteFst h h.targetWrite)) e
  next e => exact .ackMsg (.signalMsg (.markDelivered (.fst (.iteFst h (.iteFst h h.targetWrite)) e)))

theorem Keeps.landFlag {m : MsgRx} (h : Keeps r s) : Keeps r (Machine.landFlag s m) :=
  (h.openStep.when fun h1 => h1.setF).markDelivered.signalMsg.raiseEv.ackMsg

theorem Keeps.forwardBaton {m : MsgRx} {h1 : BatonHead} (h : Keeps r s) : Keeps r (Machine.forwardBaton s m h1) :=
  h.foldl (fun _ _ h1 => h1.foldl (fun _ _ h2 => h2.sendHop))

theorem Keeps.batonStored {w : BatonWait} (h : Keeps r s) : Keeps r (Machine.batonStored s w) :=
  .ite h.sendOnPorts (.ite h.ackMsg h.hearBaton)

theorem Keeps.hearStored {n : Nat} {p : Parcel} (h : Keeps r s) : Keeps r (Machine.hearStored s n p) :=
  h.frame.foldl (fun _ _ h1 => h1.batonStored)

theorem Keeps.landBaton {m : MsgRx} (h : Keeps r s) : Keeps r (Machine.landBaton s m) := by
  unfold Machine.landBaton
  dsimp only
  exact h.frame.unless fun h1 => .ite h1.dropBaton (.unless (.unless (.iteFst h.markDelivered.forwardBaton.keepBaton
      h.markDelivered.forwardBaton) fun h2 => .ite h2.batonStored h2.frame) fun h2 => h2.ackMsg)

theorem Keeps.landManifest {m : MsgRx} (h : Keeps r s) : Keeps r (Machine.landManifest s m) := by
  conv => arg 2; fun; fun; delta Machine.landManifest
  extract_lets b who round
  have h1 := (h.claimRound (base := round)).appendRound (k := round % 8) (bs := b)
  generalize Machine.appendRound _ _ _ = p at h1 ⊢
  obtain ⟨t, _ | a⟩ := p
  · exact h1
  · exact h1.setRoundSlot.markDelivered.raiseEv.ackMsg

theorem Keeps.deliverMsg {m : MsgRx} {x : Meet} (h : Keeps r s) : Keeps r (Machine.deliverMsg s m x) := by
  unfold Machine.deliverMsg
  split
  · exact h.landFlag
  · exact h.landBaton
  · exact h.landManifest
  · exact h.landMessage

theorem Keeps.deliverDue {a : Nat} {a1 : Meet} {a2 : List Parcel} {a3 : State} (h : Keeps r a3) :
    Keeps r (Machine.deliverDue a a1 a2 a3) := by
  induction a generalizing a1 a2 a3 with
  | zero =>
    simp only [Machine.deliverDue]
    exact h
  | succ a ih =>
    simp only [Machine.deliverDue]
    split
    · exact h
    · exact ih h.deliverMsg

theorem Keeps.deliverAll {x : Meet} (h : Keeps r s) : Keeps r (Machine.deliverAll s x) := h.deliverDue

theorem Keeps.takeControl {p : Parcel} {x : Meet} (h : Keeps r s) : Keeps r (Machine.takeControl s p x) := by
  unfold Machine.takeControl
  refine (h.foldl ?_).deliverAll
  intro s1 a h1
  split
  · exact h1.onAckEntry
  · exact h1.onResendEntry
  · exact h1.onWithdrawEntry
  · exact h1

theorem Keeps.takeParcel {n : Nat} {x : Meet} {p : Parcel} (h : Keeps r s) : Keeps r (Machine.takeParcel s n x p) := by
  unfold Machine.takeParcel
  split
  · exact .ite h.satF h
  · split
    · exact h.hearStored
    · split
      · exact .ite h.takeControl h.collect.deliverAll
      · exact h.noteTransit.endTransit.sendHop

theorem Keeps.parcelIn {n : Nat} {f : DataFrame} {found : List DataFrame} {x : Meet} (h : Keeps r s) :
    Keeps r (Machine.parcelIn s n f found x) := by
  unfold Machine.parcelIn
  split
  · exact .ite h.takeParcel h
  · split
    next e => exact (h.receiveFrame.fst e).foldl (fun _ _ h1 => h1.takeParcel)

theorem Keeps.repairIn {n : Nat} {r1 : Repair} {found : List DataFrame} {x : Meet} (h : Keeps r s) :
    Keeps r (Machine.repairIn s n r1 found x) := by
  unfold Machine.repairIn
  split
  next e => exact (h.receiveRepair.fst e).foldl (fun _ _ h1 => h1.takeParcel)

/-! Sys2Proof/Machine/Twin.lean -/

theorem Keeps.twRow {p : TwRun} {e : CmdEntry} {l j u : Nat} {bs : List Vec} {st : State × MmAcc} {rv : Nat × Vec} (h : Keeps r
    st.1) :
    Keeps r (Machine.twRow p e l j u bs st rv).1 := by
  unfold Machine.twRow
  split
  dsimp only
  split
  · exact h
  · split
    · exact .ite (h.foldl (fun _ _ h1 => h1.setAcc)) h
    · split
      next e1 => exact .fst (.drainRow (.ite (h.foldl (fun _ _ h1 => h1.setAcc)) h)) e1
      next e1 => exact .endPart (.fst (.drainRow (.ite (h.foldl (fun _ _ h1 => h1.setAcc)) h)) e1)

theorem Keeps.twTileSide {p : TwRun} {e : CmdEntry} {l j u : Nat} {streams : List Vec} {st : State × MmAcc} (h : Keeps r st.1) :
    Keeps r (Machine.twTileSide p e l j u streams st).1 := by
  unfold Machine.twTileSide
  split
  split
  · exact h
  · dsimp only
    split
    next e1 => exact (h.wakeArray.readRows.fst e1).endPart
    next e1 => exact (h.wakeArray.readRows.fst e1).countTile.foldlFst (fun _ _ h1 => h1.twRow)

theorem Keeps.twTile {o : TwOp} {shG : Int} {pl pr : TwRun} {e : CmdEntry} {st : State × MmAcc × MmAcc} {j : Nat}
    (h : Keeps r st.1) : Keeps r (Machine.twTile o shG pl pr e st j).1 := by
  unfold Machine.twTile
  split
  dsimp only
  split
  · exact h
  · split
    next e1 => exact (h.readRows.fst e1).endPart
    next e1 =>
      exact .twTileSide (st := (_, _)) (.twTileSide (st := (_, _)) ((h.readRows.fst e1).foldl fun _ _ h1 => h1.fillRow))

theorem Keeps.twRun {o : TwOp} {shG shW shX : Int} {e : CmdEntry} {sur : Surround} (h : Keeps r s) :
    Keeps r (Machine.twRun o shG shW shX e sur s) := by
  have h1 := h.meetHits (hits := sur.hits) (touches := twTouches o) |>.productMeets (e := e) (sur := sur)
  unfold Machine.twRun
  dsimp only
  refine .endAllParts (.foldl (.when (.productSlot (.productSlot (.noteProduct ?_))) fun h2 => h2.scrambleAll)
    fun _ _ h2 => h2.foldl fun _ _ h3 => h3.setTag)
  exact .foldlFst (p := (_, _)) h1 fun _ _ h2 => h2.twTile

theorem Keeps.twSetup {e : CmdEntry} {sur : Surround} (h : Keeps r s) : Keeps r (Machine.twSetup s e sur).1 := by
  unfold Machine.twSetup
  split
  next e1 => exact h.readBlock.fst e1
  next e1 =>
    dsimp only
    split
    · exact h.readBlock.fst e1
    · split
      next e2 =>
        refine .fst ?_ e2
        split
        next e3 => exact (h.readBlock.fst e1).readHeader.fst e3
        next e3 => exact (h.readBlock.fst e1).readHeader.fst e3
        next e3 => exact (h.readBlock.fst e1).readHeader.fst e3
      next e2 =>
        split
        next e3 =>
          refine .fst ?_ e3
          split
          next e4 =>
            refine .fst (.readHeader (.fst ?_ e2)) e4
            split
            next e5 => exact (h.readBlock.fst e1).readHeader.fst e5
            next e5 => exact (h.readBlock.fst e1).readHeader.fst e5
            next e5 => exact (h.readBlock.fst e1).readHeader.fst e5
          next e4 =>
            refine .fst (.readHeader (.fst ?_ e2)) e4
            split
            next e5 => exact (h.readBlock.fst e1).readHeader.fst e5
            next e5 => exact (h.readBlock.fst e1).readHeader.fst e5
            next e5 => exact (h.readBlock.fst e1).readHeader.fst e5
          next e4 =>
            refine .fst (.readHeader (.fst ?_ e2)) e4
            split
            next e5 => exact (h.readBlock.fst e1).readHeader.fst e5
            next e5 => exact (h.readBlock.fst e1).readHeader.fst e5
            next e5 => exact (h.readBlock.fst e1).readHeader.fst e5
        next e3 =>
          split
          next e4 =>
            refine .fst ?_ e4
            split
            next e5 =>
              refine .fst (.readHeader (.fst ?_ e3)) e5
              split
              next e6 =>
                refine .fst (.readHeader (.fst ?_ e2)) e6
                split
                next e7 => exact (h.readBlock.fst e1).readHeader.fst e7
                next e7 => exact (h.readBlock.fst e1).readHeader.fst e7
                next e7 => exact (h.readBlock.fst e1).readHeader.fst e7
              next e6 =>
                refine .fst (.readHeader (.fst ?_ e2)) e6
                split
                next e7 => exact (h.readBlock.fst e1).readHeader.fst e7
                next e7 => exact (h.readBlock.fst e1).readHeader.fst e7
                next e7 => exact (h.readBlock.fst e1).readHeader.fst e7
              next e6 =>
                refine .fst (.readHeader (.fst ?_ e2)) e6
                split
                next e7 => exact (h.readBlock.fst e1).readHeader.fst e7
                next e7 => exact (h.readBlock.fst e1).readHeader.fst e7
                next e7 => exact (h.readBlock.fst e1).readHeader.fst e7
            next e5 =>
              refine .fst (.readHeader (.fst ?_ e3)) e5
              split
              next e6 =>
                refine .fst (.readHeader (.fst ?_ e2)) e6
                split
                next e7 => exact (h.readBlock.fst e1).readHeader.fst e7
                next e7 => exact (h.readBlock.fst e1).readHeader.fst e7
                next e7 => exact (h.readBlock.fst e1).readHeader.fst e7
              next e6 =>
                refine .fst (.readHeader (.fst ?_ e2)) e6
                split
                next e7 => exact (h.readBlock.fst e1).readHeader.fst e7
                next e7 => exact (h.readBlock.fst e1).readHeader.fst e7
                next e7 => exact (h.readBlock.fst e1).readHeader.fst e7
              next e6 =>
                refine .fst (.readHeader (.fst ?_ e2)) e6
                split
                next e7 => exact (h.readBlock.fst e1).readHeader.fst e7
                next e7 => exact (h.readBlock.fst e1).readHeader.fst e7
                next e7 => exact (h.readBlock.fst e1).readHeader.fst e7
            next e5 =>
              refine .fst (.readHeader (.fst ?_ e3)) e5
              split
              next e6 =>
                refine .fst (.readHeader (.fst ?_ e2)) e6
                split
                next e7 => exact (h.readBlock.fst e1).readHeader.fst e7
                next e7 => exact (h.readBlock.fst e1).readHeader.fst e7
                next e7 => exact (h.readBlock.fst e1).readHeader.fst e7
              next e6 =>
                refine .fst (.readHeader (.fst ?_ e2)) e6
                split
                next e7 => exact (h.readBlock.fst e1).readHeader.fst e7
                next e7 => exact (h.readBlock.fst e1).readHeader.fst e7
                next e7 => exact (h.readBlock.fst e1).readHeader.fst e7
              next e6 =>
                refine .fst (.readHeader (.fst ?_ e2)) e6
                split
                next e7 => exact (h.readBlock.fst e1).readHeader.fst e7
                next e7 => exact (h.readBlock.fst e1).readHeader.fst e7
                next e7 => exact (h.readBlock.fst e1).readHeader.fst e7
          next e4 =>
            refine .fst ?_ e4
            split
            next e5 =>
              refine .fst (.readHeader (.fst ?_ e3)) e5
              split
              next e6 =>
                refine .fst (.readHeader (.fst ?_ e2)) e6
                split
                next e7 => exact (h.readBlock.fst e1).readHeader.fst e7
                next e7 => exact (h.readBlock.fst e1).readHeader.fst e7
                next e7 => exact (h.readBlock.fst e1).readHeader.fst e7
              next e6 =>
                refine .fst (.readHeader (.fst ?_ e2)) e6
                split
                next e7 => exact (h.readBlock.fst e1).readHeader.fst e7
                next e7 => exact (h.readBlock.fst e1).readHeader.fst e7
                next e7 => exact (h.readBlock.fst e1).readHeader.fst e7
              next e6 =>
                refine .fst (.readHeader (.fst ?_ e2)) e6
                split
                next e7 => exact (h.readBlock.fst e1).readHeader.fst e7
                next e7 => exact (h.readBlock.fst e1).readHeader.fst e7
                next e7 => exact (h.readBlock.fst e1).readHeader.fst e7
            next e5 =>
              refine .fst (.readHeader (.fst ?_ e3)) e5
              split
              next e6 =>
                refine .fst (.readHeader (.fst ?_ e2)) e6
                split
                next e7 => exact (h.readBlock.fst e1).readHeader.fst e7
                next e7 => exact (h.readBlock.fst e1).readHeader.fst e7
                next e7 => exact (h.readBlock.fst e1).readHeader.fst e7
              next e6 =>
                refine .fst (.readHeader (.fst ?_ e2)) e6
                split
                next e7 => exact (h.readBlock.fst e1).readHeader.fst e7
                next e7 => exact (h.readBlock.fst e1).readHeader.fst e7
                next e7 => exact (h.readBlock.fst e1).readHeader.fst e7
              next e6 =>
                refine .fst (.readHeader (.fst ?_ e2)) e6
                split
                next e7 => exact (h.readBlock.fst e1).readHeader.fst e7
                next e7 => exact (h.readBlock.fst e1).readHeader.fst e7
                next e7 => exact (h.readBlock.fst e1).readHeader.fst e7
            next e5 =>
              refine .fst (.readHeader (.fst ?_ e3)) e5
              split
              next e6 =>
                refine .fst (.readHeader (.fst ?_ e2)) e6
                split
                next e7 => exact (h.readBlock.fst e1).readHeader.fst e7
                next e7 => exact (h.readBlock.fst e1).readHeader.fst e7
                next e7 => exact (h.readBlock.fst e1).readHeader.fst e7
              next e6 =>
                refine .fst (.readHeader (.fst ?_ e2)) e6
                split
                next e7 => exact (h.readBlock.fst e1).readHeader.fst e7
                next e7 => exact (h.readBlock.fst e1).readHeader.fst e7
                next e7 => exact (h.readBlock.fst e1).readHeader.fst e7
              next e6 =>
                refine .fst (.readHeader (.fst ?_ e2)) e6
                split
                next e7 => exact (h.readBlock.fst e1).readHeader.fst e7
                next e7 => exact (h.readBlock.fst e1).readHeader.fst e7
                next e7 => exact (h.readBlock.fst e1).readHeader.fst e7

theorem Keeps.twBody {sur : Surround} {e : CmdEntry} (h : Keeps r s) : Keeps r (Machine.twBody sur s e) := by
  unfold Machine.twBody
  dsimp only
  split
  next e1 => exact (h.putCmd.twSetup.fst e1).endAllParts
  next e1 =>
    have h1 := fun l g H => (h.putCmd.twSetup.fst e1).foldl (β := TwSide) (l := l) (g := g) H
    split
    · exact h1 _ _ fun _ _ h2 => .ite h2 h2.useSlotGetD
    · exact (h1 _ _ fun _ _ h2 => .ite h2 h2.useSlotGetD).putCmd.twRun

/-! Sys2Proof/Machine/Step.lean -/

theorem Keeps.idle (h : Keeps r s) : Keeps r (Machine.idle s) := .ite h.tickClock.adaptTaps h

/-! ### The rows -/

/-- A row's answer: where what it names exists, a state that keeps what Keeps says, and else the fault of a missing
one (01_levels, log entry 4). -/
def Answers (r : State) (ok : Bool) (o : Host.Outcome State Fault Refusal) : Prop := ∃ t, Keeps r t ∧ o = onInstance ok t

theorem Answers.of {ok : Bool} (h : Keeps r s) : Answers r ok (onInstance ok s) := ⟨s, h, rfl⟩

/-- `Answers.of` where the row tests the two numbers it names in two steps. -/
theorem Answers.ofAnd {p q : Prop} [Decidable p] [Decidable q] (h : Keeps r s) :
    Answers r (decide (p ∧ q)) (onInstance (decide p && decide q) s) := Bool.decide_and p q ▸ .of h

theorem Keeps.onPacket {n : Nat} {p : Packet} {ok : Bool} {act : State → State} (h : Keeps r s)
    (H : ∀ {t}, Keeps r t → Keeps r (act t)) : Keeps r (Machine.whileRunning s (if p.dst = myId s ∧ ok then
      (match Machine.takePacket s n p with | some (_, t) => act t | none => s) else s)) := by
  refine h.whileRunning (.ite ?_ h)
  split
  next e => exact H (h.takePacket e)
  next => exact h

theorem Keeps.packetForward {n : Nat} {p : Packet} (h : Keeps r s) : Keeps r (Machine.whileRunning s (if p.dst ≠ myId s then
    (match Machine.takePacket s n p with | some (c, t) => Machine.forwardPacket t n c p | none => s) else s)) := by
  refine h.whileRunning (.ite ?_ h)
  split
  next e => exact (h.takePacket e).forwardPacket
  next => exact h

theorem Keeps.milRow {op q idx : Nat} {sur : Surround} {body : BatonOp → State → CmdEntry → State} (h : Keeps r s)
    (H : ∀ {o s e}, Keeps r s → Keeps r (body o s e)) : Answers r (isQueue q) (Machine.milRow op q idx sur body s) := by
  refine ⟨_, h.whileRunning (h.onDispatch fun s e h1 => h1.onStages fun s e h2 => ?_), rfl⟩
  dsimp only
  split
  next e1 => exact (h2.readBlock.fst e1).endCmd
  next e1 => exact .ite (h2.readBlock.fst e1).endCmd (H (h2.readBlock.fst e1))

theorem Keeps.batonSendRelay {q idx : Nat} {sur : Surround} (h : Keeps r s) :
    Answers r (isQueue q) (execBatonSendRelay q idx sur s) := by
  unfold execBatonSendRelay
  exact h.milRow fun h1 => h1.sendRelay

theorem Keeps.batonSendFlag {q idx : Nat} {sur : Surround} (h : Keeps r s) :
    Answers r (isQueue q) (execBatonSendFlag q idx sur s) := by
  unfold execBatonSendFlag
  exact h.milRow fun h1 => h1.sendFlag

theorem Keeps.batonSendBaton {q idx : Nat} {sur : Surround} (h : Keeps r s) :
    Answers r (isQueue q) (execBatonSendBaton q idx sur s) := by
  unfold execBatonSendBaton
  exact h.milRow fun h1 => h1.sendBatons

theorem Keeps.batonSendManifest {q idx : Nat} {sur : Surround} (h : Keeps r s) :
    Answers r (isQueue q) (execBatonSendManifest q idx sur s) := by
  unfold execBatonSendManifest
  exact h.milRow fun h1 => h1.sendManifest

theorem Keeps.batonSendTransfer {q idx : Nat} {sur : Surround} (h : Keeps r s) :
    Answers r (isQueue q) (execBatonSendTransfer q idx sur s) := by
  unfold execBatonSendTransfer
  exact h.milRow fun h1 => h1.sendTransfer

theorem Keeps.batonSendMerge {q idx : Nat} {sur : Surround} (h : Keeps r s) :
    Answers r (isQueue q) (execBatonSendMerge q idx sur s) := by
  unfold execBatonSendMerge
  split
  · exact h.milRow fun h1 => h1.runMerge
  · exact ⟨_, h, rfl⟩

theorem Keeps.batonSendRebase {q idx : Nat} {sur : Surround} (h : Keeps r s) :
    Answers r (isQueue q) (execBatonSendRebase q idx sur s) := by
  unfold execBatonSendRebase
  split
  · exact h.milRow fun h1 => h1.runRebase
  · exact ⟨_, h, rfl⟩

theorem KeepsOut.next (h : Keeps r s) : KeepsOut r (.next s) := h

theorem Keeps.endOrWait {ln : LaneSt} {w : Nat} (h : Keeps r s) :
    KeepsOut r (if ln.pend.isEmpty then .done s (bwTarget w) else .wait) := by
  split
  · exact h
  · trivial

theorem Keeps.fenceOrWait {ln : LaneSt} (h : Keeps r s) : KeepsOut r (if ln.pend.isEmpty then .next s else .wait) := by
  split
  · exact h
  · trivial

theorem Keeps.sldBody {l w : Nat} {ln : LaneSt} {hits : List Hit} (h : Keeps r s) :
    KeepsOut r (if !localOk (mwAddr ln w) 8 8 then .fault s stMalformed 10
      else match Machine.vecRead s l ln hits (mwAddr ln w) 8 with
        | (s, none) => .fault s stParity 6
        | (s, some bs) => .next (Machine.setLane s l (setSreg (lane s l) (mwV w % 16) (BitVec.ofNat 64 (leNat bs))))) := by
  split
  · exact h
  · split
    next e => exact h.vecRead.fst e
    next e => exact (h.vecRead.fst e).setLane

theorem Keeps.sstBody {l w : Nat} {ln : LaneSt} {hits : List Hit} (h : Keeps r s) :
    KeepsOut r (if !localOk (mwAddr ln w) 8 8 then .fault s stMalformed 10
      else .next (Machine.vecWrite s l ln hits (mwAddr ln w) (natLe 8 (sreg ln (mwV w % 16)).toNat)).1) := by
  split
  · exact h
  · exact h.vecWrite

/-- What each row answers, whatever the state. -/
theorem Keeps.exec (c : Instr) (h : Keeps r s) : Answers r c.wf (Machine.exec c s) :=
  match c with
  | .powerOn _ _ _ _ _ => .of (h.powerOn)
  | .supplyStop _ _ => .of (h.supplyStop)
  | .modRstFall => .of (h.modRstFall)
  | .moduleReset _ => .of (h.moduleReset)
  | .perstAssert => .of (h.perstAssert)
  | .functionLevelReset _ => .of (h.functionLevelReset)
  | .flrComplete => .of (h.flrComplete)
  | .thermalShutdown _ _ => .of (h.thermalShutdown)
  | .thermalRestart _ _ => .of (h.thermalRestart)
  | .coolantRise _ _ => .of (h.coolantRise)
  | .supplyLow _ _ => .of (h.supplyLow)
  | .rootPllRetry _ => .of (h.rootPllRetry)
  | .clockUnlock _ => .of (h.clockUnlock)
  | .stewardImageVerified _ => .of (h.stewardImageVerified)
  | .cellarTrainingDone _ _ => .of (h.cellarTrainingDone)
  | .fabricReady _ => .of (h.whileRunning h.fabricReady)
  | .pcieConfigRequest => .of (h.pcieConfigRequest)
  | .portKnockStart => .of (h.knockStart)
  | .knockReceived _ => .of (h.knockReceived)
  | .knockAnswerReady _ => .of (h.whileRunning h.knockReady)
  | .knockAnswerFalseStart _ => .of (h.whileRunning h.backOff)
  | .knockTimeout _ => .of (h.whileRunning h.backOff)
  | .portBackoffExpiry _ => .of (h.whileRunning h.backoffExpiry)
  | .portTrainTimeout _ => .of (h.whileRunning h.trainTimeout)
  | .portTrained _ => .of (h.whileRunning h.portTrained)
  | .linkIdentity _ _ _ => .of (h.whileRunning h.linkIdentity)
  | .registerWrite _ _ _ _ _ => .of (.ite h.bar0Write (h.bar0Early (h.onPage h.bar4Write)))
  | .bar0BadAccess _ _ _ => .of (h.bar0Early (h.onPage h.bar0BadAccess))
  | .bar0UnmappedWrite _ _ => .of (h.bar0Early (h.onPage h.bar0UnmappedWrite))
  | .blockEnable _ _ => .of (h.onPage h.writeBlkCtrl)
  | .blockDisable _ _ => .of (h.onPage h.writeBlkCtrl)
  | .blockDrained _ => .of (h.whileRunning h.blockDrained)
  | .blockSoftReset _ _ => .of (h.onPage h.writeBlkCtrl)
  | .expertUnlock _ => .of (h.onPage h.setF)
  | .expertLock _ => .of (h.onPage h.setF)
  | .eventClear _ _ _ => .of (h.onPage h.eventClear)
  | .eventInject _ _ => .of (h.onPage h.eventInject)
  | .eventRingEnable _ _ => .of (h.onPage h.writeEvqCfg)
  | .eventRingDisable _ _ => .of (h.onPage h.writeEvqCfg)
  | .evqHeadWrite _ _ => .of (h.onPage h.writeEvqHead)
  | .evqHoldoffExpiry _ => .of (h.whileRunning h.holdoffExpiry)
  | .partnerRegisterAccess _ _ _ => .of (h.onPacket fun h1 => h1.arrive)
  | .bar2Read _ _ _ => .of (.ite h.bar2Read h)
  | .bar2Write _ _ _ => .of (.ite h.bar2Write h)
  | .doeDiscovery _ => .of (.ite h.doeDiscovery h.doeWait)
  | .doeAbort => .of (h.whileRunning (.ite h.frame.emit h))
  | .managementRequest _ _ => .of (h.management)
  | .doorbell _ _ => .of (h.onPage h.doorbell)
  | .commandFetch _ _ => .of (h.fetchCmd)
  | .commandTimeout _ _ => .of (h.whileRunning h.commandTimeout)
  | .commandRetire _ _ _ _ => .of (h.whileRunning h.retire)
  | .matmul _ _ _ => .of (h.onLanes (fun _ _ h1 => h1.mmBody))
  | .matmulTwin _ _ _ => .of (h.onLanes (fun _ _ h1 => h1.twBody))
  | .fusedChunkReady _ _ _ => .of (h.fusedChunkReady)
  | .arrayWake _ _ => .of (.ite h.wakeArray h)
  | .arrayClockOff _ _ => .of (.ite h h.setLane)
  | .vecRun _ _ _ => .of (h.onLanes (fun _ _ h1 => h1.vecRunBody))
  | .vecNop _ _ => .of (.ite (h.vecStep (fun _ _ _ _ h1 => .next h1)) h)
  | .vecEnd _ _ => .of (.ite (h.vecStep fun _ _ _ _ h1 => h1.endOrWait) h)
  | .vecBr _ _ => .of (.ite (h.vecStep (fun _ _ _ _ h1 => h1.branchIf)) h)
  | .vecBz _ _ => .of (.ite (h.vecStep (fun _ _ _ _ h1 => h1.branchIf)) h)
  | .vecBnz _ _ => .of (.ite (h.vecStep (fun _ _ _ _ h1 => h1.branchIf)) h)
  | .vecBlt _ _ => .of (.ite (h.vecStep (fun _ _ _ _ h1 => h1.branchIf)) h)
  | .vecLoop _ _ => .of (.ite (h.vecStep (fun _ _ _ _ h1 => h1.loopBody)) h)
  | .vecFence _ _ => .of (.ite (h.vecStep fun _ _ _ _ h1 => h1.fenceOrWait) h)
  | .vecSadd _ _ => .of (.ite (h.vecStep (fun _ _ _ _ h1 => h1.scalarOp)) h)
  | .vecSsub _ _ => .of (.ite (h.vecStep (fun _ _ _ _ h1 => h1.scalarOp)) h)
  | .vecSmul _ _ => .of (.ite (h.vecStep (fun _ _ _ _ h1 => h1.scalarOp)) h)
  | .vecSand _ _ => .of (.ite (h.vecStep (fun _ _ _ _ h1 => h1.scalarOp)) h)
  | .vecSor _ _ => .of (.ite (h.vecStep (fun _ _ _ _ h1 => h1.scalarOp)) h)
  | .vecSxor _ _ => .of (.ite (h.vecStep (fun _ _ _ _ h1 => h1.scalarOp)) h)
  | .vecSshl _ _ => .of (.ite (h.vecStep (fun _ _ _ _ h1 => h1.scalarOp)) h)
  | .vecSshr _ _ => .of (.ite (h.vecStep (fun _ _ _ _ h1 => h1.scalarOp)) h)
  | .vecSsra _ _ => .of (.ite (h.vecStep (fun _ _ _ _ h1 => h1.scalarOp)) h)
  | .vecSli _ _ => .of (.ite (h.vecStep (fun _ _ _ _ h1 => h1.regOp)) h)
  | .vecSmin _ _ => .of (.ite (h.vecStep (fun _ _ _ _ h1 => h1.scalarOp)) h)
  | .vecSmax _ _ => .of (.ite (h.vecStep (fun _ _ _ _ h1 => h1.scalarOp)) h)
  | .vecSsys _ _ => .of (.ite (h.vecStep (fun _ _ _ _ h1 => .next h1.setLane)) h)
  | .vecSget _ _ => .of (.ite (h.vecStep (fun _ _ _ _ h1 => h1.regOp)) h)
  | .vecVadd _ _ => .of (.ite (h.vecStep (fun _ _ _ _ h1 => h1.elementOp)) h)
  | .vecVsub _ _ => .of (.ite (h.vecStep (fun _ _ _ _ h1 => h1.elementOp)) h)
  | .vecVmul _ _ => .of (.ite (h.vecStep (fun _ _ _ _ h1 => h1.elementOp)) h)
  | .vecVfma _ _ => .of (.ite (h.vecStep (fun _ _ _ _ h1 => h1.elementOp)) h)
  | .vecVmax _ _ => .of (.ite (h.vecStep (fun _ _ _ _ h1 => h1.elementOp)) h)
  | .vecVmin _ _ => .of (.ite (h.vecStep (fun _ _ _ _ h1 => h1.elementOp)) h)
  | .vecVabs _ _ => .of (.ite (h.vecStep (fun _ _ _ _ h1 => h1.elementOp)) h)
  | .vecVneg _ _ => .of (.ite (h.vecStep (fun _ _ _ _ h1 => h1.elementOp)) h)
  | .vecVmuls _ _ => .of (.ite (h.vecStep (fun _ _ _ _ h1 => h1.elementOp)) h)
  | .vecVadds _ _ => .of (.ite (h.vecStep (fun _ _ _ _ h1 => h1.elementOp)) h)
  | .vecVbcast _ _ => .of (.ite (h.vecStep (fun _ _ _ _ h1 => h1.elementOp)) h)
  | .vecVsel _ _ => .of (.ite (h.vecStep (fun _ _ _ _ h1 => h1.elementOp)) h)
  | .vecVcmp _ _ => .of (.ite (h.vecStep (fun _ _ _ _ h1 => h1.regOp)) h)
  | .vecVsqrt _ _ => .of (.ite (h.vecStep (fun _ _ _ _ h1 => h1.elementOp)) h)
  | .vecVrcp _ _ => .of (.ite (h.vecStep (fun _ _ _ _ h1 => h1.elementOp)) h)
  | .vecVrsqrt _ _ => .of (.ite (h.vecStep (fun _ _ _ _ h1 => h1.elementOp)) h)
  | .vecVexp2 _ _ => .of (.ite (h.vecStep (fun _ _ _ _ h1 => h1.elementOp)) h)
  | .vecVlog2 _ _ => .of (.ite (h.vecStep (fun _ _ _ _ h1 => h1.elementOp)) h)
  | .vecVexp _ _ => .of (.ite (h.vecStep (fun _ _ _ _ h1 => h1.elementOp)) h)
  | .vecVtanh _ _ => .of (.ite (h.vecStep (fun _ _ _ _ h1 => h1.elementOp)) h)
  | .vecVsig _ _ => .of (.ite (h.vecStep (fun _ _ _ _ h1 => h1.elementOp)) h)
  | .vecVsin _ _ => .of (.ite (h.vecStep (fun _ _ _ _ h1 => h1.elementOp)) h)
  | .vecVcos _ _ => .of (.ite (h.vecStep (fun _ _ _ _ h1 => h1.elementOp)) h)
  | .vecViadd _ _ => .of (.ite (h.vecStep (fun _ _ _ _ h1 => h1.elementOp)) h)
  | .vecViota _ _ => .of (.ite (h.vecStep (fun _ _ _ _ h1 => h1.elementOp)) h)
  | .vecVcvtfi _ _ => .of (.ite (h.vecStep (fun _ _ _ _ h1 => h1.elementOp)) h)
  | .vecVcvtif _ _ => .of (.ite (h.vecStep (fun _ _ _ _ h1 => h1.elementOp)) h)
  | .vecVrsum _ _ => .of (.ite (h.vecStep (fun _ _ _ _ h1 => h1.regOp)) h)
  | .vecVrmax _ _ => .of (.ite (h.vecStep (fun _ _ _ _ h1 => h1.regOp)) h)
  | .vecVrmin _ _ => .of (.ite (h.vecStep (fun _ _ _ _ h1 => h1.regOp)) h)
  | .vecVargmax _ _ => .of (.ite (h.vecStep (fun _ _ _ _ h1 => h1.argmaxBody)) h)
  | .vecPand _ _ => .of (.ite (h.vecStep (fun _ _ _ _ h1 => h1.regOp)) h)
  | .vecPor _ _ => .of (.ite (h.vecStep (fun _ _ _ _ h1 => h1.regOp)) h)
  | .vecPxor _ _ => .of (.ite (h.vecStep (fun _ _ _ _ h1 => h1.regOp)) h)
  | .vecPnot _ _ => .of (.ite (h.vecStep (fun _ _ _ _ h1 => h1.regOp)) h)
  | .vecPset _ _ => .of (.ite (h.vecStep (fun _ _ _ _ h1 => h1.regOp)) h)
  | .vecPcnt _ _ => .of (.ite (h.vecStep (fun _ _ _ _ h1 => h1.regOp)) h)
  | .vecVld _ _ => .of (.ite (h.vecStep (fun _ _ _ _ h1 => h1.vldBody)) h)
  | .vecVst _ _ => .of (.ite (h.vecStep (fun _ _ _ _ h1 => h1.vstBody)) h)
  | .vecVgath _ _ => .of (.ite (h.vecStep (fun _ _ _ _ h1 => h1.vgathBody)) h)
  | .vecVscat _ _ => .of (.ite (h.vecStep (fun _ _ _ _ h1 => h1.vscatBody)) h)
  | .vecSld _ _ => .of (.ite (h.vecStep fun _ _ _ _ h1 => h1.sldBody) h)
  | .vecSst _ _ => .of (.ite (h.vecStep fun _ _ _ _ h1 => h1.sstBody) h)
  | .vecRld _ _ => .of (.ite (h.vecStep (fun _ _ _ _ h1 => h1.rldBody)) h)
  | .vecRst _ _ => .of (.ite (h.vecStep (fun _ _ _ _ h1 => h1.rstBody)) h)
  | .vecRatomAdd _ _ => .of (.ite (h.vecStep (fun _ _ _ _ h1 => h1.ratomBody)) h)
  | .vecRatomSwap _ _ => .of (.ite (h.vecStep (fun _ _ _ _ h1 => h1.ratomBody)) h)
  | .vecRatomCas _ _ => .of (.ite (h.vecStep (fun _ _ _ _ h1 => h1.ratomBody)) h)
  | .vecRank _ _ => .of (.ite (h.vecStep (fun _ _ _ _ h1 => h1.rankBody)) h)
  | .vecVunif _ _ => .of (.ite (h.vecStep (fun _ _ _ _ h1 => .next h1.setLane)) h)
  | .vecVgumbel _ _ => .of (.ite (h.vecStep (fun _ _ _ _ h1 => .next h1.setLane)) h)
  | .vecVtopk _ _ => .of (.ite (h.vecStep (fun _ _ _ _ h1 => h1.regOp)) h)
  | .vecVtopp _ _ => .of (.ite (h.vecStep (fun _ _ _ _ h1 => h1.regOp)) h)
  | .dmaCopy _ _ _ => .of (h.dmaStep)
  | .scaleFind _ _ _ => .of (h.onLanes (fun _ _ h1 => h1.convBody))
  | .convert _ _ _ => .of (h.onLanes (fun _ _ h1 => h1.convBody))
  | .collReduceScatter _ _ _ => .of (h.onDispatch (fun _ _ h1 => h1.onStages (fun _ _ h2 => h2.startColl)))
  | .collAllGather _ _ _ => .of (h.onDispatch (fun _ _ h1 => h1.onStages (fun _ _ h2 => h2.startColl)))
  | .collAllReduce _ _ _ => .of (h.onDispatch (fun _ _ h1 => h1.onStages (fun _ _ h2 => h2.startColl)))
  | .collBroadcast _ _ _ => .of (h.onDispatch (fun _ _ h1 => h1.onStages (fun _ _ h2 => h2.startColl)))
  | .collAllToAll _ _ _ => .of (h.onDispatch (fun _ _ h1 => h1.onStages (fun _ _ h2 => h2.startColl)))
  | .chunkContrib _ _ => .of (h.whileRunning (.ite h.frame.collArrive h))
  | .chunkResult _ _ => .of (h.whileRunning (.ite h.frame.collArrive h))
  | .chunkAck _ _ => .of (h.whileRunning (.ite h.frame.collArrive h))
  | .chunkNak _ _ => .of (h.whileRunning (.ite h.frame.collArrive h))
  | .chunkConfirm _ _ => .of (h.whileRunning (.ite h.frame.collArrive h))
  | .chunkVoid _ _ => .of (h.whileRunning (.ite h.frame.collArrive h))
  | .chunkLater _ _ => .of (h.whileRunning (.ite h.frame.collArrive h))
  | .chunkStale _ _ => .of (h.whileRunning (.ite h.frame.collArrive h))
  | .laterRetryExpiry _ _ _ => .of (h.whileRunning h.laterRetry)
  | .hurdleWaitExpiry _ _ => .of (.ite (h.foldl (fun _ _ h1 => h1.abandonChunks)) h)
  | .updSweepAdamw _ _ _ => .of (h.whileRunning (h.onDispatch (fun _ _ h1 => h1.onStages (fun _ _ h2 => h2.updBody))))
  | .updSweepMomentum _ _ _ => .of (h.whileRunning (h.onDispatch (fun _ _ h1 => h1.onStages (fun _ _ h2 => h2.updBody))))
  | .updSweepOuter _ _ _ => .of (h.whileRunning (h.onDispatch (fun _ _ h1 => h1.onStages (fun _ _ h2 => h2.updBody))))
  | .updSweepFetch _ _ _ => .of (h.whileRunning (h.onDispatch (fun _ _ h1 => h1.onStages (fun _ _ h2 => h2.updBody))))
  | .updSweepAudit _ _ _ => .of (h.whileRunning (h.onDispatch (fun _ _ h1 => h1.onStages (fun _ _ h2 => h2.updBody))))
  | .fetchRetryExpiry _ _ _ => .of (h.whileRunning h.fetchRetry)
  | .backgroundAuditDone _ => .of (h.whileRunning h.auditDone)
  | .exportCmd _ _ _ => .of (h.whileRunning (h.onDispatch (fun _ _ h1 => h1.onStages (fun _ _ h2 => h2.exportBody))))
  | .importCmd _ _ _ => .of (h.whileRunning (h.onDispatch (fun _ _ h1 => h1.onStages (fun _ _ h2 => h2.importBody))))
  | .batonSendRelay _ _ _ => h.batonSendRelay
  | .batonSendFlag _ _ _ => h.batonSendFlag
  | .batonSendBaton _ _ _ => h.batonSendBaton
  | .batonSendMerge _ _ _ => h.batonSendMerge
  | .batonSendManifest _ _ _ => h.batonSendManifest
  | .batonSendTransfer _ _ _ => h.batonSendTransfer
  | .batonSendRebase _ _ _ => h.batonSendRebase
  | .lapWait _ _ _ => .of (h.onDispatch (fun _ _ h1 => h1.endSync))
  | .lapSignalAdd _ _ _ => .of (h.onDispatch (fun _ _ h1 => h1.endSync))
  | .lapSignalStore _ _ _ => .of (h.onDispatch (fun _ _ h1 => h1.endSync))
  | .fence _ _ _ => .of (h.onDispatch (fun _ _ h1 => h1.endSync))
  | .hurdle _ _ _ => .of (h.whileRunning (h.onDispatch (fun _ _ h1 => h1.startHurdle)))
  | .hurdleTableLoad _ _ _ => .of (h.whileRunning h.hurdleLoad)
  | .profileSwitch _ _ _ => .of (h.whileRunning (h.onDispatch (fun _ _ h1 => h1.profileSwitch)))
  | .hostLapAdd _ _ => .of (h.onPage h.hostLapAdd)
  | .watchRetryExpiry _ _ _ => .ofAnd (h.whileRunning h.watchRetry)
  | .laneReset _ => .of (h.onPage h.startLaneReset)
  | .laneResetDone _ => .of (h.laneResetDone)
  | .portReset _ => .of (h.onPage h.startPortReset)
  | .jobDeclare _ => .of (h.onPage h.declareJob)
  | .slotSelect _ => .of (h.onPage h.selectSlot)
  | .slotWindowCommit _ => .of (h.onPage h.commitWindow)
  | .slotWindowCommitDone => .of (h.commitWaiting)
  | .tableCommit _ _ => .of (h.onPage h.tableCtrlWrite)
  | .tableRetire _ => .of (h.onPage h.tableCtrlWrite)
  | .cellarRetrainTick _ _ => .of (h.whileRunning (.ite h.retrain h))
  | .cellarRetrainNow _ _ => .of (h.onPage h.retrainNow)
  | .mr4Poll _ _ _ => .of (h.whileRunning (.ite h.mr4Poll h))
  | .patrolRead _ _ _ => .of (h.whileRunning h.patrolRead)
  | .cellarInitRegion _ _ => .of (h.whileRunning h.initRegion)
  | .flitReceive _ _ _ _ _ _ => .of (h.whileRunning h.receiveFlit)
  | .replayTimeout _ _ => .of (h.whileRunning h.replay)
  | .lossOfLight _ => .of (h.whileRunning h.portDown)
  | .laneLossOfLock _ _ => .ofAnd (h.whileRunning h.lossOfLock)
  | .correctedSymbolLimit _ _ _ => .ofAnd (h.whileRunning h.symbolLimit)
  | .laneSwapHost _ _ => .of (h.onPage h.writePortLane)
  | .swapRequestReceived _ _ _ => .ofAnd (h.whileRunning (.ite h (.ite h.swapAnswer h.swapRequest)))
  | .swapDrainDone _ => .of (h.whileRunning h.swapDrainDone)
  | .spareLaneTrained _ _ => .of (h.whileRunning h.spareTrained)
  | .fabricRead _ _ _ => .of (h.onPacket fun h1 => h1.arrive)
  | .fabricWrite _ _ _ => .of (h.onPacket fun h1 => h1.arrive)
  | .fabricMaskedWrite _ _ _ => .of (h.onPacket fun h1 => h1.arrive)
  | .fabricAtomicAdd _ _ _ => .of (h.onPacket fun h1 => h1.arrive)
  | .fabricAtomicSwap _ _ _ => .of (h.onPacket fun h1 => h1.arrive)
  | .fabricCompareAndSwap _ _ _ => .of (h.onPacket fun h1 => h1.arrive)
  | .fabricWatch _ _ _ => .of (h.onPacket fun h1 => h1.arrive)
  | .insertRequest _ _ _ => .of (h.onPacket fun h1 => h1.arrive)
  | .insertForward _ _ _ => .of (h.onPacket fun h1 => h1.arrive)
  | .insertDrainDone _ => .of (h.whileRunning h.insertDrained)
  | .fabricResponse _ _ _ => .of (h.onPacket fun h1 => h1.takeResponse)
  | .rerouteDrainExpiry _ => .of (h.whileRunning h.drainExpiry)
  | .packetForward _ _ => .of (h.packetForward)
  | .txnTimeout _ => .of (h.whileRunning h.txnTimeout)
  | .ringInsertStart _ => .of (h.whileRunning h.insertStart)
  | .insertWaitExpiry _ => .of (h.whileRunning h.insertWait)
  | .ringRelease _ => .of (h.onPage h.releaseAxis)
  | .releaseDrainDone _ => .of (h.whileRunning h.releaseDrained)
  | .drainMessage _ => .of (h.whileRunning (.ite h.drainPort h))
  | .stadiumTimeExchange _ _ _ => .of (h.whileRunning h.stadiumTime)
  | .milantLinkUp _ => .of (h.whileRunning h.milLink)
  | .milantLinkDown _ => .of (h.whileRunning h.milLink)
  | .foreignFrame _ => .of (h.whileRunning (.ite h.satF h))
  | .relayParcel _ _ _ _ => .of (h.whileRunning (.ite h.parcelIn h))
  | .flagParcel _ _ _ _ => .of (h.whileRunning (.ite h.parcelIn h))
  | .batonParcel _ _ _ _ => .of (h.whileRunning (.ite h.parcelIn h))
  | .manifestParcel _ _ _ _ => .of (h.whileRunning (.ite h.parcelIn h))
  | .transferParcel _ _ _ _ => .of (h.whileRunning (.ite h.parcelIn h))
  | .controlAcknowledge _ _ _ _ => .of (h.whileRunning (.ite h.parcelIn h))
  | .controlResend _ _ _ _ => .of (h.whileRunning (.ite h.parcelIn h))
  | .controlWithdraw _ _ _ _ => .of (h.whileRunning (.ite h.parcelIn h))
  | .repairFrame _ _ _ _ => .of (h.whileRunning h.repairIn)
  | .ptpMessage _ _ _ _ _ _ _ => .of (h.whileRunning h.ptpMessage)
  | .ptpSyncTimer _ => .of (h.whileRunning h.ptpSync)
  | .timeSourceLost => .of (h.whileRunning h.sourceLost)
  | .ppsEdge => .of (h.whileRunning h.ppsEdge)
  | .timSetArm _ => .of (h.onPage h.armSeconds)
  | .groupHoldExpiry _ => .of (h.whileRunning h.closeGroup)
  | .groupWaitExpiry _ _ => .of (h.whileRunning h.groupWait)
  | .resendTimeout _ _ _ => .of (h.whileRunning h.resendAll)
  | .relayTimeout _ _ => .of (h.whileRunning h.relayTimeout)
  | .keyInstall _ _ => .of (h.onPage h.keyInstall)
  | .keyErase _ => .of (h.onPage h.keyErase)
  | .keySchedArm _ => .of (h.onPage h.keySched)
  | .keyChangeInstant _ _ => .of (h.whileRunning h.keyInstant)
  | .oldTxAssocErase _ => .of (h.whileRunning h.eraseOldTx)
  | .keyGraceExpiry _ => .of (h.whileRunning h.graceExpiry)
  | .watchdogExpiry _ => .of (h.watchdogExpiry)
  | .stewardRestarted _ => .of (h.stewardRestarted)
  | .updateManifest _ _ _ _ => .of (h.whileRunning (h.recordRow (fun _ _ h1 => h1.updateManifest)))
  | .updatePiece _ _ _ _ => .of (h.whileRunning (h.recordRow (fun _ _ h1 => h1.updatePiece)))
  | .updateStatus _ _ _ _ => .of (h.whileRunning (h.recordRow (fun _ _ h1 => h1.updateStatus)))
  | .updateApplyDone _ => .of (h.applyDone)
  | .fwuConfirm => .of (h.onPage h.fwuConfirm)
  | .fwuRevert => .of (h.onPage h.fwuRevert)
  | .fwuAbandon => .of (h.onPage h.fwuAbandon)
  | .fwuApply => .of (h.onPage h.fwuApply)
  | .attestReport _ => .of (h.attestRow h.attestReport)
  | .attestEndorsement => .of (h.attestRow h.attestEndorsement)
  | .setKek _ => .of (h.attestRow h.setKek)
  | .debugChallenge => .of (h.attestRow h.debugChallenge)
  | .debugUnlock _ _ _ _ _ => .of (h.attestRow h.debugUnlock)
  | .profileWrite _ _ => .of (h.onPage h.profileWrite)
  | .profileWriteDone _ => .of (h.profileWriteDone)
  | .capLoopTick _ _ _ _ => .of (h.capTick)
  | .voltageLoopTick _ _ => .of (h.voltageTick)
  | .thermalSample _ => .of (.ite (h.whileRunning h.thermalSample) h)
  | .droopDetect _ _ => .of (h.whileRunning h.droopDetect)
  | .droopRelease _ _ => .of (h.whileRunning h.droopRelease)
  | .clockDomainRelock _ => .of (h.clockDomainRelock)
  | .pcieLinkUp _ _ _ => .of (h.pcieLinkUp)
  | .keeperLevelHoldExpiry _ => .of (h.whileRunning h.keeperHoldExpiry)
  | .jtagAccess _ _ _ => .of (h.jtagAccess)

theorem exec_wf (c : Instr) (s : State) : ∃ t, Keeps s t ∧ exec c s = onInstance c.wf t := (Keeps.refl s).exec c

/-- Whatever a step answers, it is from its start on as Keeps says, but for the front of the queue. -/
theorem step_keeps {s t : State} (h : step s = .next t) : Keeps { s with pending := s.pending.tail } t := by
  cases hp : s.pending with
  | nil =>
    rw [step, hp] at h
    cases h
    have hk := (Keeps.refl s).idle
    exact ⟨hk.pending.trans hp, hk.regs, hk.fuses⟩
  | cons c rest =>
    rw [step, hp] at h
    obtain ⟨u, hk, he⟩ := (Keeps.refl { s with pending := rest }).exec c
    have : u = t := by
      cases hw : c.wf <;> simp_all [onInstance]
    exact this ▸ hk

/-- Settles O2: every row of `exec` keeps the commands that wait (`Keeps.exec`), and a step takes the front one first. -/
theorem queueIsFirstInFirstOut : Obligations.QueueIsFirstInFirstOut := by
  intro s t h
  exact (step_keeps h).pending

/-- Settles O5: registers are written by `setReg` and `resetPages` alone, and `Keeps.exec` carries the canonical form through
    every row. -/
theorem registersStayCanonical : Obligations.RegistersStayCanonical := by
  intro s t hs h
  exact (step_keeps h).regs hs

/-- Settles O6: the one row that changes the counter burns it upward, and no row clears a revoke fuse (`Keeps.exec`). -/
theorem rollbackNeverLoosens : Obligations.RollbackNeverLoosens := by
  intro s t h
  exact ⟨(step_keeps h).fuses.counter, (step_keeps h).fuses.revoked⟩

/-- Settles O3: every row is `onInstance` of its well-formedness (`Keeps.exec`). -/
theorem wellFormedCompletes : Obligations.WellFormedCompletes := by
  constructor
  · intro c s hc
    obtain ⟨t, -, h⟩ := exec_wf c s
    exact ⟨t, by rw [h, hc]; rfl⟩
  · intro c s hc
    obtain ⟨t, -, h⟩ := exec_wf c s
    rw [h, hc]; rfl

end

end Sys2Proof.Machine
end

section
/-! The bits of a register's word under field writes (00_scope, 04_registers_host), and what the machine holds after reset and
does on an empty queue. -/

namespace Sys2Proof.Machine

/-! ### Fields of a word -/

/-- A number cut at two bits: its high part, the field between them, and its low part. -/
theorem eq_high_field_low (n lo w : Nat) :
    n = 2 ^ lo * (2 ^ w * (n >>> (lo + w)) + bitsOf n lo w) + n % 2 ^ lo := by
  rw [bitsOf, Nat.shiftRight_add, Nat.shiftRight_eq_div_pow _ w, Nat.div_add_mod, Nat.shiftRight_eq_div_pow, Nat.div_add_mod]

/-- A word with a field replaced is its high part, the field's new value and its low part. -/
theorem toNat_insertBits (x : Word) {lo w : Nat} (v : Nat) (h : lo + w ≤ 32) : (insertBits x lo w v).toNat =
    2 ^ lo * (2 ^ w * (x.toNat >>> (lo + w)) + v % 2 ^ w) + x.toNat % 2 ^ lo := by
  have hx := eq_high_field_low x.toNat lo w
  have hlow : x.toNat % 2 ^ lo < 2 ^ lo := Nat.mod_lt _ (Nat.two_pow_pos lo)
  have hmid : v % 2 ^ w < 2 ^ w := Nat.mod_lt _ (Nat.two_pow_pos w)
  have hhigh : x.toNat >>> (lo + w) < 2 ^ (32 - (lo + w)) := by
    rw [Nat.shiftRight_eq_div_pow, Nat.div_lt_iff_lt_mul (Nat.two_pow_pos _), ← Nat.pow_add, Nat.sub_add_cancel h]
    exact x.isLt
  have hpow : 2 ^ lo * (2 ^ w * 2 ^ (32 - (lo + w))) = 2 ^ 32 := by
    rw [← Nat.pow_add, ← Nat.pow_add]; congr 1; omega
  have hnew : 2 ^ lo * (2 ^ w * (x.toNat >>> (lo + w)) + v % 2 ^ w) + x.toNat % 2 ^ lo < 2 ^ 32 := by
    have h1 : 2 ^ w * (x.toNat >>> (lo + w)) + v % 2 ^ w + 1 ≤ 2 ^ w * 2 ^ (32 - (lo + w)) := by
      have := Nat.mul_le_mul_left (2 ^ w) (Nat.succ_le_of_lt hhigh)
      rw [Nat.mul_succ] at this
      omega
    have := Nat.mul_le_mul_left (2 ^ lo) h1
    rw [Nat.mul_succ, hpow] at this
    omega
  have hcut : x.toNat - bitsOf x.toNat lo w * 2 ^ lo + v % 2 ^ w * 2 ^ lo =
      2 ^ lo * (2 ^ w * (x.toNat >>> (lo + w)) + v % 2 ^ w) + x.toNat % 2 ^ lo := by
    rw [Nat.mul_add] at hx ⊢
    rw [Nat.mul_comm (bitsOf _ _ _), Nat.mul_comm (v % 2 ^ w)]
    omega
  rw [insertBits, hcut, BitVec.toNat_ofNat, Nat.mod_eq_of_lt hnew]

/-- Bit by bit: the field's bits are the value's, every other bit is the word's. -/
theorem bitOf_insertBits (x : Word) {lo w : Nat} (v : Nat) (h : lo + w ≤ 32) (i : Nat) :
    bitOf (insertBits x lo w v).toNat i =
      if lo ≤ i ∧ i < lo + w then bitOf v (i - lo) else bitOf x.toNat i := by
  have hlow : x.toNat % 2 ^ lo < 2 ^ lo := Nat.mod_lt _ (Nat.two_pow_pos lo)
  have hmid : v % 2 ^ w < 2 ^ w := Nat.mod_lt _ (Nat.two_pow_pos w)
  rw [toNat_insertBits x v h]
  simp only [bitOf_eq_testBit]
  rw [Nat.testBit_two_pow_mul_add _ hlow, Nat.testBit_two_pow_mul_add _ hmid]
  by_cases h1 : i < lo
  · rw [if_pos h1, if_neg (by omega), Nat.testBit_mod_two_pow, decide_eq_true h1, Bool.true_and]
  · rw [if_neg h1]
    by_cases h2 : i < lo + w
    · rw [if_pos (by omega), if_pos ⟨by omega, h2⟩, Nat.testBit_mod_two_pow, decide_eq_true (by omega), Bool.true_and]
    · rw [if_neg (by omega), if_neg (by omega), Nat.testBit_shiftRight]
      congr 1; omega

/-- A replaced field holds the value cut to its width. -/
theorem bitsOf_insertBits_same (x : Word) {lo w : Nat} (v : Nat) (h : lo + w ≤ 32) :
    bitsOf (insertBits x lo w v).toNat lo w = v % 2 ^ w := by
  rw [bitsOf, toNat_insertBits x v h, Nat.shiftRight_eq_div_pow, Nat.mul_add_div (Nat.two_pow_pos lo),
    Nat.div_eq_of_lt (Nat.mod_lt _ (Nat.two_pow_pos lo)), Nat.add_zero, Nat.mul_add_mod, Nat.mod_mod]

/-- A field apart from the one replaced keeps its value. -/
theorem bitsOf_insertBits_apart (x : Word) {lo w lo' w' : Nat} (v : Nat) (h : lo + w ≤ 32) (hd : lo' + w' ≤ lo ∨ lo + w ≤ lo') :
    bitsOf (insertBits x lo w v).toNat lo' w' = bitsOf x.toNat lo' w' := by
  have hbit := fun i => bitOf_insertBits x v h (lo' + i)
  simp only [bitOf_eq_testBit] at hbit
  refine Nat.eq_of_testBit_eq fun i => ?_
  simp only [bitsOf, Nat.testBit_mod_two_pow, Nat.testBit_shiftRight, hbit]
  by_cases hi : i < w'
  · rw [if_neg (by omega)]
  · simp [hi]

variable {s : State}

/-- A field written reads back cut to its width. -/
theorem getF_setF_same (hs : s.regsWf = true) {f : Fld} (v : Nat) (h : f.lo + f.w ≤ 32) : getF (setF s f v) f = v % 2 ^ f.w := by
  rw [getF, setF, reg_setReg_same hs, bitsOf_insertBits_same _ _ h]

/-- A field of the same register that does not overlap the one written keeps its value. -/
theorem getF_setF_apart (hs : s.regsWf = true) {f g : Fld} (v : Nat) (h : f.lo + f.w ≤ 32) (ha : g.addr = f.addr)
    (hd : g.lo + g.w ≤ f.lo ∨ f.lo + f.w ≤ g.lo) : getF (setF s f v) g = getF s g := by
  rw [getF, setF, ha, reg_setReg_same hs, bitsOf_insertBits_apart _ _ h hd, getF, ha]

theorem isSet_setF_apart (hs : s.regsWf = true) {f g : Fld} (v : Nat) (h : f.lo + f.w ≤ 32) (ha : g.addr = f.addr)
    (hd : g.lo + g.w ≤ f.lo ∨ f.lo + f.w ≤ g.lo) : isSet (setF s f v) g = isSet s g := by
  rw [isSet, getF_setF_apart hs v h ha hd, isSet]

theorem isSet_setF_same (hs : s.regsWf = true) {f : Fld} (v : Nat) (h : f.lo + f.w ≤ 32) :
    isSet (setF s f v) f = (v % 2 ^ f.w == 1) := by
  rw [isSet, getF_setF_same hs v h]

/-- A count taken on stops at its field's largest value. -/
theorem getF_satF_same (hs : s.regsWf = true) {f : Fld} (k : Nat) (h : f.lo + f.w ≤ 32) :
    getF (satF s f k) f = satAdd f.w (getF s f) k := by
  have := Nat.two_pow_pos f.w
  rw [satF, getF_setF_same hs _ h]
  exact Nat.mod_eq_of_lt (by unfold satAdd; omega)

theorem getF_satF_ne (s : State) {f g : Fld} (k : Nat) (h : g.addr ≠ f.addr) : getF (satF s f k) g = getF s g :=
  getF_setF_ne s _ h

/-- Settles O8, bit by bit from `bitOf_insertBits`. -/
theorem fieldWrite : Obligations.FieldWrite := by
  intro s f v hs hf
  refine ⟨getF_setF_same hs v hf, fun i _ hi => ?_, fun a ha => reg_setF_ne s v ha, rfl, setF_regsWf hs f v⟩
  rw [setF, reg_setReg_same hs, bitOf_insertBits _ _ hf, if_neg (by omega)]

end Sys2Proof.Machine
end

section
/-! The empty queue and the machine after reset (00_scope, 03_first_second). -/

namespace Sys2Proof.Machine

theorem freshTaps_tapsWf {s : State} (h : tableWf (fun _ => (0 : Nat)) s.pac.taps = true) (n : Nat) :
    tableWf (fun _ => (0 : Nat)) (freshTaps s n).pac.taps = true := by
  unfold freshTaps
  exact tableWf_tset _ h n (tapsOf s n + 1)

/-- Ports adapt their taps one after another: each one named counts once, the others keep theirs. -/
theorem tapsOf_foldl_freshTaps {ports : List Nat} (hp : ports.Nodup) {s : State}
    (h : tableWf (fun _ => (0 : Nat)) s.pac.taps = true) (n : Nat) :
    tapsOf (ports.foldl freshTaps s) n = tapsOf s n + b2n (decide (n ∈ ports)) := by
  induction ports generalizing s with
  | nil => simp [b2n]
  | cons m ports ih =>
    obtain ⟨hm, hp⟩ := List.nodup_cons.mp hp
    rw [List.foldl_cons, ih hp (freshTaps_tapsWf h m)]
    by_cases hn : n = m
    · subst hn
      have hsame : tapsOf (freshTaps s n) n = tapsOf s n + 1 := tget_tset_same _ h n (tapsOf s n + 1)
      simp [hsame, hm, b2n]
    · have hne : tapsOf (freshTaps s m) n = tapsOf s n := tget_tset_ne _ s.pac.taps (tapsOf s m + 1) hn
      simp [hne, hn]

/-- Taps are all that adapting changes. -/
theorem foldl_freshTaps_frame (ports : List Nat) (s : State) :
    ports.foldl freshTaps s = { s with pac := { s.pac with taps := (ports.foldl freshTaps s).pac.taps } } := by
  induction ports generalizing s with
  | nil => rfl
  | cons m ports ih => rw [List.foldl_cons, ih]; rfl

theorem tapsOf_adaptTaps {s : State} (h : tableWf (fun _ => (0 : Nat)) s.pac.taps = true) {n : Nat} (hn : n < 22) :
    tapsOf (adaptTaps s) n = tapsOf s n + b2n (adapts s n) := by
  rw [adaptTaps, tapsOf_foldl_freshTaps (List.nodup_range.filter _) h]
  simp [hn]

/-- With no term of the servo to slew it, a nanosecond of the clock only counts. -/
theorem tickClock_unslewed {s : State} (hf : s.tim.freq = 0) (hp : s.tim.phaseLeft = 0) (hs : s.tim.slew = 0) :
    tickClock s = { s with deviceTime := s.deviceTime + 1 } := by
  cases htim : s.tim
  simp_all [tickClock]

/-- Settles O1: `step` by cases of the queue, and the idle nanosecond by `tickClock_unslewed` and `tapsOf_adaptTaps`. -/
theorem stepRunsFront : Obligations.StepRunsFront := by
  refine ⟨fun c rest s h => ?_, fun s h hr => ?_, fun s => tickClock_unslewed, fun s n hw hn => ⟨fun ha => ?_, fun ha => ?_, ?_⟩,
    fun s h hr => ?_⟩
  · rw [step, h]
  · rw [step, h, idle, if_pos hr]
  · rw [tapsOf_adaptTaps hw hn, ha]; rfl
  · rw [tapsOf_adaptTaps hw hn, ha]; rfl
  · exact foldl_freshTaps_frame _ s
  · rw [step, h, idle, if_neg hr]

/-- Settles O7: the initial state's fields as they stand, and its table of two registers read at any other offset. -/
theorem resetState : Obligations.ResetState := by
  refine ⟨rfl, rfl, rfl, rfl, rfl, rfl, rfl, by decide, by decide, by decide, by decide, fun a h1 h2 => ?_⟩
  simp [reg, State.reset, tget, h1.symm, h2.symm]

end Sys2Proof.Machine
end

section
/-! An event record written to a ring that signals by interrupt (04_registers_host). -/

namespace Sys2Proof.Machine

/-- Event ring 0 enabled with irq_en, every other register at its reset word; the MSI-X vectors are masked (R84). -/
def signallingRing : State := { regs := [(0x8108, 0x80001)] }

theorem signallingRing_regsWf : signallingRing.regsWf = true := by decide

/-- Its record's signal is held in the pending-bit array, which is the host interface's state. -/
theorem raiseEv_signallingRing_pends : (raiseEv signallingRing pgLAP ⟨0x2C01, 1⟩ []).host.msixPending = [0] := by decide

/-- Refutes O23: a record's signal at a masked vector is held pending, so that raising an event changes more than registers,
the event system and what was sent. -/
theorem not_eventRaised : ¬ Obligations.EventRaised := by
  intro h
  obtain ⟨hframe, -⟩ := h signallingRing pgLAP ⟨0x2C01, 1⟩ [] signallingRing_regsWf (by decide) (by decide) (by decide)
  have hhost : (raiseEv signallingRing pgLAP ⟨0x2C01, 1⟩ []).host = {} := congrArg State.host hframe
  have hpend := raiseEv_signallingRing_pends
  rw [hhost] at hpend
  exact absurd hpend (by decide)

end Sys2Proof.Machine
end

section
/-! What raising an event reads and writes (R76, R86 to R91): the registers it can reach, and that without an enabled ring
nothing is sent. -/

namespace Sys2Proof.Machine

/-- A register that no event touches: past the block registers of its page, and not the event rings' page. -/
def Aside (a : Nat) : Prop := 0x100 ≤ a % 0x1000 ∧ a / 0x1000 ≠ pgEVQ

/-- The block registers of a page lie below offset 0x100. -/
theorem Aside.ne_block {a : Nat} (h : Aside a) (p : Nat) {k : Nat} (hk : k < 0x100) : a ≠ p * 0x1000 + k := by
  intro e
  have := h.1
  omega

theorem Aside.ne_ring {a : Nat} (h : Aside a) {n c : Nat} (hn : n < 16) (hc : 0x8100 ≤ c ∧ c < 0x8140) :
    a ≠ c + 0x40 * n := by
  intro e
  refine h.2 ?_
  unfold pgEVQ
  omega

section
variable {s : State} {a : Nat}

theorem reg_satF_aside {f : Fld} {k : Nat} (hf : a ≠ f.addr) : reg (satF s f k) a = reg s a := reg_satF_ne s k hf

theorem reg_markEvent_aside (h : Aside a) (p c : Nat) : reg (markEvent s p c) a = reg s a := by
  rw [markEvent, reg_satF_ne _ _ (h.ne_block p (k := 0x1C) (by decide)), reg_setReg_ne _ _ (h.ne_block p (by decide))]

theorem reg_logError_aside (h : Aside a) (p c v : Nat) (l : List Nat) : reg (logError s p c v l) a = reg s a := by
  have hcode := h.ne_block p (k := 0x20) (by decide)
  rw [logError, reg_setF_ne _ _ (h.ne_block p (k := 0x2C) (by decide)), reg_setF_ne _ _ (h.ne_block p (k := 0x28) (by decide)),
    reg_setF_ne _ _ (h.ne_block p (k := 0x24) (by decide)), reg_setF_ne _ _ hcode, reg_setF_ne _ _ hcode,
    reg_setF_ne _ _ hcode]

theorem reg_takeSeq_aside (h : Aside a) : reg (takeSeq s).2 a = reg s a :=
  reg_setF_ne s _ fun e => h.2 (by rw [e]; decide)

theorem reg_sendMsix (v : Nat) : reg (sendMsix s v) a = reg s a := by unfold sendMsix; split <;> rfl

theorem reg_with_ev (e : EvSt) : reg { s with ev := e } a = reg s a := rfl

theorem reg_emit (o : Output) : reg (emit s o) a = reg s a := rfl

theorem reg_setRingSt (n : Nat) (r : RingSt) : reg (setRingSt s n r) a = reg s a := rfl

theorem reg_ringSignal (n : Nat) : reg (ringSignal s n) a = reg s a := by
  unfold ringSignal
  dsimp only
  split
  · exact reg_sendMsix _
  · rfl

theorem reg_ringWrite_aside (h : Aside a) {n : Nat} (hn : n < 16) (r : EventRec) : reg (ringWrite s n r) a = reg s a := by
  unfold ringWrite
  dsimp only
  rw [reg_ringSignal, reg_setRingSt, reg_setF_ne _ _ (f := EVQ_STAT_full n) (h.ne_ring hn (by decide)),
    reg_setF_ne _ _ (f := EVQ_TAIL_tail n) (h.ne_ring hn (by decide)), reg_emit, reg_emit]

theorem reg_ringDrop_aside (h : Aside a) {n : Nat} (hn : n < 16) (r : EventRec) : reg (ringDrop s n r) a = reg s a :=
  (reg_satF_ne _ _ (f := EVQ_STAT_dropped n) (h.ne_ring hn (by decide))).trans (reg_setRingSt ..)

theorem reg_ringMarker_aside (h : Aside a) {n : Nat} (hn : n < 16) (e : Ev) (l : List Nat) :
    reg (ringMarker s n e l) a = reg s a := by
  rw [ringMarker, reg_ringWrite_aside h hn, reg_takeSeq_aside h, reg_markEvent_aside h]

theorem reg_ringPut_aside (h : Aside a) {n : Nat} (hn : n < 16) (r : EventRec) : reg (ringPut s n r) a = reg s a := by
  unfold ringPut
  dsimp only
  split
  · exact reg_ringDrop_aside h hn r
  · split
    · rw [reg_ringMarker_aside h hn, reg_ringDrop_aside h hn]
    · exact reg_ringWrite_aside h hn r

theorem reg_holdPut_aside (h : Aside a) (r : EventRec) : reg (holdPut s r) a = reg s a := by
  unfold holdPut
  dsimp only
  split
  · rfl
  · split
    · split
      · rw [reg_with_ev, reg_takeSeq_aside h, reg_markEvent_aside h, reg_with_ev]
      · rw [reg_markEvent_aside h, reg_with_ev]
    · rfl

theorem chooseRing_lt {v p n : Nat} (h : chooseRing s v p = some n) : n < 16 := by
  unfold chooseRing at h
  dsimp only at h
  split at h
  next e =>
    cases h
    exact List.mem_range.mp (List.mem_of_find?_eq_some e)
  next => exact List.mem_range.mp (List.mem_of_find?_eq_some h)

theorem reg_putRecord_aside (h : Aside a) (p c v : Nat) (l : List Nat) : reg (putRecord s p c v l) a = reg s a := by
  unfold putRecord
  dsimp only
  split
  next e => rw [reg_ringPut_aside h (chooseRing_lt e), reg_takeSeq_aside h]
  next => rw [reg_holdPut_aside h, reg_takeSeq_aside h]

/-- What an occurrence does before its record: it is marked, counted and, where severe, logged. -/
def marked (s : State) (p : Nat) (e : Ev) (l : List Nat) : State :=
  if 3 ≤ e.sev then logError (markEvent s p e.code) p e.code e.sev l else markEvent s p e.code

theorem raiseEv_eq_marked (s : State) (p : Nat) (e : Ev) (l : List Nat) : raiseEv s p e l =
    if bitOf (getF (marked s p e l) (BLK_EVENT_EN_event_en p)) (e.code % 1024 % 32)
    then putRecord (marked s p e l) p e.code e.sev l else marked s p e l := rfl

theorem reg_marked_aside (h : Aside a) (p : Nat) (e : Ev) (l : List Nat) : reg (marked s p e l) a = reg s a := by
  unfold marked
  split
  · rw [reg_logError_aside h, reg_markEvent_aside h]
  · exact reg_markEvent_aside h _ _

/-- Raising an event writes the block registers of pages and the event rings' page alone. -/
theorem reg_raiseEv_aside (h : Aside a) (p : Nat) (e : Ev) (l : List Nat) : reg (raiseEv s p e l) a = reg s a := by
  rw [raiseEv_eq_marked]
  split
  · rw [reg_putRecord_aside h, reg_marked_aside h]
  · exact reg_marked_aside h ..

theorem getF_raiseEv_aside {f : Fld} (h : Aside f.addr) (p : Nat) (e : Ev) (l : List Nat) :
    getF (raiseEv s p e l) f = getF s f := by
  rw [getF, reg_raiseEv_aside h, getF]

theorem isSet_raiseEv_aside {f : Fld} (h : Aside f.addr) (p : Nat) (e : Ev) (l : List Nat) :
    isSet (raiseEv s p e l) f = isSet s f := by
  rw [isSet, getF_raiseEv_aside h, isSet]

theorem raiseEv_regsWf (hs : s.regsWf = true) (p : Nat) (e : Ev) (l : List Nat) : (raiseEv s p e l).regsWf = true :=
  (Keeps.refl s).raiseEv.regs hs

/-! ### Without an enabled ring -/

/-- A register that an event's bookkeeping does not touch before it looks for a ring: a ring's configuration. -/
theorem ringOn_setReg {b : Nat} {w : Word} {n : Nat} (h : 0x8108 + 0x40 * n ≠ b) : ringOn (setReg s b w) n = ringOn s n := by
  have hreg : reg (setReg s b w) (EVQ_CFG_enable n).addr = reg s (EVQ_CFG_enable n).addr := reg_setReg_ne s w h
  rw [ringOn, isSet, getF, hreg, ringOn, isSet, getF]

/-- No ring is enabled. -/
def NoRing (s : State) : Prop := ∀ n, n < 16 → ringOn s n = false

theorem NoRing.setReg (h : NoRing s) {b : Nat} {w : Word} (hb : ∀ n, n < 16 → 0x8108 + 0x40 * n ≠ b) :
    NoRing (Machine.setReg s b w) := fun n hn => (ringOn_setReg (hb n hn)).trans (h n hn)

/-- The block registers of a page are no ring's configuration. -/
theorem NoRing.setBlock (h : NoRing s) {p k : Nat} {w : Word} (hk : k < 0x100) :
    NoRing (Machine.setReg s (p * 0x1000 + k) w) := h.setReg fun n hn => by omega

theorem NoRing.markEvent (h : NoRing s) (p c : Nat) : NoRing (Machine.markEvent s p c) :=
  (h.setBlock (by decide)).setBlock (by decide)

theorem NoRing.logError (h : NoRing s) (p c v : Nat) (l : List Nat) : NoRing (Machine.logError s p c v l) :=
  (((((h.setBlock (by decide)).setBlock (by decide)).setBlock (by decide)).setBlock (by decide)).setBlock (by decide)).setBlock
    (by decide)

theorem NoRing.takeSeq (h : NoRing s) : NoRing (Machine.takeSeq s).2 := h.setReg fun n hn => by
  show _ ≠ 0x8500
  omega

theorem chooseRing_noRing (h : NoRing s) (v p : Nat) : chooseRing s v p = none := by
  have hoff : ∀ n ∈ List.range 16, ringOn s n = false := fun n hn => h n (List.mem_range.mp hn)
  unfold chooseRing
  dsimp only
  split
  next e =>
    have hon := List.find?_some e
    simp [hoff _ (List.mem_of_find?_eq_some e)] at hon
  next => exact List.find?_eq_none.mpr fun n hn => by simp [hoff n hn]

theorem holdPut_host (r : EventRec) : (holdPut s r).host = s.host := by
  unfold holdPut
  dsimp only
  split
  · rfl
  · split
    · split <;> rfl
    · rfl

theorem putRecord_noRing (h : NoRing s) (p c v : Nat) (l : List Nat) : putRecord s p c v l =
    holdPut (takeSeq s).2 ⟨v, p, c, (takeSeq s).1, timeNow (takeSeq s).2, l⟩ := by
  unfold putRecord
  dsimp only
  rw [chooseRing_noRing h.takeSeq]

theorem NoRing.marked (h : NoRing s) (p : Nat) (e : Ev) (l : List Nat) : NoRing (Machine.marked s p e l) := by
  unfold Machine.marked
  split
  · exact (h.markEvent _ _).logError _ _ _ _
  · exact h.markEvent _ _

theorem marked_out (p : Nat) (e : Ev) (l : List Nat) : (marked s p e l).out = s.out := by unfold marked; split <;> simp

theorem marked_host (p : Nat) (e : Ev) (l : List Nat) : (marked s p e l).host = s.host := by unfold marked; split <;> simp

/-- With no ring enabled an event sends nothing, and the host interface is as it was. -/
theorem raiseEv_noRing (h : NoRing s) (p : Nat) (e : Ev) (l : List Nat) :
    (raiseEv s p e l).out = s.out ∧ (raiseEv s p e l).host = s.host := by
  rw [raiseEv_eq_marked]
  split
  · rw [putRecord_noRing (h.marked _ _ _), holdPut_out, holdPut_host, takeSeq_out, takeSeq_host, marked_out, marked_host]
    exact ⟨rfl, rfl⟩
  · exact ⟨marked_out .., marked_host ..⟩

end

/-! ### What events leave as it was -/

/-- From s to t at most registers, the event system, what was sent and the host interface differ. -/
structure ByEvents (s t : State) : Prop where
  pending : t.pending = s.pending
  freeCtr : t.freeCtr = s.freeCtr
  life : t.life = s.life
  cause : t.cause = s.cause
  pins : t.pins = s.pins
  fuses : t.fuses = s.fuses
  flash : t.flash = s.flash
  cmds : t.cmds = s.cmds
  laps : t.laps = s.laps
  lanes : t.lanes = s.lanes
  num : t.num = s.num
  mem : t.mem = s.mem
  cbz : t.cbz = s.cbz
  fab : t.fab = s.fab
  coll : t.coll = s.coll
  upd : t.upd = s.upd
  mil : t.mil = s.mil
  tim : t.tim = s.tim
  stw : t.stw = s.stw
  pac : t.pac = s.pac
  hot : t.hot = s.hot
  pulsed : t.pulsed = s.pulsed
  deviceTime : t.deviceTime = s.deviceTime

section
variable {r s t : State}

theorem ByEvents.eq_with (h : ByEvents s t) : t = { s with out := t.out, regs := t.regs, ev := t.ev, host := t.host } := by
  obtain ⟨hpending, hfreeCtr, hlife, hcause, hpins, hfuses, hflash, hcmds, hlaps, hlanes, hnum, hmem, hcbz, hfab, hcoll, hupd,
      hmil, htim, hstw, hpac, hhot, hpulsed, hdeviceTime⟩ := h
  cases s
  cases t
  simp_all

theorem ByEvents.refl (s : State) : ByEvents s s := ⟨rfl, rfl, rfl, rfl, rfl, rfl, rfl, rfl, rfl, rfl, rfl, rfl, rfl, rfl, rfl,
    rfl, rfl, rfl, rfl, rfl, rfl, rfl, rfl⟩

theorem ByEvents.trans (h : ByEvents r s) (h' : ByEvents s t) : ByEvents r t :=
  ⟨h'.pending.trans h.pending, h'.freeCtr.trans h.freeCtr, h'.life.trans h.life, h'.cause.trans h.cause, h'.pins.trans h.pins,
      h'.fuses.trans h.fuses, h'.flash.trans h.flash, h'.cmds.trans h.cmds, h'.laps.trans h.laps, h'.lanes.trans h.lanes,
      h'.num.trans h.num, h'.mem.trans h.mem, h'.cbz.trans h.cbz, h'.fab.trans h.fab, h'.coll.trans h.coll, h'.upd.trans h.upd,
      h'.mil.trans h.mil, h'.tim.trans h.tim, h'.stw.trans h.stw, h'.pac.trans h.pac, h'.hot.trans h.hot, h'.pulsed.trans
      h.pulsed, h'.deviceTime.trans h.deviceTime⟩

theorem ByEvents.raiseEv (h : ByEvents r s) (p : Nat) (e : Ev) (l : List Nat) : ByEvents r (Machine.raiseEv s p e l) :=
  h.trans ⟨raiseEv_pending .., raiseEv_freeCtr .., raiseEv_life .., raiseEv_cause .., raiseEv_pins .., raiseEv_fuses ..,
      raiseEv_flash .., raiseEv_cmds .., raiseEv_laps .., raiseEv_lanes .., raiseEv_num .., raiseEv_mem .., raiseEv_cbz ..,
      raiseEv_fab .., raiseEv_coll .., raiseEv_upd .., raiseEv_mil .., raiseEv_tim .., raiseEv_stw .., raiseEv_pac ..,
      raiseEv_hot .., raiseEv_pulsed .., raiseEv_deviceTime ..⟩

theorem ByEvents.setReg (h : ByEvents r s) (a : Nat) (w : Word) : ByEvents r (Machine.setReg s a w) :=
  ⟨h.pending, h.freeCtr, h.life, h.cause, h.pins, h.fuses, h.flash, h.cmds, h.laps, h.lanes, h.num, h.mem, h.cbz, h.fab, h.coll,
      h.upd, h.mil, h.tim, h.stw, h.pac, h.hot, h.pulsed, h.deviceTime⟩

theorem ByEvents.setF (h : ByEvents r s) (f : Fld) (v : Nat) : ByEvents r (Machine.setF s f v) := h.setReg _ _

theorem ByEvents.satF (h : ByEvents r s) (f : Fld) (k : Nat) : ByEvents r (Machine.satF s f k) := h.setReg _ _

theorem ByEvents.ite {c : Prop} [Decidable c] {s t : State} (hs : ByEvents r s) (ht : ByEvents r t) :
    ByEvents r (if c then s else t) := by
  split
  · exact hs
  · exact ht

theorem raiseEv_frame (s : State) (p : Nat) (e : Ev) (l : List Nat) : Machine.raiseEv s p e l = { s with
    out := (Machine.raiseEv s p e l).out, regs := (Machine.raiseEv s p e l).regs, ev := (Machine.raiseEv s p e l).ev,
    host := (Machine.raiseEv s p e l).host } := ((ByEvents.refl s).raiseEv p e l).eq_with

end

end Sys2Proof.Machine
end

section
/-! Starts of the module (02_module, 03_first_second): what an operation on registers alone leaves, and that a start leaves
everything else afresh. -/

namespace Sys2Proof.Machine

/-! ### Operations on registers alone -/

/-- From s to t at most registers differ. -/
structure OnlyRegs (s t : State) : Prop where
  pending : t.pending = s.pending
  out : t.out = s.out
  freeCtr : t.freeCtr = s.freeCtr
  life : t.life = s.life
  cause : t.cause = s.cause
  pins : t.pins = s.pins
  fuses : t.fuses = s.fuses
  flash : t.flash = s.flash
  ev : t.ev = s.ev
  host : t.host = s.host
  cmds : t.cmds = s.cmds
  laps : t.laps = s.laps
  lanes : t.lanes = s.lanes
  num : t.num = s.num
  mem : t.mem = s.mem
  cbz : t.cbz = s.cbz
  fab : t.fab = s.fab
  coll : t.coll = s.coll
  upd : t.upd = s.upd
  mil : t.mil = s.mil
  tim : t.tim = s.tim
  stw : t.stw = s.stw
  pac : t.pac = s.pac
  hot : t.hot = s.hot
  pulsed : t.pulsed = s.pulsed
  deviceTime : t.deviceTime = s.deviceTime

section
variable {r s t : State}

theorem OnlyRegs.eq_with (h : OnlyRegs s t) : t = { s with regs := t.regs } := by
  obtain ⟨hpending, hout, hfreeCtr, hlife, hcause, hpins, hfuses, hflash, hev, hhost, hcmds, hlaps, hlanes, hnum, hmem, hcbz,
      hfab, hcoll, hupd, hmil, htim, hstw, hpac, hhot, hpulsed, hdeviceTime⟩ := h
  cases s
  cases t
  simp_all

theorem OnlyRegs.refl (s : State) : OnlyRegs s s := ⟨rfl, rfl, rfl, rfl, rfl, rfl, rfl, rfl, rfl, rfl, rfl, rfl, rfl, rfl, rfl,
    rfl, rfl, rfl, rfl, rfl, rfl, rfl, rfl, rfl, rfl, rfl⟩

theorem OnlyRegs.trans (h : OnlyRegs r s) (h' : OnlyRegs s t) : OnlyRegs r t :=
  ⟨h'.pending.trans h.pending, h'.out.trans h.out, h'.freeCtr.trans h.freeCtr, h'.life.trans h.life, h'.cause.trans h.cause,
      h'.pins.trans h.pins, h'.fuses.trans h.fuses, h'.flash.trans h.flash, h'.ev.trans h.ev, h'.host.trans h.host,
      h'.cmds.trans h.cmds, h'.laps.trans h.laps, h'.lanes.trans h.lanes, h'.num.trans h.num, h'.mem.trans h.mem, h'.cbz.trans
      h.cbz, h'.fab.trans h.fab, h'.coll.trans h.coll, h'.upd.trans h.upd, h'.mil.trans h.mil, h'.tim.trans h.tim, h'.stw.trans
      h.stw, h'.pac.trans h.pac, h'.hot.trans h.hot, h'.pulsed.trans h.pulsed, h'.deviceTime.trans h.deviceTime⟩

theorem OnlyRegs.byEvents (h : OnlyRegs s t) : ByEvents s t :=
  ⟨h.pending, h.freeCtr, h.life, h.cause, h.pins, h.fuses, h.flash, h.cmds, h.laps, h.lanes, h.num, h.mem, h.cbz, h.fab, h.coll,
      h.upd, h.mil, h.tim, h.stw, h.pac, h.hot, h.pulsed, h.deviceTime⟩

theorem OnlyRegs.setReg (h : OnlyRegs r s) (a : Nat) (w : Word) : OnlyRegs r (Machine.setReg s a w) :=
  ⟨h.pending, h.out, h.freeCtr, h.life, h.cause, h.pins, h.fuses, h.flash, h.ev, h.host, h.cmds, h.laps, h.lanes, h.num, h.mem,
      h.cbz, h.fab, h.coll, h.upd, h.mil, h.tim, h.stw, h.pac, h.hot, h.pulsed, h.deviceTime⟩

theorem OnlyRegs.setF (h : OnlyRegs r s) (f : Fld) (v : Nat) : OnlyRegs r (Machine.setF s f v) := h.setReg _ _

theorem OnlyRegs.satF (h : OnlyRegs r s) (f : Fld) (k : Nat) : OnlyRegs r (Machine.satF s f k) := h.setReg _ _

theorem OnlyRegs.setLock (h : OnlyRegs r s) (d : Nat) (on : Bool) : OnlyRegs r (Machine.setLock s d on) := by
  unfold Machine.setLock
  split
  · exact h.setReg _ _
  · exact h.setReg _ _

theorem OnlyRegs.ite {c : Prop} [Decidable c] {s t : State} (hs : OnlyRegs r s) (ht : OnlyRegs r t) :
    OnlyRegs r (if c then s else t) := by
  split
  · exact hs
  · exact ht

theorem OnlyRegs.foldl {β : Type} {g : State → β → State} {l : List β} (h : OnlyRegs r s)
    (H : ∀ s b, OnlyRegs r s → OnlyRegs r (g s b)) : OnlyRegs r (l.foldl g s) := by
  induction l generalizing s with
  | nil => exact h
  | cons b l ih => exact ih (H s b h)

theorem OnlyRegs.startBlocks (h : OnlyRegs r s) : OnlyRegs r (Machine.startBlocks s) :=
  h.foldl fun _ _ h1 => .ite (h1.setF _ _) h1

end

/-! ### Starts -/

/-- The registers are loaded, and the lane map of the fuses. -/
theorem loadFuses_frame (s : State) : loadFuses s = { s with regs := (loadFuses s).regs, fuses := { s.fuses with
    loadedLane := s.fuses.physLane, loadedSub := s.fuses.subLanes } } := by
  have hwords : OnlyRegs s (s.fuses.words.foldl (fun s e => setReg s e.1 e.2) s) :=
    (OnlyRegs.refl s).foldl fun _ _ h => h.setReg _ _
  have hrest : ∀ t : State, OnlyRegs t (startBlocks (setF (setF (setF (setF ((List.range 39).foldl (fun s d =>
      if fromNet d ∧ !s.pins.netRef then s else setLock s d true) t) CLK_STATUS_root_lock 1) CLK_STATUS_sys_ref_ok 1)
      CLK_STATUS_net_ref_ok (b2n ((List.range 39).foldl (fun s d =>
      if fromNet d ∧ !s.pins.netRef then s else setLock s d true) t).pins.netRef)) DEV_START_fuses_done 1)) := fun t =>
    ((((((OnlyRegs.refl t).foldl fun _ _ h => .ite h (h.setLock _ _)).setF _ _).setF _ _).setF _ _).setF _ _).startBlocks
  unfold loadFuses
  dsimp only
  rw [(hrest _).eq_with, hwords.eq_with]

variable {s : State}

/-- What a start samples and settles before step 1, with no event raised yet. -/
def sampledState (s : State) (cause : Cause) (strap : Word) : State :=
  let t := setF (freshState s cause strap) DEV_START_profile (getF (freshState s cause strap) DEV_STRAP_prof_sel)
  setF t FAB_TRAIN_first_batch (firstBatch t)

theorem sampledState_frame (s : State) (cause : Cause) (strap : Word) :
    OnlyRegs (freshState s cause strap) (sampledState s cause strap) := ((OnlyRegs.refl _).setF _ _).setF _ _

theorem reg_sampledState (s : State) (cause : Cause) (strap : Word) {a : Nat} (h1 : a ≠ 0x148) (h2 : a ≠ 0xD184) :
    reg (sampledState s cause strap) a = reg (freshState s cause strap) a := by
  unfold sampledState
  dsimp only
  rw [reg_setF_ne _ _ (f := FAB_TRAIN_first_batch) h2, reg_setF_ne _ _ (f := DEV_START_profile) h1]

theorem reg_freshState_of_ne (s : State) (cause : Cause) (strap : Word) {a : Nat} (h1 : a ≠ 0x140) (h2 : a ≠ 0x2100) :
    reg (freshState s cause strap) a = resetWord a := by
  show tget resetWord (tset resetWord (tset resetWord [] 0x140 strap) 0x2100 (causeWord cause)) a = resetWord a
  rw [tget_tset_ne _ _ _ h2, tget_tset_ne _ _ _ h1, tget]

theorem reg_freshState_strap (s : State) (cause : Cause) (strap : Word) :
    reg (freshState s cause strap) 0x140 = strap := by
  show tget resetWord (tset resetWord (tset resetWord [] 0x140 strap) 0x2100 (causeWord cause)) 0x140 = strap
  rw [tget_tset_ne _ _ _ (by decide), tget_tset_same _ (by decide)]

theorem reg_freshState_cause (s : State) (cause : Cause) (strap : Word) :
    reg (freshState s cause strap) 0x2100 = causeWord cause :=
  tget_tset_same resetWord (tableWf_tset _ (t := []) (by decide) 0x140 strap) 0x2100 (causeWord cause)

theorem resetWord_ring_off : ∀ n, n < 16 → bitsOf (resetWord (0x8108 + 0x40 * n)).toNat 0 1 = 0 := by decide

theorem sampledState_noRing (s : State) (cause : Cause) (strap : Word) : NoRing (sampledState s cause strap) := by
  intro n hn
  have hreg : reg (sampledState s cause strap) (EVQ_CFG_enable n).addr = resetWord (0x8108 + 0x40 * n) := by
    show reg (sampledState s cause strap) (0x8108 + 0x40 * n) = _
    rw [reg_sampledState _ _ _ (by omega) (by omega), reg_freshState_of_ne _ _ _ (by omega) (by omega)]
  rw [ringOn, isSet, getF, hreg]
  show (bitsOf (resetWord (0x8108 + 0x40 * n)).toNat 0 1 == 1) = false
  rw [resetWord_ring_off n hn]; rfl

/-- The state from which step 1 loads the fuses: an invalid slot is reported (R44). -/
def reportedState (s : State) (cause : Cause) (strap : Word) : State :=
  if isSet (sampledState s cause strap) DEV_STRAP_id_valid then sampledState s cause strap
  else raiseEv (sampledState s cause strap) pgDEV evStrapInvalid [(reg (sampledState s cause strap) 0x140).toNat]

theorem bootStart_eq (s : State) (cause : Cause) (strap : Word) : bootStart s cause strap =
    if (reportedState s cause strap).pins.sysRef then loadFuses (reportedState s cause strap)
    else reportedState s cause strap := rfl

/-- Reporting the slot changes nothing but registers and the event system. -/
theorem reportedState_frame (s : State) (cause : Cause) (strap : Word) : reportedState s cause strap =
    { freshState s cause strap with
      regs := (reportedState s cause strap).regs, ev := (reportedState s cause strap).ev } := by
  have hsampled : sampledState s cause strap = { freshState s cause strap with
      regs := (sampledState s cause strap).regs, ev := (sampledState s cause strap).ev } :=
    (sampledState_frame s cause strap).eq_with
  by_cases hid : isSet (sampledState s cause strap) DEV_STRAP_id_valid = true
  · have hrep : reportedState s cause strap = sampledState s cause strap := if_pos hid
    rw [hrep]
    exact hsampled
  · have hrep : reportedState s cause strap = raiseEv (sampledState s cause strap) pgDEV evStrapInvalid
        [(reg (sampledState s cause strap) 0x140).toNat] := if_neg hid
    obtain ⟨hout, hhost⟩ := raiseEv_noRing (sampledState_noRing s cause strap) pgDEV evStrapInvalid
      [(reg (sampledState s cause strap) 0x140).toNat]
    have hframe := raiseEv_frame (sampledState s cause strap) pgDEV evStrapInvalid
      [(reg (sampledState s cause strap) 0x140).toNat]
    rw [hout, hhost, ← hrep] at hframe
    exact hframe

/-- A fresh state with any registers, held records and lane map is started, where MOD_RST_N is high. -/
theorem startedFrom_of_fresh {s t : State} {cause : Cause} {strap : Word} {sysRef : Bool} {regs : Table Word} {ev : EvSt}
    {lane : Table Nat} {sub : List Nat} (hpin : s.pins.modRstN = true) (ht : t = { freshState s cause strap with
      regs := regs, ev := ev, fuses := { s.fuses with loadedLane := lane, loadedSub := sub } })
    (href : sysRef = false → reg t 0x140 = strap ∧ reg t 0x2100 = causeWord cause ∧ t.fuses = s.fuses) :
    StartedFrom s t cause strap sysRef := by
  subst ht
  exact ⟨rfl, rfl, rfl, rfl, rfl, rfl, rfl, rfl, rfl, rfl, rfl, rfl, rfl, rfl, rfl, rfl, rfl, rfl, rfl, rfl, rfl, rfl, rfl,
      hpin,
    rfl, rfl, href⟩

/-- The straps and the cause stand in their registers until the fuses are loaded. -/
theorem reg_reportedState (s : State) (cause : Cause) (strap : Word) {a : Nat} (ha : Aside a) (h1 : a ≠ 0x148)
    (h2 : a ≠ 0xD184) : reg (reportedState s cause strap) a = reg (freshState s cause strap) a := by
  unfold reportedState
  split
  · exact reg_sampledState s cause strap h1 h2
  · rw [reg_raiseEv_aside ha, reg_sampledState s cause strap h1 h2]

theorem startedFrom_bootStart {s : State} (hpin : s.pins.modRstN = true) (cause : Cause) (strap : Word) :
    StartedFrom s (bootStart s cause strap) cause strap s.pins.sysRef := by
  have hrep := reportedState_frame s cause strap
  have hpins : (reportedState s cause strap).pins.sysRef = s.pins.sysRef := by rw [hrep]; rfl
  rw [bootStart_eq, hpins]
  cases hs : s.pins.sysRef with
  | true =>
    have hload := loadFuses_frame (reportedState s cause strap)
    generalize loadFuses (reportedState s cause strap) = t at hload ⊢
    generalize reportedState s cause strap = u at hrep hload
    generalize u.regs = regs at hrep
    generalize u.ev = ev at hrep
    subst hrep
    exact startedFrom_of_fresh hpin hload (by simp)
  | false =>
    rw [if_neg (by decide)]
    refine startedFrom_of_fresh hpin (lane := s.fuses.loadedLane) (sub := s.fuses.loadedSub) hrep fun _ => ⟨?_, ?_, ?_⟩
    · exact (reg_reportedState s cause strap ⟨by decide, by decide⟩ (by decide) (by decide)).trans (reg_freshState_strap ..)
    · exact (reg_reportedState s cause strap ⟨by decide, by decide⟩ (by decide) (by decide)).trans (reg_freshState_cause ..)
    · show (reportedState s cause strap).fuses = s.fuses
      rw [hrep]; rfl

/-- A start looks at the state's queue, outputs, fuses, flash and pins alone. -/
theorem StartedFrom.of_agree {s s' t : State} {cause : Cause} {strap : Word} {sysRef : Bool}
    (h : StartedFrom s' t cause strap sysRef) (hp : s'.pending = s.pending) (ho : s'.out = s.out)
    (hf : s'.fuses = s.fuses) (hfl : s'.flash = s.flash) : StartedFrom s t cause strap sysRef := by
  unfold StartedFrom at h ⊢
  rwa [hp, ho, hf, hfl] at h

theorem moduleReset_heldInReset {s : State} {straps : BitVec 18} (hpin : s.pins.modRstN = false)
    (hlife : s.life = .heldInReset) : moduleReset s straps =
      bootStart { s with pins := { s.pins with modRstN := true } } .modRst (strapWord straps) := by
  rw [moduleReset, hpin, if_neg (by decide)]
  dsimp only
  split
  next => rfl
  next h => exact absurd (hlife.symm.trans h) (by decide)
  next h _ => exact absurd hlife h

theorem moduleReset_thermalStop {s : State} {straps : BitVec 18} (hpin : s.pins.modRstN = false)
    (hlife : s.life = .thermalStop) : moduleReset s straps =
      { setReg { s with pins := { s.pins with modRstN := true } } 0x140 (strapWord straps) with pulsed := true } := by
  rw [moduleReset, hpin, if_neg (by decide)]
  dsimp only
  split
  next h => exact absurd (hlife.symm.trans h) (by decide)
  next => rfl
  next _ h => exact absurd hlife h

/-- Settles O9: each row that starts the module runs `bootStart`, of which `startedFrom_bootStart` tells. -/
theorem startsBeginAfresh : Obligations.StartsBeginAfresh := by
  refine ⟨fun s straps a b sr nr hoff ha hb => ⟨fun hhot hpin => ⟨_, rfl, ?_⟩, fun hhot hpin => ?_, fun hhot => ?_⟩,
    fun s straps hpin => ⟨fun hlife => ⟨_, rfl, ?_⟩, fun hlife => ?_⟩,
    fun s compute io hlife hpulsed hpin hcool => ⟨_, rfl, ?_⟩⟩
  · rw [powerOn, if_pos ⟨hoff, ha, hb⟩]
    dsimp only
    rw [hhot, if_neg (by decide), if_pos hpin]
    exact (startedFrom_bootStart (s := { s with pins := { s.pins with bladeA := a, bladeB := b, sysRef := sr, netRef := nr } })
      hpin _ _).of_agree rfl rfl rfl rfl
  · rw [exec, execPowerOn, powerOn, if_pos ⟨hoff, ha, hb⟩]
    dsimp only
    rw [hhot, if_neg (by decide), hpin, if_neg (by decide)]
  · rw [exec, execPowerOn, powerOn, if_pos ⟨hoff, ha, hb⟩]
    dsimp only
    rw [hhot, if_pos rfl]
  · rw [moduleReset_heldInReset hpin hlife]
    exact (startedFrom_bootStart (s := { s with pins := { s.pins with modRstN := true } }) rfl _ _).of_agree rfl rfl rfl rfl
  · rw [exec, execModuleReset, moduleReset_thermalStop hpin hlife]
    rfl
  · have hall : (compute ++ io).all (fun t => decide (t < 90)) = true := by
      simpa [or_imp, forall_and] using hcool
    rw [thermalRestart, if_pos ⟨hlife, hpulsed, hpin, hall⟩]
    exact startedFrom_bootStart hpin _ _

end Sys2Proof.Machine
end

section
/-! Stops of the module and its keeper drives (02_module, 03_first_second, 16_pacers). -/

namespace Sys2Proof.Machine

/-! ### Keeper drives -/

section
variable {r s t : State}

/-- The level bit of an axis's keeper drive. -/
def keeperF (y : Bool) : Fld := if y then FAB_KEEP_hold_y else FAB_KEEP_hold_x

theorem driveKeeper_eq (s : State) (y level : Bool) : driveKeeper s y level =
    if isSet s (keeperF y) = level then s else satF (setF s (keeperF y) (b2n level)) FAB_KEEP_hold_changes 1 := rfl

theorem keeperF_addr (y : Bool) : (keeperF y).addr = 0xD180 := by cases y <;> rfl

theorem keeperF_width (y : Bool) : (keeperF y).w = 1 := by cases y <;> rfl

theorem keeperF_inside (y : Bool) : (keeperF y).lo + (keeperF y).w ≤ 32 := by cases y <;> decide

theorem keeperF_below_changes (y : Bool) : (keeperF y).lo + (keeperF y).w ≤ FAB_KEEP_hold_changes.lo := by
  cases y <;> decide

theorem OnlyRegs.driveKeeper (h : OnlyRegs r s) (y level : Bool) : OnlyRegs r (Machine.driveKeeper s y level) := by
  rw [driveKeeper_eq]
  exact .ite h ((h.setF _ _).satF _ _)

theorem getF_congr (h : s.regs = t.regs) (f : Fld) : getF s f = getF t f := by rw [getF, reg, h, getF, reg]

theorem isSet_congr (h : s.regs = t.regs) (f : Fld) : isSet s f = isSet t f := by rw [isSet, getF_congr h, isSet]

theorem setF_regs_congr (h : s.regs = t.regs) (f : Fld) (v : Nat) : (setF s f v).regs = (setF t f v).regs := by
  simp only [setF, setReg, reg, h]

theorem satF_regs_congr (h : s.regs = t.regs) (f : Fld) (k : Nat) : (satF s f k).regs = (satF t f k).regs := by
  rw [satF, getF, reg, h, setF_regs_congr h, satF, getF, reg]

/-- A drive's registers follow from the registers alone. -/
theorem driveKeeper_regs_congr (h : s.regs = t.regs) (y level : Bool) :
    (driveKeeper s y level).regs = (driveKeeper t y level).regs := by
  rw [driveKeeper_eq, driveKeeper_eq, isSet_congr h]
  split
  · exact h
  · exact satF_regs_congr (setF_regs_congr h _ _) _ _

theorem releaseKeepers_regs_congr (h : s.regs = t.regs) : (releaseKeepers s).regs = (releaseKeepers t).regs :=
  driveKeeper_regs_congr (driveKeeper_regs_congr h _ _) _ _

/-- Where the drive has its level already, nothing is driven. -/
theorem driveKeeper_of_isSet {y level : Bool} (h : isSet s (keeperF y) = level) : driveKeeper s y level = s := by
  rw [driveKeeper_eq, if_pos h]

theorem getF_keeperF_lt (s : State) (y : Bool) : getF s (keeperF y) < 2 := by
  have hlt := getF_lt s (keeperF y)
  rwa [keeperF_width] at hlt

theorem getF_eq_zero_of_isSet {f : Fld} (h : isSet s f = false) (hlt : getF s f < 2) : getF s f = 0 := by
  have hne : getF s f ≠ 1 := fun e => by simp [isSet, e] at h
  omega

/-- Counting a transition leaves the levels. -/
theorem getF_keeperF_satF (hs : s.regsWf = true) (y : Bool) (k : Nat) :
    getF (satF s FAB_KEEP_hold_changes k) (keeperF y) = getF s (keeperF y) :=
  getF_setF_apart hs _ (by decide) (keeperF_addr y) (.inl (keeperF_below_changes y))

/-- A drive released reads 0. -/
theorem getF_driveKeeper_released (hs : s.regsWf = true) (y : Bool) : getF (driveKeeper s y false) (keeperF y) = 0 := by
  rw [driveKeeper_eq]
  split
  next h => exact getF_eq_zero_of_isSet h (getF_keeperF_lt s y)
  next =>
    rw [getF_keeperF_satF (setF_regsWf hs _ _), getF_setF_same hs _ (keeperF_inside y)]
    exact Nat.zero_mod _

/-- Releasing one drive leaves the other's level. -/
theorem getF_driveKeeper_other (hs : s.regsWf = true) : getF (driveKeeper s true false) (keeperF false) =
    getF s (keeperF false) := by
  rw [driveKeeper_eq]
  split
  · rfl
  · rw [getF_keeperF_satF (setF_regsWf hs _ _), getF_setF_apart hs (g := keeperF false) _ (keeperF_inside true) rfl (by decide)]

theorem driveKeeper_regsWf (hs : s.regsWf = true) (y level : Bool) : (driveKeeper s y level).regsWf = true :=
  (Keeps.refl s).driveKeeper.regs hs

theorem releaseKeepers_released (hs : s.regsWf = true) :
    getF (releaseKeepers s) FAB_KEEP_hold_x = 0 ∧ getF (releaseKeepers s) FAB_KEEP_hold_y = 0 :=
  ⟨(getF_driveKeeper_other (driveKeeper_regsWf hs _ _)).trans (getF_driveKeeper_released hs false),
    getF_driveKeeper_released (driveKeeper_regsWf hs _ _) true⟩

theorem releaseKeepers_frame (s : State) : OnlyRegs s (releaseKeepers s) :=
  ((OnlyRegs.refl s).driveKeeper _ _).driveKeeper _ _

theorem releaseKeepers_of_low (hx : isSet s FAB_KEEP_hold_x = false) (hy : isSet s FAB_KEEP_hold_y = false) :
    releaseKeepers s = s := by
  rw [releaseKeepers, driveKeeper_of_isSet (y := false) hx, driveKeeper_of_isSet (y := true) hy]

end

/-! ### Stops -/

theorem keeper_aside : Aside 0xD180 := ⟨by decide, by decide⟩

/-- What a thermal shutdown reports before it releases the drives. -/
def shutdownReports (s : State) (die : Nat) (celsius : Int) : State :=
  let s := raiseEv s (pgPAC (min die 3)) ⟨0x1005, 5⟩ [die, unsigned 32 (4 * celsius)]
  let s := if isSet s FAB_KEEP_hold_x then raiseEv s pgFAB ⟨0x5007, 1⟩ [0, 1] else s
  if isSet s FAB_KEEP_hold_y then raiseEv s pgFAB ⟨0x5007, 1⟩ [1, 1] else s

theorem shutdownReports_frame (s : State) (die : Nat) (celsius : Int) : ByEvents s (shutdownReports s die celsius) := by
  have hif : ∀ {c : Bool} {t p e l}, ByEvents s t → ByEvents s (if c then raiseEv t p e l else t) :=
    fun h => .ite (h.raiseEv ..) h
  exact hif (hif ((ByEvents.refl s).raiseEv ..))

theorem shutdownReports_regsWf {s : State} (hs : s.regsWf = true) (die : Nat) (celsius : Int) :
    (shutdownReports s die celsius).regsWf = true := by
  have hif : ∀ (c : Bool) t p e l, t.regsWf = true → (if c then raiseEv t p e l else t).regsWf = true := by
    intro c t p e l ht
    split
    · exact raiseEv_regsWf ht ..
    · exact ht
  exact hif _ _ _ _ _ (hif _ _ _ _ _ (raiseEv_regsWf hs ..))

/-- With both drives low only the temperature is reported. -/
theorem shutdownReports_of_low {s : State} (hx : isSet s FAB_KEEP_hold_x = false) (hy : isSet s FAB_KEEP_hold_y = false)
    (die : Nat) (celsius : Int) : shutdownReports s die celsius =
      raiseEv s (pgPAC (min die 3)) ⟨0x1005, 5⟩ [die, unsigned 32 (4 * celsius)] := by
  have hx' := (isSet_raiseEv_aside (f := FAB_KEEP_hold_x) keeper_aside (pgPAC (min die 3)) ⟨0x1005, 5⟩
    [die, unsigned 32 (4 * celsius)]).trans hx
  have hy' := (isSet_raiseEv_aside (f := FAB_KEEP_hold_y) keeper_aside (pgPAC (min die 3)) ⟨0x1005, 5⟩
    [die, unsigned 32 (4 * celsius)]).trans hy
  unfold shutdownReports
  dsimp only
  simp only [hx', hy', Bool.false_eq_true, if_false]

/-- A module stopped by its heat: FAULT_N asserted, everything else as it was. -/
def heatStopped (s : State) : State :=
  { s with life := .thermalStop, hot := true, pulsed := false, pins := { s.pins with faultN := true } }

theorem heatStopped_pins (s : State) : (heatStopped s).pins = { s.pins with faultN := true } := rfl
theorem heatStopped_mem (s : State) : (heatStopped s).mem = s.mem := rfl
theorem heatStopped_lanes (s : State) : (heatStopped s).lanes = s.lanes := rfl
theorem heatStopped_flash (s : State) : (heatStopped s).flash = s.flash := rfl
theorem heatStopped_fuses (s : State) : (heatStopped s).fuses = s.fuses := rfl

theorem getF_heatStopped (s : State) (f : Fld) : getF (heatStopped s) f = getF s f := getF_congr rfl f

theorem thermalShutdown_eq {s : State} {celsius : Int} (hlife : s.life = .running) (hc : 110 ≤ celsius) (die : Nat) :
    thermalShutdown s die celsius = heatStopped (releaseKeepers (shutdownReports s die celsius)) := by
  unfold thermalShutdown shutdownReports heatStopped
  rw [if_pos ⟨hlife, hc⟩]

theorem modRstFall_of_running {s : State} (h : s.life = .running) : modRstFall s =
    { releaseKeepers { s with pins := { s.pins with modRstN := false } } with life := .heldInReset } := by
  unfold modRstFall
  dsimp only
  split
  next e => exact absurd (h.symm.trans e) (by decide)
  next e => exact absurd (h.symm.trans e) (by decide)
  next => rfl

theorem modRstFall_regs {s : State} (h : s.life = .running) : (modRstFall s).regs = (releaseKeepers s).regs := by
  rw [modRstFall_of_running h]
  exact releaseKeepers_regs_congr (s := { s with pins := { s.pins with modRstN := false } }) rfl

/-- Settles O10: the three stops, of which `thermalShutdown_eq` and the keeper drives' laws tell. -/
theorem stopsAndHolds : Obligations.StopsAndHolds := by
  refine ⟨fun s bladeB mv hlife hmv => ⟨_, rfl, ?_⟩, fun s hlife => ⟨_, rfl, ?_, ?_⟩, fun s die celsius hdie hlife hc => ?_⟩
  · rw [supplyStop, if_pos ⟨hlife, hmv⟩]
    exact ⟨rfl, rfl, rfl, rfl, rfl, rfl, rfl, rfl, rfl, rfl, rfl, rfl, rfl, rfl, rfl⟩
  · rw [modRstFall_of_running hlife]
    have hframe := (releaseKeepers_frame { s with pins := { s.pins with modRstN := false } }).eq_with
    generalize releaseKeepers { s with pins := { s.pins with modRstN := false } } = t at hframe ⊢
    rw [hframe]
  · rw [modRstFall_regs hlife, releaseKeepers]
  · have hrel := releaseKeepers_frame (shutdownReports s die celsius)
    have hrep := shutdownReports_frame s die celsius
    have hkept := (shutdownReports_frame s die celsius).trans (releaseKeepers_frame _).byEvents
    refine ⟨thermalShutdown s die celsius, if_pos (decide_eq_true hdie), ?_⟩
    rw [thermalShutdown_eq hlife hc]
    refine ⟨rfl, rfl, rfl, ?_, ?_, ?_, ?_, ?_, fun hs => ?_, fun ⟨hx, hy⟩ => ?_⟩
    · rw [heatStopped_pins, hkept.pins]
    · rw [heatStopped_mem, hkept.mem]
    · rw [heatStopped_lanes, hkept.lanes]
    · rw [heatStopped_flash, hkept.flash]
    · rw [heatStopped_fuses, hkept.fuses]
    · rw [getF_heatStopped, getF_heatStopped]
      exact releaseKeepers_released (shutdownReports_regsWf hs die celsius)
    · rw [shutdownReports_of_low hx hy, releaseKeepers_of_low, heatStopped, raiseEv_pins]
      · exact (isSet_raiseEv_aside (f := FAB_KEEP_hold_x) keeper_aside ..).trans hx
      · exact (isSet_raiseEv_aside (f := FAB_KEEP_hold_y) keeper_aside ..).trans hy

end Sys2Proof.Machine
end

section
/-! PERST_N, the link's training and configuration requests (03_first_second, 04_registers_host). -/

namespace Sys2Proof.Machine

section
variable {s : State}

/-- HIF_LINK's three fields. -/
def setLink (s : State) (gen width mode : Nat) : State :=
  setF (setF (setF s HIF_LINK_gen gen) HIF_LINK_width width) HIF_LINK_flit_mode mode

theorem setLink_frame (s : State) (gen width mode : Nat) : OnlyRegs s (setLink s gen width mode) :=
  (((OnlyRegs.refl s).setF _ _).setF _ _).setF _ _

theorem setLink_regs_congr {t : State} (h : s.regs = t.regs) (gen width mode : Nat) :
    (setLink s gen width mode).regs = (setLink t gen width mode).regs :=
  setF_regs_congr (setF_regs_congr (setF_regs_congr h _ _) _ _) _ _

/-- The host interface with its link gone. -/
def unlinked (h : HostSt) : HostSt := { h with linkUp := false, gen := 0, width := 0, flitMode := false, doe := none }

/-- What PERST_ASSERT does to a running module's registers and pins. -/
def perstRegs (s : State) : State :=
  setLink (satF { s with pins := { s.pins with perstN := false } } RST_CAUSE_perst_count 1) 0 0 0

theorem perstRegs_frame (s : State) : OnlyRegs { s with pins := { s.pins with perstN := false } } (perstRegs s) :=
  ((OnlyRegs.refl _).satF _ _).trans (setLink_frame ..)

theorem perstRegs_regs (s : State) : (perstRegs s).regs = (setLink (satF s RST_CAUSE_perst_count 1) 0 0 0).regs :=
  setLink_regs_congr (satF_regs_congr (s := { s with pins := { s.pins with perstN := false } }) rfl _ _) 0 0 0

theorem perstAssert_eq (hlife : s.life = .running) (hmod : s.pins.modRstN = true) (hperst : s.pins.perstN = true) :
    perstAssert s = { perstRegs s with host := unlinked (perstRegs s).host } := by
  rw [perstAssert, if_pos ⟨hlife, hmod, hperst⟩]
  rfl

theorem pcieLinkUp_eq {gen width : Nat} (hlife : s.life = .running) (hperst : s.pins.perstN = true)
    (hlock : isSet s CLK_STATUS_root_lock = true) (h1 : 1 ≤ gen) (h7 : gen ≤ 7) (hw : width ∈ [1, 2, 4, 8, 16]) (fm : Bool) :
    pcieLinkUp s gen width fm = setLink { s with host := { s.host with
      linkUp := true, linkUpAt := elapsed s, gen := gen, width := width, flitMode := fm } } gen width (b2n fm) := by
  rw [pcieLinkUp, if_pos ⟨hlife, hperst, hlock, h1, h7, List.contains_iff_mem.mpr hw⟩]
  rfl

theorem with_host_eq {t u : State} (h : OnlyRegs s t) {x : HostSt} (hx : u = { t with host := x }) :
    u = { s with regs := u.regs, host := x } := by
  rw [hx, h.eq_with]

/-- Settles O11, the row by row equations of the link, and the configuration space as it stands. -/
theorem pcieRows : Obligations.PcieRows := by
  refine ⟨fun s hlife hmod hperst => ⟨_, rfl, ?_, ?_⟩, fun s gen width fm hlife hperst hlock h1 h7 hw => ⟨_, rfl, ?_, ?_⟩,
    fun s hlife hlink => ⟨fun hfail => ?_, fun hfail hready => ?_, fun hfail hready => ?_⟩,
    fun s => ⟨rfl, rfl, rfl, rfl, fun h => Nat.mod_eq_of_lt h⟩⟩
  · have hframe := perstRegs_frame s
    have h := perstAssert_eq hlife hmod hperst
    rw [hframe.host] at h
    exact with_host_eq hframe h
  · rw [perstAssert_eq hlife hmod hperst]
    exact perstRegs_regs s
  · rw [pcieLinkUp_eq hlife hperst hlock h1 h7 hw]
    exact (setLink_frame _ gen width (b2n fm)).eq_with
  · rw [pcieLinkUp_eq hlife hperst hlock h1 h7 hw]
    exact setLink_regs_congr rfl ..
  · simp [exec, execPcieConfigRequest, pcieConfigRequest, hlife, hlink, hfail, emit]
  · cases hflr : s.host.flr <;>
      simp [exec, execPcieConfigRequest, pcieConfigRequest, hlife, hlink, hfail, hready, hflr, emit]
  · simp only [exec, execPcieConfigRequest, pcieConfigRequest, hlife, hlink, hfail, hready, emit]
    split <;> simp_all

end

end Sys2Proof.Machine
end

section
/-! The function-level reset (03_first_second): what it returns to its start, and what it keeps. -/

namespace Sys2Proof.Machine

section
variable {P : Nat → Prop} {r s t : State}

/-! ### What it keeps -/

/-- What a function-level reset keeps from s to t: all that is named, RST_CAUSE, and every byte whose address P admits. -/
structure FlrKept (P : Nat → Prop) (s t : State) : Prop where
  flash : t.flash = s.flash
  fuses : t.fuses = s.fuses
  pins : t.pins = s.pins
  laps : t.laps = s.laps
  ports : t.fab.ports = s.fab.ports
  results : t.fab.results = s.fab.results
  roles : t.fab.roles = s.fab.roles
  milPorts : t.mil.ports = s.mil.ports
  milSlots : t.mil.slots = s.mil.slots
  tim : t.tim = s.tim
  pac : t.pac = s.pac
  stw : t.stw = s.stw
  cbz : t.cbz = s.cbz
  deviceTime : t.deviceTime = s.deviceTime
  out : t.out = s.out
  cause : reg t 0x2100 = reg s 0x2100
  bytes : ∀ a, P a → memByte t a = memByte s a

theorem FlrKept.refl (s : State) : FlrKept P s s :=
  ⟨rfl, rfl, rfl, rfl, rfl, rfl, rfl, rfl, rfl, rfl, rfl, rfl, rfl, rfl, rfl, rfl, fun _ _ => rfl⟩

theorem FlrKept.trans (h : FlrKept P r s) (h' : FlrKept P s t) : FlrKept P r t :=
  ⟨h'.flash.trans h.flash, h'.fuses.trans h.fuses, h'.pins.trans h.pins, h'.laps.trans h.laps, h'.ports.trans h.ports,
    h'.results.trans h.results, h'.roles.trans h.roles, h'.milPorts.trans h.milPorts, h'.milSlots.trans h.milSlots,
    h'.tim.trans h.tim, h'.pac.trans h.pac, h'.stw.trans h.stw, h'.cbz.trans h.cbz, h'.deviceTime.trans h.deviceTime,
    h'.out.trans h.out, h'.cause.trans h.cause, fun a ha => (h'.bytes a ha).trans (h.bytes a ha)⟩

theorem FlrKept.foldl {β : Type} {g : State → β → State} {l : List β} (h : FlrKept P r s)
    (H : ∀ s b, b ∈ l → FlrKept P r s → FlrKept P r (g s b)) : FlrKept P r (l.foldl g s) := by
  induction l generalizing s with
  | nil => exact h
  | cons b l ih => exact ih (H s b List.mem_cons_self h) fun s c hc => H s c (List.mem_cons_of_mem b hc)

theorem memByte_congr (h : s.mem = t.mem) (a : Nat) : memByte s a = memByte t a := by rw [memByte, h, memByte]

/-- Operations on registers other than RST_CAUSE keep all of it. -/
theorem FlrKept.of_onlyRegs (h : OnlyRegs s t) (hc : reg t 0x2100 = reg s 0x2100) : FlrKept P s t :=
  ⟨h.flash, h.fuses, h.pins, h.laps, congrArg FabSt.ports h.fab, congrArg FabSt.results h.fab, congrArg FabSt.roles h.fab,
    congrArg MilSt.ports h.mil, congrArg MilSt.slots h.mil, h.tim, h.pac, h.stw, h.cbz, h.deviceTime, h.out, hc,
    fun a _ => memByte_congr h.mem a⟩

theorem FlrKept.setReg (h : FlrKept P r s) {a : Nat} (ha : 0x2100 ≠ a) (w : Word) : FlrKept P r (Machine.setReg s a w) :=
  h.trans (.of_onlyRegs ((OnlyRegs.refl s).setReg a w) (reg_setReg_ne s w ha))

theorem FlrKept.setF (h : FlrKept P r s) {f : Fld} (hf : 0x2100 ≠ f.addr) (v : Nat) : FlrKept P r (Machine.setF s f v) :=
  h.setReg hf _

/-- Bytes written only where P does not hold of the address. -/
theorem FlrKept.scramble (h : FlrKept P r s) {a n : Nat} (ha : ∀ x, P x → ¬(a ≤ x ∧ x < a + n)) :
    FlrKept P r (Machine.scramble s a n) := by
  unfold Machine.scramble
  split
  · refine h.trans ⟨rfl, rfl, rfl, rfl, rfl, rfl, rfl, rfl, rfl, rfl, rfl, rfl, rfl, rfl, rfl, rfl, fun x hx => ?_⟩
    have hlen : ((List.range n).map (fun i => Config.freeByte (s.freeCtr + i))).length = n := by simp
    have hout := ha x hx
    exact poke_byte_ne _ _ _ (by simp only [hlen]; omega)
  · exact h

theorem FlrKept.setTag (h : FlrKept P r s) (l : Nat) (b : Bool) (x : Option (List Nat)) : FlrKept P r (Machine.setTag s l b x) :=
  h.trans ⟨rfl, rfl, rfl, rfl, rfl, rfl, rfl, rfl, rfl, rfl, rfl, rfl, rfl, rfl, rfl, rfl, fun _ _ => rfl⟩

/-- What running commands were writing is all that abandoning their results changes of memory. -/
theorem FlrKept.abandonResults (hP : ∀ x, P x → ∀ e ∈ s.cmds.table, e.stage = .running → ∀ d ∈ e.dest,
    ¬(d.1 ≤ x ∧ x < d.1 + d.2)) : FlrKept P s (Machine.abandonResults s) := by
  refine (FlrKept.refl s).foldl fun t e he h => ?_
  dsimp only
  split
  next hrun =>
    refine FlrKept.foldl (l := e.arrays) ?_ fun t x _ h => h.setTag x.1 x.2 none
    exact h.foldl fun t d hd h => h.scramble fun x hx => hP x hx e he hrun d hd
  next => exact h

theorem FlrKept.with_cmds (h : FlrKept P r s) (c : CmdSt) (n : NumSt) (l : Table LaneSt) :
    FlrKept P r { s with cmds := c, num := n, lanes := l } :=
  h.trans ⟨rfl, rfl, rfl, rfl, rfl, rfl, rfl, rfl, rfl, rfl, rfl, rfl, rfl, rfl, rfl, rfl, fun _ _ => rfl⟩

theorem FlrKept.dropWatches (h : FlrKept P r s) (q idx : Nat) : FlrKept P r (Machine.dropWatches s q idx) :=
  h.trans ⟨rfl, rfl, rfl, rfl, rfl, rfl, rfl, rfl, rfl, rfl, rfl, rfl, rfl, rfl, rfl, rfl, fun _ _ => rfl⟩

/-- A page's own block registers are not RST_CAUSE. -/
theorem cause_ne_block (p : Nat) {k : Nat} (hk : k < 0x100) : 0x2100 ≠ p * 0x1000 + k := by omega

theorem FlrKept.hurdleRelease (h : FlrKept P r s) : FlrKept P r (Machine.hurdleRelease s) :=
  h.foldl fun t p _ h => by
    split
    · exact h.setF (cause_ne_block p (by decide)) _
    · exact h

theorem FlrKept.abandonCmds (h : FlrKept P r s) : FlrKept P r (Machine.abandonCmds s) := by
  have hdrop : FlrKept P r (s.cmds.table.foldl (fun s e => Machine.dropWatches s e.q e.idx) s) :=
    h.foldl fun t e _ h => h.dropWatches e.q e.idx
  exact (hdrop.hurdleRelease.with_cmds _ _ _).setF (by decide) _

theorem resetPages_onlyRegs (s : State) (p : Nat → Bool) : OnlyRegs s (resetPages s p) := by
  constructor <;> rfl

/-- A register of a page that is not reset reads as before. -/
theorem reg_resetPages {p : Nat → Bool} {a : Nat} (h : p (a / 0x1000) = false) : reg (resetPages s p) a = reg s a := by
  show tget resetWord (s.regs.filter fun e => !p (e.1 / 0x1000)) a = tget resetWord s.regs a
  induction s.regs with
  | nil => rfl
  | cons e l ih =>
    obtain ⟨b, w⟩ := e
    by_cases hb : b = a
    · simp [tget, hb, h]
    · by_cases hp : p (b / 0x1000) = true
      · simp [tget, hb, hp, ih]
      · simp [tget, hb, hp, ih]

/-! ### Its effects in the order of R58 -/

/-- Landings and program memories empty, before the pages return to their start values. -/
def flrEmptied (s : State) : State :=
  { s with
    lanes := s.lanes.map (fun l => (l.1, { l.2 with prog := [], resident := none, loaded := false })),
    coll := { s.coll with landings := [], running := [], outbox := [] },
    upd := { s.upd with runs := [] },
    mil := { s.mil with runs := [], sends := [] },
    ev := { s.ev with rings := [] },
    fab := { s.fab with txns := s.fab.txns.filter (fun t => match t.who with | .bar2Read _ _ _ | .bar2Write _ => false | _ => true) },
    host := { s.host with flr := true, msix := [], msixPending := [], doe := none } }

/-- The commands abandoned too. -/
def flrBase (s : State) : State := flrEmptied (abandonCmds (abandonResults s))

/-- The pages at their start values and the link's rate and width as they are. -/
def flrRegs (s : State) : State :=
  let s := closeExperts (flrPages s)
  applyEventDefaults (setLink s s.host.gen s.host.width (b2n s.host.flitMode))

theorem flrEffects_eq (s : State) : flrEffects s = satF (flrRegs (flrBase s)) RST_CAUSE_flr_count 1 := rfl

theorem OnlyRegs.closeExperts (h : OnlyRegs r s) : OnlyRegs r (Machine.closeExperts s) := h.foldl fun _ _ h => h.setF _ _

theorem OnlyRegs.flrPages (h : OnlyRegs r s) : OnlyRegs r (Machine.flrPages s) :=
  (((h.trans (resetPages_onlyRegs _ _)).setF _ _).setF _ _).setF _ _

theorem OnlyRegs.applyEventDefaults (h : OnlyRegs r s) : OnlyRegs r (Machine.applyEventDefaults s) :=
  h.foldl fun _ _ h => .ite h (((h.setF _ _).setF _ _).setF _ _)

theorem flrRegs_onlyRegs (s : State) : OnlyRegs s (flrRegs s) :=
  ((OnlyRegs.refl s).flrPages.closeExperts.trans (setLink_frame ..)).applyEventDefaults

/-- RST_CAUSE stands through all of it. -/
theorem FlrKept.closeExperts (h : FlrKept P r s) : FlrKept P r (Machine.closeExperts s) :=
  h.foldl fun _ p _ h => h.setF (cause_ne_block p (by decide)) _

theorem FlrKept.flrPages (h : FlrKept P r s) : FlrKept P r (Machine.flrPages s) :=
  (((h.trans (.of_onlyRegs (resetPages_onlyRegs s _) (reg_resetPages (by decide)))).setF (by decide) _).setF (by decide) _).setF
    (by decide) _

theorem FlrKept.setLink (h : FlrKept P r s) (g w m : Nat) : FlrKept P r (Machine.setLink s g w m) :=
  ((h.setF (by decide) _).setF (by decide) _).setF (by decide) _

theorem FlrKept.applyEventDefaults (h : FlrKept P r s) : FlrKept P r (Machine.applyEventDefaults s) :=
  h.foldl fun t n _ h => by
    have hne : ∀ c, 0x8100 ≤ c → 0x2100 ≠ c + 0x40 * n := fun c hc => by omega
    split
    · exact h
    · exact ((h.setF (f := EVQ_CFG_sev_mask n) (hne _ (by decide)) _).setF (f := EVQ_MOD_holdoff n) (hne _ (by decide)) _).setF
        (f := EVQ_MOD_threshold n) (hne _ (by decide)) _

theorem flrRegs_kept (s : State) : FlrKept P s (flrRegs s) :=
  (FlrKept.refl s).flrPages.closeExperts.setLink _ _ _ |>.applyEventDefaults

theorem flrEmptied_kept (s : State) : FlrKept P s (flrEmptied s) :=
  ⟨rfl, rfl, rfl, rfl, rfl, rfl, rfl, rfl, rfl, rfl, rfl, rfl, rfl, rfl, rfl, rfl, fun _ _ => rfl⟩

theorem flrBase_kept (s : State) : FlrKept P (abandonCmds (abandonResults s)) (flrBase s) := flrEmptied_kept _

/-- What a function-level reset leaves of a state whose PERST_N is then high. -/
def FlrDone (s t : State) : Prop :=
  t.cmds.table = [] ∧ t.cmds.hurdle = none ∧ t.host.flr = true ∧
  t.host.msix = [] ∧ t.host.msixPending = [] ∧ t.host.doe = none ∧ t.ev.rings = [] ∧ t.coll.landings = [] ∧
  t.coll.running = [] ∧ (∀ p ∈ t.lanes, p.2.queue = [] ∧ p.2.vecRun = none ∧ p.2.prog = []) ∧
  t.flash = s.flash ∧ t.fuses = s.fuses ∧ t.pins = { s.pins with perstN := true } ∧ t.laps.vals = s.laps.vals ∧
  t.laps.held = s.laps.held ∧
  t.fab.ports = s.fab.ports ∧ t.fab.results = s.fab.results ∧ t.fab.roles = s.fab.roles ∧ t.mil.ports = s.mil.ports ∧
  t.mil.slots = s.mil.slots ∧ t.tim = s.tim ∧ t.pac = s.pac ∧ t.stw = s.stw ∧ t.cbz = s.cbz ∧
  t.deviceTime = s.deviceTime ∧ t.out = s.out ∧
  (s.regsWf = true → getF t RST_CAUSE_flr_count = satAdd 8 (getF s RST_CAUSE_flr_count) 1) ∧
  (∀ a, (∀ e ∈ s.cmds.table, e.stage = .running → ∀ d ∈ e.dest, ¬(d.1 ≤ a ∧ a < d.1 + d.2)) →
    s.memWf = true → memByte t a = memByte s a)

/-- An address that no running command was writing. -/
def AsideOfRunning (s : State) (a : Nat) : Prop :=
  ∀ e ∈ s.cmds.table, e.stage = .running → ∀ d ∈ e.dest, ¬(d.1 ≤ a ∧ a < d.1 + d.2)

theorem flrRegs_flrBase_kept (s : State) : FlrKept (AsideOfRunning s) s (flrRegs (flrBase s)) :=
  ((FlrKept.abandonResults fun _ hx => hx).abandonCmds.trans (flrBase_kept s)).trans (flrRegs_kept _)

theorem flrRegs_flrBase_regsWf (hs : s.regsWf = true) : (flrRegs (flrBase s)).regsWf = true := by
  have hbase : Keeps s (flrBase s) := (Keeps.refl s).abandonResults.abandonCmds.frame
  exact (((hbase.flrPages.closeExperts.setF.setF).setF).applyEventDefaults).regs hs

theorem abandonCmds_cmds (s : State) : (abandonCmds s).cmds = {} := rfl

theorem flrEmptied_cmds (s : State) : (flrEmptied s).cmds = s.cmds := rfl

theorem flrBase_cmds (s : State) : (flrBase s).cmds = {} := by rw [flrBase, flrEmptied_cmds, abandonCmds_cmds]

theorem flrEmptied_lanes (s : State) : (flrEmptied s).lanes = s.lanes.map
    (fun l => (l.1, { l.2 with prog := [], resident := none, loaded := false })) := rfl

theorem flrEmptied_host (s : State) :
    (flrEmptied s).host = { s.host with flr := true, msix := [], msixPending := [], doe := none } := rfl

theorem flrEmptied_rings (s : State) : (flrEmptied s).ev.rings = [] := rfl

theorem flrEmptied_coll (s : State) : (flrEmptied s).coll = { s.coll with landings := [], running := [], outbox := [] } := rfl

theorem abandonCmds_lane_idle (s : State) : ∀ p ∈ (abandonCmds s).lanes, p.2.queue = [] ∧ p.2.vecRun = none := by
  unfold abandonCmds
  dsimp only
  intro p hp
  obtain ⟨l, -, rfl⟩ := List.mem_map.mp hp
  exact ⟨rfl, rfl⟩

theorem flrBase_lane_idle (s : State) : ∀ p ∈ (flrBase s).lanes, p.2.queue = [] ∧ p.2.vecRun = none ∧ p.2.prog = [] := by
  rw [flrBase, flrEmptied_lanes]
  intro p hp
  obtain ⟨l, hl, rfl⟩ := List.mem_map.mp hp
  obtain ⟨hq, hv⟩ := abandonCmds_lane_idle _ l hl
  exact ⟨hq, hv, rfl⟩

theorem flrDone_flrEffects (hp : s.pins.perstN = true) : FlrDone s (flrEffects s) := by
  have hkept := flrRegs_flrBase_kept s
  have hregs := (flrRegs_onlyRegs (flrBase s)).trans ((OnlyRegs.refl _).satF RST_CAUSE_flr_count 1)
  have hlast := (OnlyRegs.refl (flrRegs (flrBase s))).satF RST_CAUSE_flr_count 1
  have hpins : s.pins = { s.pins with perstN := true } := by rw [← hp]
  rw [flrEffects_eq]
  refine ⟨?_, ?_, ?_, ?_, ?_, ?_, ?_, ?_, ?_, ?_, ?_, ?_, ?_, ?_, ?_, ?_, ?_, ?_, ?_, ?_, ?_, ?_, ?_, ?_, ?_, ?_, fun hs => ?_,
    fun a ha _ => ?_⟩
  · rw [hregs.cmds, flrBase_cmds]
  · rw [hregs.cmds, flrBase_cmds]
  · rw [hregs.host, flrBase, flrEmptied_host]
  · rw [hregs.host, flrBase, flrEmptied_host]
  · rw [hregs.host, flrBase, flrEmptied_host]
  · rw [hregs.host, flrBase, flrEmptied_host]
  · rw [hregs.ev, flrBase, flrEmptied_rings]
  · rw [hregs.coll, flrBase, flrEmptied_coll]
  · rw [hregs.coll, flrBase, flrEmptied_coll]
  · rw [hregs.lanes]
    exact flrBase_lane_idle s
  · rw [hlast.flash, hkept.flash]
  · rw [hlast.fuses, hkept.fuses]
  · rw [hlast.pins, hkept.pins]
    exact hpins
  · rw [hlast.laps, hkept.laps]
  · rw [hlast.laps, hkept.laps]
  · rw [hlast.fab, hkept.ports]
  · rw [hlast.fab, hkept.results]
  · rw [hlast.fab, hkept.roles]
  · rw [hlast.mil, hkept.milPorts]
  · rw [hlast.mil, hkept.milSlots]
  · rw [hlast.tim, hkept.tim]
  · rw [hlast.pac, hkept.pac]
  · rw [hlast.stw, hkept.stw]
  · rw [hlast.cbz, hkept.cbz]
  · rw [hlast.deviceTime, hkept.deviceTime]
  · rw [hlast.out, hkept.out]
  · have hcount : getF (flrRegs (flrBase s)) RST_CAUSE_flr_count = getF s RST_CAUSE_flr_count :=
      congrArg (fun w : Word => bitsOf w.toNat RST_CAUSE_flr_count.lo RST_CAUSE_flr_count.w) hkept.cause
    rw [getF_satF_same (flrRegs_flrBase_regsWf hs) _ (by decide), hcount]
    rfl
  · rw [memByte_congr hlast.mem, hkept.bytes a ha]

/-- PERST_N at its end, with the function out of D3hot. -/
def perstReleased (s : State) : State :=
  { s with pins := { s.pins with perstN := true }, host := { s.host with d3hot := false } }

/-- The reset of a state that differs in PERST_N alone, or in the host interface. -/
theorem FlrDone.of_perstReleased (hd : FlrDone (perstReleased s) t) : FlrDone s t := hd

theorem FlrDone.of_with_host {h : HostSt} (hd : FlrDone { s with host := h } t) : FlrDone s t := hd

theorem startedUp_congr (h : s.regs = t.regs) : startedUp s = startedUp t := by
  simp only [startedUp, isSet_congr h, getF_congr h]

section
variable (hlife : s.life = .running) (hmod : s.pins.modRstN = true)
include hlife hmod

theorem not_held : ¬(s.life ≠ .running ∨ (!s.pins.modRstN) = true) := by simp [hlife, hmod]

theorem functionLevelReset_pcieFlr (hperst : s.pins.perstN = true) (hlink : s.host.linkUp = true) (hflr : s.host.flr = false)
    (hready : isSet s DEV_START_steward_ready = true) : functionLevelReset s .pcieFlr = flrEffects s := by
  unfold functionLevelReset
  rw [if_neg (not_held hlife hmod)]
  simp only [hperst, hlink, hflr, hready, Bool.not_false, and_self, if_true]

theorem functionLevelReset_d3hotToD0 (hperst : s.pins.perstN = true) (hlink : s.host.linkUp = true)
    (hflr : s.host.flr = false) (hhot : s.host.d3hot = true) :
    functionLevelReset s .d3hotToD0 = flrEffects { s with host := { s.host with d3hot := false } } := by
  unfold functionLevelReset
  rw [if_neg (not_held hlife hmod)]
  exact if_pos ⟨hperst, hlink, by rw [hflr]; rfl, hhot⟩

theorem functionLevelReset_toD3hot (hperst : s.pins.perstN = true) (hlink : s.host.linkUp = true) (hflr : s.host.flr = false)
    (hready : isSet s DEV_START_steward_ready = true ∨ isSet s DEV_START_boot_failed = true) :
    functionLevelReset s .toD3hot = { s with host := { s.host with d3hot := true } } := by
  unfold functionLevelReset
  rw [if_neg (not_held hlife hmod)]
  exact if_pos ⟨hperst, hlink, by rw [hflr]; rfl, hready⟩

theorem functionLevelReset_perstEnd (hperst : s.pins.perstN = false) : functionLevelReset s .perstEnd =
    if startedUp s then flrEffects (perstReleased s) else perstReleased s := by
  have hup : startedUp (perstReleased s) = startedUp s := startedUp_congr rfl
  unfold functionLevelReset
  rw [if_neg (not_held hlife hmod), ← hup]
  exact if_neg (by simp [hperst])

end

/-- A request during a reset is discarded. -/
theorem functionLevelReset_during (hflr : s.host.flr = true) : functionLevelReset s .pcieFlr = s := by
  unfold functionLevelReset
  split
  · rfl
  · exact if_neg (by simp [hflr])

/-- Settles O12: the three requests end in `flrEffects`, of which `flrDone_flrEffects` tells. -/
theorem functionLevelResetKeeps : Obligations.FunctionLevelResetKeeps := by
  refine ⟨fun s c hlife hmod hc => ⟨_, rfl, ?_⟩, fun s hlife hmod hperst hup => ?_, fun s hflr => ?_,
    fun s hlife hmod hperst hlink hflr hready => ?_, fun s hlife hmod => ?_⟩
  · show FlrDone s (functionLevelReset s c)
    obtain ⟨rfl, hperst, hlink, hflr, hready⟩ | ⟨rfl, hperst, hlink, hflr, hhot⟩ | ⟨rfl, hperst, hup⟩ := hc
    · rw [functionLevelReset_pcieFlr hlife hmod hperst hlink hflr hready]
      exact flrDone_flrEffects hperst
    · rw [functionLevelReset_d3hotToD0 hlife hmod hperst hlink hflr hhot]
      exact FlrDone.of_with_host (flrDone_flrEffects (s := { s with host := { s.host with d3hot := false } }) hperst)
    · rw [functionLevelReset_perstEnd hlife hmod hperst, if_pos hup]
      exact FlrDone.of_perstReleased (flrDone_flrEffects rfl)
  · rw [exec, execFunctionLevelReset, functionLevelReset_perstEnd hlife hmod hperst,
      if_neg (by rw [hup]; decide), perstReleased]
  · rw [exec, execFunctionLevelReset, functionLevelReset_during hflr]
  · rw [exec, execFunctionLevelReset, functionLevelReset_toD3hot hlife hmod hperst hlink hflr hready]
  · rw [exec, execFlrComplete, flrComplete, if_pos ⟨hlife, hmod⟩]

end

end Sys2Proof.Machine
end

section
/-! Supplies, coolant and clock domains (02_module, 03_first_second). -/

namespace Sys2Proof.Machine

section
variable {r s t : State}

/-! ### Lock bits -/

/-- The register that holds a domain's lock bit, and the bit in it. -/
def lockAddr (d : Nat) : Nat := if d < 32 then 0x1104 else 0x1108
def lockBit (d : Nat) : Nat := if d < 32 then d else d - 32

theorem lockBit_lt {d : Nat} (h : d < 64) : lockBit d < 32 := by unfold lockBit; split <;> omega

theorem isLocked_eq (s : State) (d : Nat) : isLocked s d = bitOf (reg s (lockAddr d)).toNat (lockBit d) := by
  unfold isLocked lockAddr lockBit
  split <;> rfl

theorem setLock_eq (s : State) (d : Nat) (on : Bool) :
    setLock s d on = setReg s (lockAddr d) (insertBits (reg s (lockAddr d)) (lockBit d) 1 (b2n on)) := by
  unfold setLock lockAddr lockBit
  split <;> rfl

theorem lockAddr_lockBit_inj {d d' : Nat} (ha : lockAddr d = lockAddr d') (hb : lockBit d = lockBit d') : d = d' := by
  unfold lockAddr at ha
  unfold lockBit at hb
  split at ha <;> split at ha <;> simp_all
  omega

theorem bitOf_b2n (on : Bool) : bitOf (b2n on) 0 = on := by cases on <;> rfl

theorem isLocked_setLock_same (hs : s.regsWf = true) {d : Nat} (hd : d < 64) (on : Bool) :
    isLocked (setLock s d on) d = on := by
  have hlt := lockBit_lt hd
  rw [isLocked_eq, setLock_eq, reg_setReg_same hs, bitOf_insertBits _ _ (by omega), if_pos (by omega), Nat.sub_self, bitOf_b2n]

theorem isLocked_setLock_ne (hs : s.regsWf = true) {d e : Nat} (hd : d < 64) (h : e ≠ d) (on : Bool) :
    isLocked (setLock s d on) e = isLocked s e := by
  have hlt := lockBit_lt hd
  rw [isLocked_eq, setLock_eq, isLocked_eq]
  by_cases ha : lockAddr e = lockAddr d
  · have hb : lockBit e ≠ lockBit d := fun hb => h (lockAddr_lockBit_inj ha hb)
    rw [ha, reg_setReg_same hs, bitOf_insertBits _ _ (by omega), if_neg (by omega)]
  · rw [reg_setReg_ne _ _ ha]

theorem setLock_regsWf (hs : s.regsWf = true) (d : Nat) (on : Bool) : (setLock s d on).regsWf = true := by
  rw [setLock_eq]
  exact setReg_regsWf hs _ _

theorem lockAddr_eq_or (d : Nat) : lockAddr d = 0x1104 ∨ lockAddr d = 0x1108 := by unfold lockAddr; split <;> simp

theorem reg_setLock_ne {a d : Nat} (h1 : a ≠ 0x1104) (h2 : a ≠ 0x1108) (on : Bool) : reg (setLock s d on) a = reg s a := by
  rw [setLock_eq, reg_setReg_ne]
  obtain h | h := lockAddr_eq_or d
  · rwa [h]
  · rwa [h]

theorem isLocked_congr (h : ∀ d, reg t (lockAddr d) = reg s (lockAddr d)) (d : Nat) : isLocked t d = isLocked s d := by
  rw [isLocked_eq, h, isLocked_eq]

theorem setLock_regs_congr (h : s.regs = t.regs) (d : Nat) (on : Bool) : (setLock s d on).regs = (setLock t d on).regs := by
  simp only [setLock_eq, setReg, reg, h]

/-! ### Step 1 of start-up -/

/-- The factory words copied. -/
def copyWords (s : State) (l : List (Nat × Word)) : State := l.foldl (fun s e => setReg s e.1 e.2) s

/-- The domains whose reference is present locked. -/
def lockDomains (s : State) (l : List Nat) : State :=
  l.foldl (fun s d => if fromNet d ∧ !s.pins.netRef then s else setLock s d true) s

theorem copyWords_regsWf {l : List (Nat × Word)} (hs : s.regsWf = true) : (copyWords s l).regsWf = true := by
  induction l generalizing s with
  | nil => exact hs
  | cons e l ih => exact ih (setReg_regsWf hs _ _)

theorem reg_copyWords_of_not_mem {l : List (Nat × Word)} {a : Nat} (h : ∀ e ∈ l, e.1 ≠ a) :
    reg (copyWords s l) a = reg s a := by
  induction l generalizing s with
  | nil => rfl
  | cons e l ih =>
    exact (ih fun x hx => h x (List.mem_cons_of_mem e hx)).trans (reg_setReg_ne _ _ (h e List.mem_cons_self).symm)

/-- A word that alone names its register stands there. -/
theorem reg_copyWords {l : List (Nat × Word)} (hs : s.regsWf = true) {e : Nat × Word} (he : e ∈ l)
    (hone : (l.filter (fun x => x.1 == e.1)).length = 1) : reg (copyWords s l) e.1 = e.2 := by
  induction l generalizing s with
  | nil => cases he
  | cons x l ih =>
    by_cases hx : x.1 = e.1
    · have hnone : ∀ y ∈ l, y.1 ≠ e.1 := by simpa [List.filter_cons, hx] using hone
      obtain rfl | hel := List.mem_cons.mp he
      · exact (reg_copyWords_of_not_mem hnone).trans (reg_setReg_same hs _ _)
      · exact absurd rfl (hnone e hel)
    · obtain rfl | hel := List.mem_cons.mp he
      · exact absurd rfl hx
      · exact ih (setReg_regsWf hs _ _) hel (by simpa [List.filter_cons, hx] using hone)

theorem lockDomains_onlyRegs (s : State) (l : List Nat) : OnlyRegs s (lockDomains s l) :=
  (OnlyRegs.refl s).foldl fun _ _ h => .ite h (h.setLock _ _)

theorem lockDomains_regsWf {l : List Nat} (hs : s.regsWf = true) : (lockDomains s l).regsWf = true := by
  induction l generalizing s with
  | nil => exact hs
  | cons d l ih =>
    refine ih ?_
    dsimp only
    split
    · exact hs
    · exact setLock_regsWf hs _ _

theorem reg_lockDomains_ne {l : List Nat} {a : Nat} (h1 : a ≠ 0x1104) (h2 : a ≠ 0x1108) :
    reg (lockDomains s l) a = reg s a := by
  induction l generalizing s with
  | nil => rfl
  | cons d l ih =>
    refine ih.trans ?_
    dsimp only
    split
    · rfl
    · exact reg_setLock_ne h1 h2 _

/-- Every domain named whose reference is present reads locked. -/
theorem isLocked_lockDomains {l : List Nat} (hs : s.regsWf = true) (hl : ∀ d ∈ l, d < 64) {d : Nat}
    (h : isLocked s d = true ∨ (d ∈ l ∧ (s.pins.netRef = true ∨ fromNet d = false))) : isLocked (lockDomains s l) d = true := by
  induction l generalizing s with
  | nil => exact h.resolve_right fun hd => nomatch hd.1
  | cons e l ih =>
    have he := hl e List.mem_cons_self
    have hrest := fun x hx => hl x (List.mem_cons_of_mem e hx)
    show isLocked (lockDomains (if fromNet e ∧ !s.pins.netRef then s else setLock s e true) l) d = true
    by_cases hskip : fromNet e ∧ (!s.pins.netRef) = true
    · rw [if_pos hskip]
      refine ih hs hrest (h.imp id fun hd => ⟨(List.mem_cons.mp hd.1).resolve_left fun hde => ?_, hd.2⟩)
      subst hde
      simp_all
    · rw [if_neg hskip]
      have hpins : (setLock s e true).pins = s.pins := ((OnlyRegs.refl s).setLock e true).pins
      refine ih (setLock_regsWf hs _ _) hrest ?_
      by_cases hde : d = e
      · exact .inl (hde ▸ isLocked_setLock_same hs he true)
      · rw [isLocked_setLock_ne hs he hde, hpins]
        exact h.imp id fun hd => ⟨(List.mem_cons.mp hd.1).resolve_left hde, hd.2⟩

theorem reg_startBlocks {a : Nat} (h : ∀ p, a ≠ p * 0x1000 + 0xC) : reg (startBlocks s) a = reg s a := by
  unfold startBlocks
  induction allPages generalizing s with
  | nil => rfl
  | cons p l ih =>
    refine ih.trans ?_
    dsimp only
    split
    · exact reg_setF_ne _ _ (h p)
    · rfl

/-- The factory words and the lane map taken from the fuses. -/
def copiedState (s : State) : State :=
  let s := copyWords s s.fuses.words
  { s with fuses := { s.fuses with loadedLane := s.fuses.physLane, loadedSub := s.fuses.subLanes } }

/-- The state of step 1 before its own status bits. -/
def lockedState (s : State) : State := lockDomains (copiedState s) (List.range 39)

theorem copiedState_regs (s : State) : (copiedState s).regs = (copyWords s s.fuses.words).regs := rfl

theorem copiedState_pins (s : State) : (copiedState s).pins = (copyWords s s.fuses.words).pins := rfl

/-- The status bits of the clocks and of start-up, in order. -/
def statusBits (s : State) : State :=
  setF (setF (setF (setF s CLK_STATUS_root_lock 1) CLK_STATUS_sys_ref_ok 1) CLK_STATUS_net_ref_ok (b2n s.pins.netRef))
    DEV_START_fuses_done 1

theorem loadFuses_eq (s : State) : loadFuses s = startBlocks (statusBits (lockedState s)) := by
  unfold loadFuses lockedState copiedState statusBits copyWords lockDomains
  rfl

theorem reg_statusBits_ne {a : Nat} (h1 : a ≠ 0x1100) (h2 : a ≠ 0x148) : reg (statusBits s) a = reg s a := by
  unfold statusBits
  rw [reg_setF_ne _ _ (f := DEV_START_fuses_done) h2, reg_setF_ne _ _ (f := CLK_STATUS_net_ref_ok) h1,
    reg_setF_ne _ _ (f := CLK_STATUS_sys_ref_ok) h1, reg_setF_ne _ _ (f := CLK_STATUS_root_lock) h1]

section
variable (hs : s.regsWf = true)
include hs

theorem getF_statusBits_fusesDone : getF (statusBits s) DEV_START_fuses_done = 1 :=
  getF_setF_same (setF_regsWf (setF_regsWf (setF_regsWf hs _ _) _ _) _ _) _ (by decide)

theorem getF_statusBits_rootLock : getF (statusBits s) CLK_STATUS_root_lock = 1 := by
  have h1 := setF_regsWf hs CLK_STATUS_root_lock 1
  have h2 := setF_regsWf h1 CLK_STATUS_sys_ref_ok 1
  unfold statusBits
  rw [getF_setF_ne _ _ (by decide), getF_setF_apart (f := CLK_STATUS_net_ref_ok) (g := CLK_STATUS_root_lock) h2 _ (by decide) rfl (by decide),
    getF_setF_apart (f := CLK_STATUS_sys_ref_ok) (g := CLK_STATUS_root_lock) h1 _ (by decide) rfl (by decide), getF_setF_same hs _ (by decide)]
  rfl

theorem getF_statusBits_sysRef : getF (statusBits s) CLK_STATUS_sys_ref_ok = 1 := by
  have h1 := setF_regsWf hs CLK_STATUS_root_lock 1
  have h2 := setF_regsWf h1 CLK_STATUS_sys_ref_ok 1
  unfold statusBits
  rw [getF_setF_ne _ _ (by decide), getF_setF_apart (f := CLK_STATUS_net_ref_ok) (g := CLK_STATUS_sys_ref_ok) h2 _ (by decide) rfl (by decide),
    getF_setF_same h1 _ (by decide)]
  rfl

theorem copiedState_regsWf : (copiedState s).regsWf = true := by
  rw [State.regsWf, copiedState_regs]
  exact copyWords_regsWf hs

theorem lockedState_regsWf : (lockedState s).regsWf = true := lockDomains_regsWf (copiedState_regsWf hs)

theorem isLocked_lockedState {d : Nat} (hd : d < 39) (h : s.pins.netRef = true ∨ fromNet d = false) :
    isLocked (lockedState s) d = true := by
  have hpins : (copyWords s s.fuses.words).pins = s.pins := ((OnlyRegs.refl s).foldl fun _ _ h => h.setReg _ _).pins
  refine isLocked_lockDomains (copiedState_regsWf hs) (fun e he => ?_) (.inr ⟨List.mem_range.mpr hd, ?_⟩)
  · have := List.mem_range.mp he
    omega
  · rw [copiedState_pins, hpins]
    exact h

theorem reg_lockedState_word {e : Nat × Word} (he : e ∈ s.fuses.words)
    (hone : (s.fuses.words.filter (fun x => x.1 == e.1)).length = 1) (h1 : e.1 ≠ 0x1104) (h2 : e.1 ≠ 0x1108) :
    reg (lockedState s) e.1 = e.2 := by
  unfold lockedState
  rw [reg_lockDomains_ne h1 h2, reg, copiedState_regs]
  exact reg_copyWords hs he hone

/-- What step 1 leaves in the registers (R56, R57). -/
theorem loadFuses_regs : getF (loadFuses s) DEV_START_fuses_done = 1 ∧ getF (loadFuses s) CLK_STATUS_root_lock = 1 ∧
    getF (loadFuses s) CLK_STATUS_sys_ref_ok = 1 ∧
    (∀ d, d < 39 → (s.pins.netRef = true ∨ fromNet d = false) → isLocked (loadFuses s) d = true) ∧
    ∀ e ∈ s.fuses.words, (s.fuses.words.filter (fun x => x.1 == e.1)).length = 1 → 0xC00 ≤ e.1 % 0x1000 →
      reg (loadFuses s) e.1 = e.2 := by
  have hwf := lockedState_regsWf hs
  have hfield : ∀ f : Fld, (∀ p, f.addr ≠ p * 0x1000 + 0xC) → getF (loadFuses s) f = getF (statusBits (lockedState s)) f := by
    intro f hf
    rw [loadFuses_eq, getF, reg_startBlocks hf, getF]
  refine ⟨?_, ?_, ?_, fun d hd href => ?_, fun e he hone hhigh => ?_⟩
  · rw [hfield _ (by intro p; show 0x148 ≠ _; omega), getF_statusBits_fusesDone hwf]
  · rw [hfield _ (by intro p; show 0x1100 ≠ _; omega), getF_statusBits_rootLock hwf]
  · rw [hfield _ (by intro p; show 0x1100 ≠ _; omega), getF_statusBits_sysRef hwf]
  · rw [loadFuses_eq, isLocked_congr (s := lockedState s), isLocked_lockedState hs hd href]
    intro d
    obtain h | h := lockAddr_eq_or d <;> rw [h, reg_startBlocks (by omega), reg_statusBits_ne (by decide) (by decide)]
  · rw [loadFuses_eq, reg_startBlocks (by omega), reg_statusBits_ne (by omega) (by omega),
      reg_lockedState_word hs he hone (by omega) (by omega)]

end

/-! ### The rows -/

theorem getF_loseRef (hs : s.regsWf = true) {d : Nat} (hd : d < 39) :
    getF (loseRef s d) (if fromNet d then CLK_STATUS_net_ref_ok else CLK_STATUS_sys_ref_ok) = 0 := by
  unfold loseRef
  cases fromNet d with
  | true => exact getF_setF_same (s := { s with pins := { s.pins with netRef := false } }) hs 0 (by decide)
  | false =>
    rw [if_neg (by decide), if_neg (by omega)]
    exact getF_setF_same (s := { s with pins := { s.pins with sysRef := false } }) hs 0 (by decide)

/-- The blade's low flag asserts FAULT_N. -/
theorem faultDriven_of_low (hlife : s.life = .running) (bladeB : Bool)
    (h : isSet s (if bladeB then DEV_SUPPLY_low_b else DEV_SUPPLY_low_a) = true) : faultDriven s = true := by
  cases bladeB <;> simp_all [faultDriven]

/-- A blade's sensed voltage and its low flag. -/
def bladeLow (s : State) (bladeB : Bool) (steps : Nat) : State :=
  setF (setF { s with pins := if bladeB then { s.pins with bladeB := 20 * steps } else { s.pins with bladeA := 20 * steps } }
    (if bladeB then DEV_SUPPLY_blade_b else DEV_SUPPLY_blade_a) steps)
    (if bladeB then DEV_SUPPLY_low_b else DEV_SUPPLY_low_a) 1

theorem supply_aside : Aside 0x144 := ⟨by decide, by decide⟩

theorem isSet_bladeLow (hs : s.regsWf = true) (bladeB : Bool) (steps : Nat) :
    isSet (bladeLow s bladeB steps) (if bladeB then DEV_SUPPLY_low_b else DEV_SUPPLY_low_a) = true := by
  unfold bladeLow
  cases bladeB
  · exact isSet_setF_same (setF_regsWf (s := { s with pins := { s.pins with bladeA := 20 * steps } }) hs _ _) 1 (by decide)
  · exact isSet_setF_same (setF_regsWf (s := { s with pins := { s.pins with bladeB := 20 * steps } }) hs _ _) 1 (by decide)

theorem bladeLow_life (bladeB : Bool) (steps : Nat) : (bladeLow s bladeB steps).life = s.life := rfl

theorem faultDriven_settleAlert : faultDriven (settleAlert s) = faultDriven s := rfl

theorem supplyLow_faultDriven (hs : s.regsWf = true) (hlife : s.life = .running) (bladeB : Bool) (steps : Nat) (l : List Nat) :
    faultDriven (raiseEv (bladeLow s bladeB steps) pgDEV evSupplyLow l) = true := by
  refine faultDriven_of_low (by rw [raiseEv_life, bladeLow_life, hlife]) bladeB ?_
  rw [isSet_raiseEv_aside, isSet_bladeLow hs]
  cases bladeB
  · exact supply_aside
  · exact supply_aside

theorem clockDomainRelock_eq {d : Nat} (hlife : s.life = .running) (hfuses : isSet s DEV_START_fuses_done = true)
    (hlock : isLocked s d = false) : clockDomainRelock s d =
      if fromNet d then setF { setLock s d true with pins := { (setLock s d true).pins with netRef := true } }
        CLK_STATUS_net_ref_ok 1
      else if d = 39 then setLock s d true
      else setF { setLock s d true with pins := { (setLock s d true).pins with sysRef := true } } CLK_STATUS_sys_ref_ok 1 := by
  rw [clockDomainRelock, if_pos ⟨hlife, hfuses, by rw [hlock]; rfl⟩]

theorem with_pins_eq {u : State} {p : Pins} (h : OnlyRegs s u) (ht : OnlyRegs { u with pins := p } t) :
    t = { s with regs := t.regs, pins := p } := by
  rw [ht.eq_with, h.eq_with]

theorem setF_with_pins_regs (u : State) (p : Pins) (f : Fld) (v : Nat) :
    (setF { u with pins := p } f v).regs = (setF u f v).regs := setF_regs_congr (s := { u with pins := p }) rfl f v

section
variable {d : Nat} (hlife : s.life = .running) (hfuses : isSet s DEV_START_fuses_done = true) (hlock : isLocked s d = false)
include hlife hfuses hlock

theorem clockDomainRelock_frame : clockDomainRelock s d = { s with regs := (clockDomainRelock s d).regs, pins := { s.pins with
    netRef := s.pins.netRef || fromNet d, sysRef := s.pins.sysRef || (!fromNet d && decide (d ≠ 39)) } } := by
  have hset : OnlyRegs s (setLock s d true) := (OnlyRegs.refl s).setLock d true
  rw [clockDomainRelock_eq hlife hfuses hlock, hset.pins]
  cases fromNet d with
  | true => simpa using with_pins_eq hset ((OnlyRegs.refl _).setF CLK_STATUS_net_ref_ok 1)
  | false =>
    by_cases hd : d = 39
    · simpa [hd] using (hd ▸ hset).eq_with
    · simpa [hd] using with_pins_eq hset ((OnlyRegs.refl _).setF CLK_STATUS_sys_ref_ok 1)

theorem clockDomainRelock_regs : (clockDomainRelock s d).regs = (if d = 39 then setLock s d true
    else setF (setLock s d true) (if fromNet d then CLK_STATUS_net_ref_ok else CLK_STATUS_sys_ref_ok) 1).regs := by
  rw [clockDomainRelock_eq hlife hfuses hlock]
  by_cases hd : d = 39
  · subst hd
    rfl
  · cases fromNet d with
    | true => simpa [hd] using setF_with_pins_regs ..
    | false => simpa [hd] using setF_with_pins_regs ..

end

theorem rootPllRetry_eq (hlife : s.life = .running) (hfuses : isSet s DEV_START_fuses_done = false) :
    rootPllRetry s true = loadFuses { s with pins := { s.pins with sysRef := true } } := by
  rw [rootPllRetry, if_pos ⟨hlife, by rw [hfuses]; rfl, rfl⟩]

/-- Settles O13: the rows' equations, step 1's registers by `loadFuses_regs`. -/
theorem suppliesAndClocks : Obligations.SuppliesAndClocks := by
  refine ⟨fun s inlet outlet hlife hrise => ⟨_, ?_, ?_, rfl⟩, fun s bladeB steps hlife hlow => ⟨_, ?_, rfl, fun hs => ?_⟩,
    fun s d refLost hd hlife hlock => ?_, fun s d hs hd => getF_loseRef hs hd, fun s d hd hlife hfuses hlock => ?_,
    fun s hlife hfuses => ⟨?_, _, rfl, ?_, fun hs => ?_⟩⟩
  · rw [exec, execCoolantRise, coolantRise, if_pos ⟨hlife, hrise⟩]
    rfl
  · simp [thermWarnN, settleAlert]
  · rw [exec, execSupplyLow, supplyLow, if_pos ⟨hlife, hlow⟩]
    rfl
  · rw [faultDriven_settleAlert]
    exact supplyLow_faultDriven hs hlife bladeB steps _
  · rw [exec, execClockUnlock, onInstance, if_pos (decide_eq_true hd), clockUnlock, if_pos ⟨hlife, hlock⟩]
    rfl
  · refine ⟨clockDomainRelock s d, if_pos (decide_eq_true hd), ?_, ?_⟩
    · exact clockDomainRelock_frame hlife hfuses hlock
    · exact clockDomainRelock_regs hlife hfuses hlock
  · rw [exec, execRootPllRetry, rootPllRetry, if_neg (by simp)]
  · rw [rootPllRetry_eq hlife hfuses]
    exact loadFuses_frame { s with pins := { s.pins with sysRef := true } }
  · rw [rootPllRetry_eq hlife hfuses]
    exact loadFuses_regs (s := { s with pins := { s.pins with sysRef := true } }) hs

end

end Sys2Proof.Machine
end

section
/-! Ports: knocks, training, identities, fabric-ready and the ring members' insertion (03_first_second, 11_stadium_fabric). -/

namespace Sys2Proof.Machine

section
variable {s t : State}

/-! ### How rows meet their conditions -/

theorem onInstance_of {ok : Bool} (h : ok = true) (t : State) : onInstance ok t = .next t := if_pos h

theorem whileRunning_of (h : s.life = .running) (t : State) : whileRunning s t = t := if_pos h

theorem onPage_of {page : Nat} (h : regsOpen s page = true) (t : State) : onPage s page t = t := if_pos h

theorem isPort_of {n : Nat} (h : n < 20) : isPort n = true := decide_eq_true h

/-- A row on a port of a running module. -/
theorem onPort_of {n : Nat} (hn : n < 20) (h : s.life = .running) (t : State) :
    onInstance (isPort n) (whileRunning s t) = .next t := by
  rw [whileRunning_of h, onInstance_of (isPort_of hn)]

/-! ### Training -/

theorem backOff_of_knocking {n : Nat} (h : (port s n).train = .knocking) (falseStart : Bool) : backOff s n falseStart =
    satF (setPort s n { port s n with
      train := .backoff, backoffs := (port s n).backoffs + 1,
      waitUs := backoffUs s n (port s n).backoffs, falseStarts := (port s n).falseStarts + b2n falseStart })
      FAB_TRAIN_false_starts 1 := if_pos h

/-- Settles O14, row by row: each row's condition holds and its equation remains. -/
theorem portTraining : Obligations.PortTraining := by
  refine ⟨fun s n rest hq hlife hbusy hclk => ?_, fun s n hn hlife hport => ⟨fun h => ?_, fun h => ?_, fun h1 h2 => ?_⟩,
    fun s n hn hlife h => ⟨?_, ?_, ?_⟩, fun s n hn hlife h => ?_, fun s n hn hlife hk htrain => ?_, fun s n hn hlife h => ?_⟩
  · rw [exec, execPortKnockStart, knockStart, hq]
    exact congrArg Host.Outcome.next (if_pos ⟨hlife, hbusy, hclk⟩)
  · simp [exec, execKnockReceived, onInstance_of (isPort_of hn), knockReceived, hport, hlife, h]
  · simp [exec, execKnockReceived, onInstance_of (isPort_of hn), knockReceived, hport, hlife, h]
  · rw [exec, execKnockReceived, onInstance_of (isPort_of hn), knockReceived, if_neg (by simp [hport, hlife])]
    dsimp only
    split
    · contradiction
    · contradiction
    · rfl
  · rw [exec, execKnockAnswerReady, onPort_of hn hlife, knockReady, if_pos h]
  · rw [exec, execKnockAnswerFalseStart, onPort_of hn hlife, backOff_of_knocking h]
    rfl
  · rw [exec, execKnockTimeout, onPort_of hn hlife, backOff_of_knocking h]
    rfl
  · rw [exec, execPortBackoffExpiry, onPort_of hn hlife, backoffExpiry, if_pos h, queuePort]
    rfl
  · have hcond : (port s n).knocks ≠ 0 ∧ ((port s n).train = .queued ∨ (port s n).train = .knocking ∨
        (port s n).train = .training ∨ (port s n).train = .backoff) := ⟨hk, by simpa using htrain⟩
    rw [exec, execPortTrainTimeout, onPort_of hn hlife, trainTimeout, if_pos hcond]
    rfl
  · rw [exec, execPortTrained, onPort_of hn hlife, portTrained, if_pos h]
    rfl

theorem myId_setF {f : Fld} (h : 0x140 ≠ f.addr) (v : Nat) : myId (setF s f v) = myId s := by
  rw [myId, reg_setF_ne s v h, myId]

/-- Noting the far end does not change who this module is. -/
theorem myId_identified (p : PortSt) (n dev far : Nat) : myId (setF (setF (setF (setPort s n p) (PORT_PEER_peer_id n) dev)
    (PORT_PEER_peer_port n) far) (PORT_PEER_peer_valid n) 1) = myId s := by
  have hne : 0x140 ≠ 0xa0104 + 0x1000 * n := by omega
  rw [myId_setF (f := PORT_PEER_peer_valid n) hne, myId_setF (f := PORT_PEER_peer_port n) hne,
    myId_setF (f := PORT_PEER_peer_id n) hne]
  rfl

/-- Settles O15: the row's equation on a first identity, and its condition on a second. -/
theorem identityCheck : Obligations.IdentityCheck := by
  refine ⟨fun s n dev far hn hlife htrain hseen => ⟨fun hok => ?_, fun hok => ?_⟩, fun s n dev far hn hseen => ?_⟩
  · rw [exec, execLinkIdentity, onPort_of hn hlife, linkIdentity, if_neg (by simp [htrain, hseen])]
    dsimp only
    rw [if_pos hok, myId_identified, evLinkUp]
  · rw [exec, execLinkIdentity, onPort_of hn hlife, linkIdentity, if_neg (by simp [htrain, hseen])]
    exact congrArg Host.Outcome.next (if_neg (by simp [hok]))
  · rw [exec, execLinkIdentity, onInstance_of (isPort_of hn), linkIdentity, if_pos (.inr hseen), whileRunning, ite_self]

end

end Sys2Proof.Machine
end

section
/-! Fabric-ready and the ring members' insertion (03_first_second, 11_stadium_fabric). -/

namespace Sys2Proof.Machine

section
variable {s : State}

theorem directKeeper_false (axisY : Bool) : directKeeper s axisY false =
    if isSet s (allowF axisY) then releaseAxis s axisY else s := rfl

/-! ### Insertion -/

theorem setInsert_setInsert (s : State) (axisY : Bool) (i j : InsertSt) :
    setInsert (setInsert s axisY i) axisY j = setInsert s axisY j := by cases axisY <;> rfl

theorem insertSt_setInsert (s : State) (axisY : Bool) (i : InsertSt) : insertSt (setInsert s axisY i) axisY = i := by
  cases axisY <;> rfl

theorem isSet_setInsert (s : State) (axisY : Bool) (i : InsertSt) (f : Fld) : isSet (setInsert s axisY i) f = isSet s f := rfl

/-- A level that rises, or is refused where allow is 0. -/
theorem applyKeeper_rise (s : State) (axisY : Bool) : applyKeeper s axisY true =
    if isSet s (allowF axisY) then setF (setInsert (driveKeeper s axisY true) axisY
      { insertSt s axisY with levelHeld := false, wanted := none }) (insertF axisY) 2
    else setInsert s axisY { insertSt s axisY with wanted := none } := by
  unfold applyKeeper
  dsimp only
  cases isSet s (allowF axisY) <;> rfl

theorem applyKeeper_fall (s : State) (axisY : Bool) : applyKeeper s axisY false =
    raiseEv (setF (setInsert (driveKeeper s axisY false) axisY { levelHeld := false }) (insertF axisY) 0) pgFAB
      ⟨0x5007, 1⟩ [b2n axisY, 0] := by
  unfold applyKeeper
  dsimp only
  rw [setInsert_setInsert]
  rfl

/-- The present level has stood for 10 ms. -/
def levelStood (s : State) (axisY : Bool) : State := setInsert s axisY { insertSt s axisY with levelHeld := true }

theorem keeperHoldExpiry_eq (s : State) (axisY : Bool) : keeperHoldExpiry s axisY =
    match (insertSt s axisY).wanted with
    | some level => applyKeeper (levelStood s axisY) axisY level
    | none => levelStood s axisY := rfl

theorem applyKeeper_levelStood_rise (s : State) (axisY : Bool) : applyKeeper (levelStood s axisY) axisY true =
    if isSet s (allowF axisY) then setF (setInsert (driveKeeper (levelStood s axisY) axisY true) axisY
      { insertSt s axisY with levelHeld := false, wanted := none }) (insertF axisY) 2
    else setInsert s axisY { insertSt s axisY with levelHeld := true, wanted := none } := by
  rw [applyKeeper_rise, levelStood, isSet_setInsert, insertSt_setInsert, setInsert_setInsert]

/-- With both links up the insertion has ended (step 7 of R275). -/
theorem insertDone_of_up {axisY : Bool} (hshake : (insertSt s axisY).handshake = true)
    (hrep : (insertSt s axisY).reported = false) (h3 : portState s (axisPort axisY) = 3)
    (h3' : portState s (axisPort axisY + 1) = 3) : insertDone s axisY =
      let s1 := setInsert s axisY { insertSt s axisY with reported := true, linkPlus := true, linkMinus := true }
      if (insertSt s axisY).missed = 0
      then raiseEv s1 pgFAB ⟨0x5005, 1⟩ [b2n axisY, (elapsed s - (insertSt s axisY).startedAt) / 1000000]
      else raiseEv s1 pgFAB ⟨0x5006, 2⟩ [b2n axisY, (insertSt s axisY).missed] := by
  unfold axisPort at h3 h3'
  unfold insertDone
  dsimp only
  simp only [h3, h3', hshake, hrep, Bool.not_false, beq_self_eq_true, Bool.true_or, and_self, if_true, evInsertDone, evInsertTimeout]
  rfl

/-- Settles O19, row by row. -/
theorem ringInsertion : Obligations.RingInsertion := by
  refine ⟨fun s axisY hlife hallow h2 h2' h0 => ?_, fun s axisY hlife hasked hshake => ?_,
    fun s axisY hshake hrep h3 h3' => ?_, fun s axisY hlife => ⟨fun hw => ?_, fun hw => ?_, fun hw => ?_⟩,
    fun s axisY hopen => ⟨fun h => ?_, fun h => ?_, fun h => ?_⟩, fun s axisY hlife h3 he he' => ?_,
    fun s n h16 hn hlife => ?_, fun s n hn hlife he => ?_⟩
  · intro s1 hnone
    rw [exec, execRingInsertStart, whileRunning_of hlife, insertStart, if_pos ⟨hallow, h2, h2', h0⟩]
    dsimp only
    rw [hnone]
  · rw [exec, execInsertWaitExpiry, whileRunning_of hlife, insertWait, if_pos ⟨hasked, by rw [hshake]; rfl⟩]
  · exact insertDone_of_up hshake hrep h3 h3'
  · rw [exec, execKeeperLevelHoldExpiry, whileRunning_of hlife, keeperHoldExpiry_eq, hw]
    rfl
  · rw [exec, execKeeperLevelHoldExpiry, whileRunning_of hlife, keeperHoldExpiry_eq, hw]
    exact congrArg Host.Outcome.next (applyKeeper_levelStood_rise s axisY)
  · rw [exec, execKeeperLevelHoldExpiry, whileRunning_of hlife, keeperHoldExpiry_eq, hw]
    exact congrArg Host.Outcome.next (applyKeeper_fall _ axisY)
  · rw [exec, execRingRelease, onPage_of hopen, releaseAxis]
    dsimp only
    rw [if_pos h]
  · rw [exec, execRingRelease, onPage_of hopen, releaseAxis]
    dsimp only
    rw [if_neg (by rw [h]; decide), if_pos h]
    rfl
  · rw [exec, execRingRelease, onPage_of hopen, releaseAxis]
    dsimp only
    rw [if_neg (by rw [h]; decide), if_neg (by rw [h]; decide)]
  · rw [exec, execReleaseDrainDone, whileRunning_of hlife, releaseDrained, if_pos ⟨h3, he, he'⟩]
  · rw [exec, execDrainMessage, onPort_of hn hlife, if_pos h16]
  · rw [exec, execInsertDrainDone, onPort_of hn hlife, insertDrained, if_pos he]

end

end Sys2Proof.Machine

namespace Sys2Proof

open Machine

/-- Settles O18: the row's equation where its condition holds, `directKeeper` by the permission, and no change where it
does not. -/
theorem fabricReady : Obligations.FabricReady := by
  refine ⟨fun s ms hlife hstw hfab hports hdone => ?_, fun s axisY => ⟨rfl, fun h => ?_, fun h => ?_⟩, fun s ms h => ?_⟩
  · rw [exec, execFabricReady, whileRunning_of hlife, Machine.fabricReady, if_pos ⟨hstw, by rw [hfab]; rfl, hports, hdone⟩]
    rfl
  · rw [directKeeper_false, if_pos h]
  · rw [directKeeper_false, if_neg (by simp [h])]
  · have hnot : ¬(isSet s DEV_START_steward_ready = true ∧ (!isSet s DEV_START_fabric_ready) = true ∧ s.pac.ports ≠ 0 ∧
        portsDone s = true) := by
      rintro ⟨hstw, -, hports, hdone⟩
      simp [hstw, hports, hdone] at h
    rw [exec, execFabricReady, Machine.fabricReady, if_neg hnot, whileRunning, ite_self]

end Sys2Proof
end

section
/-! Host writes to BAR0 and BAR4 and the common page controls (04_registers_host, 05_commands). -/

namespace Sys2Proof.Machine

section
variable {s : State}

/-! ### Accesses -/

theorem badAccess_4 {off : Nat} (h : off % 4 = 0) (write : Bool) : badAccess off 4 write = false := by
  simp [badAccess, h]

theorem badAccess_8 {off : Nat} (h : off % 8 = 0) (write : Bool) : badAccess off 8 write = false := by
  simp [badAccess, h]

theorem unmapped_of_page {off : Nat} (hpage : isPage (off / 0x1000) = true) (hfail : isSet s DEV_START_boot_failed = false) :
    unmapped s off = false := by simp [unmapped, hpage, hfail]

theorem unmapped_of_no_page {off : Nat} (hpage : isPage (off / 0x1000) = false) (s : State) : unmapped s off = true := by
  simp [unmapped, hpage]

/-- Where a page answers and no boot has failed, the Steward is ready and no wider reset lasts. -/
theorem ready_of_regsOpen {page : Nat} (h : regsOpen s page = true) (hfail : isSet s DEV_START_boot_failed = false) :
    isSet s DEV_START_steward_ready = true := by
  simp only [regsOpen, hfail, Bool.false_and, Bool.or_false, Bool.and_eq_true] at h
  exact h.1.1.2

theorem not_widerReset_of_regsOpen {page : Nat} (h : regsOpen s page = true) : widerReset s = false := by
  simp only [regsOpen, Bool.and_eq_true, Bool.not_eq_true'] at h
  exact h.1.2

theorem bar0Early_of_open {page : Nat} (h : regsOpen s page = true) (hfail : isSet s DEV_START_boot_failed = false) (t : State) :
    bar0Early s t = t := if_neg (by simp [ready_of_regsOpen h hfail])

/-- Before the Steward is ready every access over a trained link receives Unsupported Request. -/
theorem bar0Early_of_early (hlife : s.life = .running) (hlink : s.host.linkUp = true) (hperst : s.pins.perstN = true)
    (hstw : isSet s DEV_START_steward_ready = false) (hfail : isSet s DEV_START_boot_failed = false) (t : State) :
    bar0Early s t = { s with out := s.out ++ [.pcie .unsupportedRequest] } := by
  rw [bar0Early, if_pos (by simp [hlife, hlink, hperst, hstw, hfail]), emit]

theorem bar0Write_of_page {off size v : Nat} {x : BusSur} (hbad : badAccess off size true = false)
    (hpage : isPage (off / 0x1000) = true) (hopen : regsOpen s (off / 0x1000) = true)
    (hfail : isSet s DEV_START_boot_failed = false) : bar0Write s off size v x = busWriteN s off size v x := by
  rw [bar0Write, bar0Early_of_open hopen hfail, hbad, if_neg (by decide), unmapped_of_page hpage hfail, if_neg (by decide),
    onPage_of hopen]

theorem execRegisterWrite_bar0 (off size : Nat) (v : Dword) (x : BusSur) :
    exec (.registerWrite 0 off size v x) s = .next (bar0Write s off size v.toNat x) := rfl

theorem execRegisterWrite_bar4 (off size : Nat) (v : Dword) (x : BusSur) :
    exec (.registerWrite 4 off size v x) s = .next (bar0Early s (onPage s pgHIF (bar4Write s off size v.toNat))) := rfl

/-- Settles O21, access by access. -/
theorem registerAccess : Obligations.RegisterAccess := by
  refine ⟨fun s off v x h4 hpage hopen hfail => ⟨?_, fun h8 => ?_⟩,
    fun s bar off size v x hbar hlife hlink hperst hstw hfail => ⟨?_, ?_, ?_⟩, fun s off v x h4 hlt hopen hfail => ?_,
    fun s off size write hopen hfail hbad => ?_, fun s off v hopen hfail hpage => ?_,
    fun s off v x hopen hfail h8 hpage => ?_⟩
  · rw [execRegisterWrite_bar0, bar0Write_of_page (badAccess_4 h4 true) hpage hopen hfail]
    rfl
  · rw [execRegisterWrite_bar0, bar0Write_of_page (badAccess_8 h8 true) hpage hopen hfail]
    rfl
  · obtain rfl | rfl := hbar
    · rw [execRegisterWrite_bar0, bar0Write, bar0Early_of_early hlife hlink hperst hstw hfail]
    · rw [execRegisterWrite_bar4, bar0Early_of_early hlife hlink hperst hstw hfail]
  · rw [exec, execBar0BadAccess, bar0Early_of_early hlife hlink hperst hstw hfail]
  · rw [exec, execBar0UnmappedWrite, bar0Early_of_early hlife hlink hperst hstw hfail]
  · have hin : ¬(badAccess off 4 true = true ∨ 0x800 < off + 4) := by
      rw [badAccess_4 h4]
      simp only [Bool.false_eq_true, false_or]
      omega
    rw [execRegisterWrite_bar4, bar0Early_of_open hopen hfail, onPage_of hopen, bar4Write, if_neg hin]
    rfl
  · rw [exec, execBar0BadAccess, bar0Early_of_open hopen hfail, onPage_of hopen, bar0BadAccess, if_pos hbad]
    rfl
  · rw [exec, execBar0UnmappedWrite, bar0Early_of_open hopen hfail, onPage_of hopen, bar0UnmappedWrite,
      if_pos (unmapped_of_no_page hpage s)]
    rfl
  · rw [execRegisterWrite_bar0, bar0Write, bar0Early_of_open hopen hfail, badAccess_8 h8, if_neg (by decide),
      unmapped_of_no_page hpage, if_pos rfl, onPage_of hopen, if_pos rfl]

/-! ### BLK_CTRL -/

theorem toNat_ctrlWord (u : BitVec 16) (soft enable : Bool) :
    (ctrlWord u soft enable).toNat = u.toNat * 65536 + 2 * b2n soft + b2n enable := by
  have hu := u.isLt
  have hs : b2n soft < 2 := by cases soft <;> decide
  have he : b2n enable < 2 := by cases enable <;> decide
  rw [ctrlWord, BitVec.toNat_ofNat]
  omega

theorem unlock_ctrlWord (u : BitVec 16) (soft enable : Bool) : (ctrlWord u soft enable).extractLsb' 16 16 = u := by
  have hu := u.isLt
  have hs : b2n soft < 2 := by cases soft <;> decide
  have he : b2n enable < 2 := by cases enable <;> decide
  apply BitVec.eq_of_toNat_eq
  rw [BitVec.extractLsb'_toNat, toNat_ctrlWord, Nat.shiftRight_eq_div_pow]
  omega

theorem bitOf_ctrlWord_enable (u : BitVec 16) (soft enable : Bool) : bitOf (ctrlWord u soft enable).toNat 0 = enable := by
  rw [toNat_ctrlWord, bitOf, Nat.shiftRight_zero]
  have : (u.toNat * 65536 + 2 * b2n soft + b2n enable) % 2 = b2n enable % 2 := by omega
  rw [this]
  cases enable <;> rfl

theorem bitOf_ctrlWord_soft (u : BitVec 16) (soft enable : Bool) : bitOf (ctrlWord u soft enable).toNat 1 = soft := by
  have he : b2n enable < 2 := by cases enable <;> decide
  rw [toNat_ctrlWord, bitOf, Nat.shiftRight_eq_div_pow]
  have : (u.toNat * 65536 + 2 * b2n soft + b2n enable) / 2 ^ 1 % 2 = b2n soft % 2 := by omega
  rw [this]
  cases soft <;> rfl

theorem writeBlkCtrl_ctrlWord (page : Nat) (u : BitVec 16) (soft enable : Bool) :
    writeBlkCtrl s page (ctrlWord u soft enable) =
      let t := writeUnlock s page u
      let t := if enable then enablePage t page else if isSet t (BLK_CTRL_enable page) then disablePage t page else t
      if soft then softReset t page else t := by
  rw [writeBlkCtrl, unlock_ctrlWord, bitOf_ctrlWord_enable, bitOf_ctrlWord_soft]

theorem writeUnlock_other (page : Nat) : writeUnlock s page 0xFFFF = s := by
  rw [writeUnlock, if_neg (by decide), if_neg (by decide)]

/-- A block's state stands while its BLK_CTRL is written. -/
theorem blkState_setF_enable (page v : Nat) : blkState (setF s (BLK_CTRL_enable page) v) page = blkState s page :=
  getF_setF_ne s v (show page * 0x1000 + 0xC ≠ page * 0x1000 + 0x8 by omega)

theorem onBlock_of {page : Nat} (hpage : isPage page = true) (hopen : regsOpen s page = true) (t : State) :
    onInstance (isPage page) (onPage s page t) = .next t := by
  rw [onPage_of hopen, onInstance_of hpage]

theorem enablePage_of_unit {page : Nat} (hq : queueOf page = none) (h : blkState s page = 0 ∨ blkState s page = 3) :
    enablePage s page = setBlk (setF s (BLK_CTRL_enable page) 1) page 2 := by
  rw [enablePage, hq]
  exact if_pos (by rwa [blkState_setF_enable])

theorem enablePage_of_queue {q : Nat} (hq : q < 64) (s : State) : enablePage s (pgCmdQ q) = enableQueue s q := by
  have hpage : queueOf (pgCmdQ q) = some q := by
    rw [queueOf, if_pos (by unfold pgCmdQ; omega), pgCmdQ, Nat.add_sub_cancel_left]
  rw [enablePage, hpage]

theorem disablePage_of_serving {page : Nat} (h : blkState s page = 1 ∨ blkState s page = 2) :
    disablePage s page = setBlk (setF s (BLK_CTRL_enable page) 0) page 3 := by
  rw [disablePage]
  exact if_neg (by rw [blkState_setF_enable]; omega)

/-- Settles O22: BLK_CTRL's word taken apart by `writeBlkCtrl_ctrlWord`, and each of its effects. -/
theorem blockControls : Obligations.BlockControls := by
  refine ⟨fun s page u hpage hopen => ?_, fun s page hq h _ => enablePage_of_unit hq h, fun s q hq h0 hen => ?_,
    fun s q hq h3 => ?_, fun s page hpage hopen _ hen h => ⟨_, ?_, rfl⟩, fun s page hpage hlife h3 hbusy => ?_,
    fun s page hpage hopen _ hen => ⟨?_, ?_⟩, fun s page hpage hopen => ⟨?_, ?_⟩⟩
  · rw [exec, execBlockEnable, onBlock_of hpage hopen, writeBlkCtrl_ctrlWord]
    rfl
  · rw [enablePage_of_queue hq, enableQueue]
    dsimp only
    rw [h0, if_neg (by decide), if_neg (by simp [hen])]
  · rw [enablePage_of_queue hq, enableQueue]
    exact if_pos h3
  · rw [exec, execBlockDisable, onBlock_of hpage hopen, writeBlkCtrl_ctrlWord, writeUnlock_other]
    dsimp only
    rw [if_neg (by decide), if_pos hen, if_neg (by decide), disablePage_of_serving h]
  · rw [exec, execBlockDrained, whileRunning_of hlife, onInstance_of hpage, blockDrained, if_pos ⟨h3, by rw [hbusy]; rfl⟩]
  · rw [exec, execBlockSoftReset, onBlock_of hpage hopen, writeBlkCtrl_ctrlWord, writeUnlock_other]
    dsimp only
    simp only [hen, Bool.false_eq_true, if_false, if_true]
  · rw [softReset, not_widerReset_of_regsOpen hopen, if_neg (by decide)]
  · rw [exec, execExpertUnlock, onBlock_of hpage hopen]
  · rw [exec, execExpertLock, onBlock_of hpage hopen]

end

end Sys2Proof.Machine
end

section
/-! Event bits and event rings (04_registers_host). -/

namespace Sys2Proof.Machine

section
variable {s t : State} {n : Nat}

/-! ### A ring's configuration -/

/-- The size code taken, or the refusal counted (R89). -/
def cfgSized (s : State) (n : Nat) (v : Word) : State :=
  if decide (9 ≤ bitsOf v.toNat 1 4) || (ringOn s n && bitsOf v.toNat 1 4 != getF s (EVQ_CFG_size_code n))
  then satF s (EVQ_STAT_cfg_denied n) 1 else setF s (EVQ_CFG_size_code n) (bitsOf v.toNat 1 4)

/-- EVQ_CFG's other fields. -/
def cfgFields (s : State) (n : Nat) (v : Word) : State :=
  setF (setF (setF (setF s (EVQ_CFG_vector n) (bitsOf v.toNat 12 7)) (EVQ_CFG_irq_en n) (bitsOf v.toNat 19 1))
    (EVQ_CFG_sev_mask n) (bitsOf v.toNat 20 8)) (EVQ_CFG_enable n) (b2n (bitOf v.toNat 0))

/-- The indices of a ring enabled anew. -/
def ringZeroed (s : State) (n : Nat) : State :=
  setF (setF (setF s (EVQ_HEAD_head n) 0) (EVQ_TAIL_tail n) 0) (EVQ_STAT_full n) 0

theorem writeEvqCfg_eq (s : State) (n : Nat) (v : Word) : writeEvqCfg s n v =
    if bitOf v.toNat 0 && !ringOn s n then flushHold (setRingSt (ringZeroed (cfgFields (cfgSized s n v) n v) n) n {}) n
    else cfgFields (cfgSized s n v) n v := rfl

theorem cfgSized_onlyRegs (s : State) (n : Nat) (v : Word) : OnlyRegs s (cfgSized s n v) :=
  .ite ((OnlyRegs.refl s).satF _ _) ((OnlyRegs.refl s).setF _ _)

theorem cfgFields_onlyRegs (s : State) (n : Nat) (v : Word) : OnlyRegs s (cfgFields s n v) :=
  ((((OnlyRegs.refl s).setF _ _).setF _ _).setF _ _).setF _ _

theorem ringZeroed_onlyRegs (s : State) (n : Nat) : OnlyRegs s (ringZeroed s n) :=
  (((OnlyRegs.refl s).setF _ _).setF _ _).setF _ _

theorem cfgSized_regsWf (hs : s.regsWf = true) (n : Nat) (v : Word) : (cfgSized s n v).regsWf = true :=
  ((Keeps.refl s).satF.ite (Keeps.refl s).setF).regs hs

theorem cfgFields_regsWf (hs : s.regsWf = true) (n : Nat) (v : Word) : (cfgFields s n v).regsWf = true :=
  (Keeps.refl s).setF.setF.setF.setF.regs hs

/-- Registers of a ring at different offsets differ. -/
theorem ring_addr_ne {b c n : Nat} (h : b ≠ c) : b + 0x40 * n ≠ c + 0x40 * n := by omega

theorem getF_cfgFields_ne {f : Fld} (h : f.addr ≠ 0x8108 + 0x40 * n) (v : Word) : getF (cfgFields s n v) f = getF s f := by
  unfold cfgFields
  rw [getF_setF_ne _ _ (f := EVQ_CFG_enable n) h, getF_setF_ne _ _ (f := EVQ_CFG_sev_mask n) h,
    getF_setF_ne _ _ (f := EVQ_CFG_irq_en n) h, getF_setF_ne _ _ (f := EVQ_CFG_vector n) h]

/-- The size code stands while the other fields are written. -/
theorem getF_cfgFields_size (hs : s.regsWf = true) (v : Word) :
    getF (cfgFields s n v) (EVQ_CFG_size_code n) = getF s (EVQ_CFG_size_code n) := by
  have h1 := setF_regsWf hs (EVQ_CFG_vector n) (bitsOf v.toNat 12 7)
  have h2 := setF_regsWf h1 (EVQ_CFG_irq_en n) (bitsOf v.toNat 19 1)
  have h3 := setF_regsWf h2 (EVQ_CFG_sev_mask n) (bitsOf v.toNat 20 8)
  unfold cfgFields
  have inside : ∀ {a b : Nat}, Nat.ble a b = true → a ≤ b := fun h => Nat.le_of_ble_eq_true h
  rw [getF_setF_apart (f := EVQ_CFG_enable n) (g := EVQ_CFG_size_code n) h3 _ (inside rfl) rfl (.inr (inside rfl)),
    getF_setF_apart (f := EVQ_CFG_sev_mask n) (g := EVQ_CFG_size_code n) h2 _ (inside rfl) rfl (.inl (inside rfl)),
    getF_setF_apart (f := EVQ_CFG_irq_en n) (g := EVQ_CFG_size_code n) h1 _ (inside rfl) rfl (.inl (inside rfl)),
    getF_setF_apart (f := EVQ_CFG_vector n) (g := EVQ_CFG_size_code n) hs _ (inside rfl) rfl (.inl (inside rfl))]

theorem ringOn_cfgFields (hs : s.regsWf = true) (v : Word) : ringOn (cfgFields s n v) n = bitOf v.toNat 0 := by
  have h3 := setF_regsWf (setF_regsWf (setF_regsWf hs (EVQ_CFG_vector n) (bitsOf v.toNat 12 7)) (EVQ_CFG_irq_en n)
    (bitsOf v.toNat 19 1)) (EVQ_CFG_sev_mask n) (bitsOf v.toNat 20 8)
  rw [ringOn, cfgFields, isSet_setF_same h3 _ (show 0 + 1 ≤ 32 by decide)]
  cases bitOf v.toNat 0 <;> rfl

theorem getF_cfgSized_ne {f : Fld} (h1 : f.addr ≠ 0x8108 + 0x40 * n) (h2 : f.addr ≠ 0x8118 + 0x40 * n) (v : Word) :
    getF (cfgSized s n v) f = getF s f := by
  unfold cfgSized
  split
  · exact getF_satF_ne _ _ h2
  · exact getF_setF_ne _ _ h1

/-- A ring that is off takes a size code below 9. -/
theorem getF_cfgSized_size (hs : s.regsWf = true) (hoff : ringOn s n = false) (v : Word) :
    getF (cfgSized s n v) (EVQ_CFG_size_code n) =
      if 9 ≤ bitsOf v.toNat 1 4 then getF s (EVQ_CFG_size_code n) else bitsOf v.toNat 1 4 := by
  unfold cfgSized
  rw [hoff, Bool.false_and, Bool.or_false]
  by_cases h : 9 ≤ bitsOf v.toNat 1 4
  · rw [if_pos (decide_eq_true h), if_pos h]
    exact getF_satF_ne _ _ (ring_addr_ne (by decide))
  · rw [if_neg (by simp [h]), if_neg h, getF_setF_same hs _ (show 1 + 4 ≤ 32 by decide)]
    exact Nat.mod_eq_of_lt (show _ < 16 by omega)

theorem getF_ringZeroed_ne {f : Fld} (h1 : f.addr ≠ 0x8110 + 0x40 * n) (h2 : f.addr ≠ 0x8114 + 0x40 * n)
    (h3 : f.addr ≠ 0x8118 + 0x40 * n) : getF (ringZeroed s n) f = getF s f := by
  unfold ringZeroed
  rw [getF_setF_ne _ _ (f := EVQ_STAT_full n) h3, getF_setF_ne _ _ (f := EVQ_TAIL_tail n) h2,
    getF_setF_ne _ _ (f := EVQ_HEAD_head n) h1]

theorem getF_ringZeroed_head (hs : s.regsWf = true) : getF (ringZeroed s n) (EVQ_HEAD_head n) = 0 := by
  unfold ringZeroed
  rw [getF_setF_ne _ _ (f := EVQ_STAT_full n) (ring_addr_ne (by decide)),
    getF_setF_ne _ _ (f := EVQ_TAIL_tail n) (ring_addr_ne (by decide)), getF_setF_same hs _ (show 0 + 32 ≤ 32 by decide)]
  rfl

theorem getF_ringZeroed_tail (hs : s.regsWf = true) : getF (ringZeroed s n) (EVQ_TAIL_tail n) = 0 := by
  unfold ringZeroed
  rw [getF_setF_ne _ _ (f := EVQ_STAT_full n) (ring_addr_ne (by decide)),
    getF_setF_same (setF_regsWf hs _ _) _ (show 0 + 32 ≤ 32 by decide)]
  rfl

theorem bitOf_or_one (v : Word) : bitOf (v ||| 1).toNat 0 = true := by
  simp [bitOf_eq_testBit, BitVec.toNat_or]

theorem bitsOf_or_one (v : Word) : bitsOf (v ||| 1).toNat 1 4 = bitsOf v.toNat 1 4 := by
  simp [bitsOf, BitVec.toNat_or, Nat.shiftRight_or_distrib]

theorem bitOf_and_even (v : Word) : bitOf (v &&& 0xFFFFFFFE).toNat 0 = false := by
  simp [bitOf_eq_testBit, BitVec.toNat_and]

theorem onRing_of (hn : n < 16) (hopen : regsOpen s pgEVQ = true) (t : State) :
    onInstance (decide (n < 16)) (onPage s pgEVQ t) = .next t := by
  rw [onPage_of hopen, onInstance_of (decide_eq_true hn)]

/-! ### The holding log -/

/-- The holding log of t is that of s. -/
def SameLog (s t : State) : Prop := t.ev.hold = s.ev.hold ∧ t.ev.lost = s.ev.lost

theorem SameLog.of_ev (h : t.ev = s.ev) : SameLog s t := by rw [SameLog, h]; exact ⟨rfl, rfl⟩

theorem SameLog.trans {r : State} (h : SameLog r s) (h' : SameLog s t) : SameLog r t :=
  ⟨h'.1.trans h.1, h'.2.trans h.2⟩

theorem setRingSt_log (s : State) (n : Nat) (r : RingSt) : SameLog s (setRingSt s n r) := ⟨rfl, rfl⟩

theorem ringSignal_log (s : State) (n : Nat) : SameLog s (ringSignal s n) := by
  unfold ringSignal
  dsimp only
  split
  · exact (setRingSt_log s n _).trans (.of_ev (sendMsix_ev ..))
  · exact .of_ev rfl

theorem ringWrite_log (s : State) (n : Nat) (r : EventRec) : SameLog s (ringWrite s n r) := by
  unfold ringWrite
  dsimp only
  refine SameLog.trans ?_ ((setRingSt_log _ n _).trans (ringSignal_log _ n))
  exact .of_ev (by rw [setF_ev, setF_ev, emit_ev, emit_ev])

theorem ringMarker_log (s : State) (n : Nat) (e : Ev) (l : List Nat) : SameLog s (ringMarker s n e l) := by
  unfold ringMarker
  dsimp only
  refine SameLog.trans ?_ (ringWrite_log _ n _)
  exact .of_ev (by rw [takeSeq_ev, markEvent_ev])

theorem ringDrop_log (s : State) (n : Nat) (r : EventRec) : SameLog s (ringDrop s n r) := by
  unfold ringDrop
  dsimp only
  exact (setRingSt_log s n _).trans (.of_ev (satF_ev ..))

/-- Giving a record to a ring leaves the holding log. -/
theorem ringPut_log (s : State) (n : Nat) (r : EventRec) : SameLog s (ringPut s n r) := by
  unfold ringPut
  dsimp only
  split
  · exact ringDrop_log ..
  · split
    · exact (ringDrop_log ..).trans (ringMarker_log ..)
    · exact ringWrite_log ..

theorem foldl_ringPut_log (l : List EventRec) (s : State) (n : Nat) :
    SameLog s (l.foldl (fun s r => ringPut s n r) s) := by
  induction l generalizing s with
  | nil => exact .of_ev rfl
  | cons r l ih => exact (ringPut_log s n r).trans (ih (ringPut s n r))

/-- A flush leaves the holding log empty. -/
theorem flushHold_log (s : State) (n : Nat) : (flushHold s n).ev.hold = [] ∧ (flushHold s n).ev.lost = 0 :=
  foldl_ringPut_log _ _ n

/-! ### The rows -/

theorem setRingSt_eq_with (h : OnlyRegs s t) (r : RingSt) : setRingSt t n r = { s with
    regs := (setRingSt t n r).regs, ev := { s.ev with rings := tset (fun _ => {}) s.ev.rings n r } } := by
  rw [h.eq_with]
  rfl

/-- The ring configured and its indices and hidden state zeroed. -/
def enabledRing (s : State) (n : Nat) (cfg : Word) : State :=
  ringZeroed (cfgFields (cfgSized s n (cfg ||| 1)) n (cfg ||| 1)) n

theorem enabledRing_onlyRegs (s : State) (n : Nat) (cfg : Word) : OnlyRegs s (enabledRing s n cfg) :=
  (cfgSized_onlyRegs s n _).trans ((cfgFields_onlyRegs _ n _).trans (ringZeroed_onlyRegs _ n))

theorem enabledRing_fields (hs : s.regsWf = true) (hoff : ringOn s n = false) (cfg : Word) :
    ringOn (enabledRing s n cfg) n = true ∧ getF (enabledRing s n cfg) (EVQ_HEAD_head n) = 0 ∧
    getF (enabledRing s n cfg) (EVQ_TAIL_tail n) = 0 ∧ getF (enabledRing s n cfg) (EVQ_CFG_size_code n) =
      if 9 ≤ bitsOf cfg.toNat 1 4 then getF s (EVQ_CFG_size_code n) else bitsOf cfg.toNat 1 4 := by
  have hsized := cfgSized_regsWf hs n (cfg ||| 1)
  have hwf := cfgFields_regsWf hsized n (cfg ||| 1)
  have hcfg : ∀ f : Fld, f.addr = 0x8108 + 0x40 * n → ∀ t, getF (ringZeroed t n) f = getF t f := fun f hf t =>
    getF_ringZeroed_ne (by omega) (by omega) (by omega)
  refine ⟨?_, getF_ringZeroed_head hwf, getF_ringZeroed_tail hwf, ?_⟩
  · rw [ringOn, isSet, enabledRing, hcfg _ rfl, ← isSet, ← ringOn, ringOn_cfgFields hsized, bitOf_or_one]
  · rw [enabledRing, hcfg _ rfl, getF_cfgFields_size hsized, getF_cfgSized_size hs hoff, bitsOf_or_one]

theorem getF_setRingSt (s : State) (n : Nat) (r : RingSt) (f : Fld) : getF (setRingSt s n r) f = getF s f := rfl

theorem ringOn_setRingSt (s : State) (n m : Nat) (r : RingSt) : ringOn (setRingSt s n r) m = ringOn s m := rfl

theorem writeEvqCfg_enable (hoff : ringOn s n = false) (cfg : Word) :
    writeEvqCfg s n (cfg ||| 1) = flushHold (setRingSt (enabledRing s n cfg) n {}) n := by
  rw [writeEvqCfg_eq, bitOf_or_one, hoff, if_pos (by decide), enabledRing]

/-- The ring's configuration stored with its enable bit 0. -/
def disabledRing (s : State) (n : Nat) (cfg : Word) : State :=
  cfgFields (cfgSized s n (cfg &&& 0xFFFFFFFE)) n (cfg &&& 0xFFFFFFFE)

theorem writeEvqCfg_disable (s : State) (n : Nat) (cfg : Word) :
    writeEvqCfg s n (cfg &&& 0xFFFFFFFE) = disabledRing s n cfg := by
  rw [writeEvqCfg_eq, bitOf_and_even, Bool.false_and, if_neg (by decide), disabledRing]

theorem disabledRing_onlyRegs (s : State) (n : Nat) (cfg : Word) : OnlyRegs s (disabledRing s n cfg) :=
  (cfgSized_onlyRegs s n _).trans (cfgFields_onlyRegs _ n _)

theorem getF_disabledRing_ne {f : Fld} (h1 : f.addr ≠ 0x8108 + 0x40 * n) (h2 : f.addr ≠ 0x8118 + 0x40 * n) (cfg : Word) :
    getF (disabledRing s n cfg) f = getF s f := by
  rw [disabledRing, getF_cfgFields_ne h1, getF_cfgSized_ne h1 h2]

theorem ringOn_disabledRing (hs : s.regsWf = true) (cfg : Word) : ringOn (disabledRing s n cfg) n = false := by
  rw [disabledRing, ringOn_cfgFields (cfgSized_regsWf hs n _), bitOf_and_even]

theorem eventInject_eq (s : State) (page : Nat) (bits : Word) : eventInject s page bits =
    ((List.range 32).filter (fun b => bitOf bits.toNat b)).foldl (fun s b => injectBit s page b) s := by
  rw [eventInject, List.foldl_filter]

theorem exec_eventInject {page : Nat} (hpage : isPage page = true) (hopen : regsOpen s page = true) (bits : Word) :
    exec (.eventInject page bits) s =
      .next (((List.range 32).filter (fun b => bitOf bits.toNat b)).foldl (fun s b => injectBit s page b) s) := by
  rw [← eventInject_eq]
  exact onBlock_of hpage hopen _

/-- What enabling answers, of a state that has the ring's fields: its hidden state begins afresh. -/
theorem enabled_of_fields {o : Host.Outcome State Fault Refusal} {c : Nat} (hrun : o = .next (flushHold (setRingSt t n {}) n))
    (hframe : OnlyRegs s t) (hon : ringOn t n = true ∧ getF t (EVQ_HEAD_head n) = 0 ∧ getF t (EVQ_TAIL_tail n) = 0 ∧
      getF t (EVQ_CFG_size_code n) = c) : ∃ s1, o = .next (flushHold s1 n) ∧ s1 = { s with
        regs := s1.regs, ev := { s.ev with rings := tset (fun _ => {}) s.ev.rings n {} } } ∧ ringOn s1 n = true ∧
      getF s1 (EVQ_HEAD_head n) = 0 ∧ getF s1 (EVQ_TAIL_tail n) = 0 ∧ getF s1 (EVQ_CFG_size_code n) = c :=
  ⟨setRingSt t n {}, hrun, setRingSt_eq_with hframe {}, hon⟩

theorem exec_eventRingEnable (hn : n < 16) (hopen : regsOpen s pgEVQ = true) (hoff : ringOn s n = false) (cfg : Word) :
    exec (.eventRingEnable n cfg) s = .next (flushHold (setRingSt (enabledRing s n cfg) n {}) n) :=
  (onRing_of hn hopen _).trans (congrArg Host.Outcome.next (writeEvqCfg_enable hoff cfg))

/-- Settles O24: EVQ_CFG's write cut into its steps, and the other rows' equations. -/
theorem eventRows : Obligations.EventRows := by
  refine ⟨fun s page bits occ hpage hopen => ?_, fun s page bits hpage hopen => ?_, fun s n cfg hn hopen hs hoff => ?_,
    flushHold_log, fun s n cfg hn hopen hs => ⟨disabledRing s n cfg, ?_, (disabledRing_onlyRegs s n cfg).eq_with,
      ringOn_disabledRing hs cfg, ?_, ?_⟩, fun s n v hn hopen => ?_, fun s n hn hlife => ?_, fun s v hmask => ?_⟩
  · rw [exec, execEventClear, onBlock_of hpage hopen]
    rfl
  · exact exec_eventInject hpage hopen bits
  · exact enabled_of_fields (exec_eventRingEnable hn hopen hoff cfg) (enabledRing_onlyRegs s n cfg)
      (enabledRing_fields hs hoff cfg)
  · exact (onRing_of hn hopen _).trans (congrArg Host.Outcome.next (writeEvqCfg_disable s n cfg))
  · exact getF_disabledRing_ne (ring_addr_ne (by decide)) (ring_addr_ne (by decide)) cfg
  · exact getF_disabledRing_ne (ring_addr_ne (by decide)) (ring_addr_ne (by decide)) cfg
  · rw [exec, execEvqHeadWrite, onRing_of hn hopen]
    rfl
  · rw [exec, execEvqHoldoffExpiry, whileRunning_of hlife, onInstance_of (decide_eq_true hn), holdoffExpiry]
    simp only [Bool.and_eq_true, decide_eq_true_eq, and_assoc]
  · rw [sendMsix, hmask, if_neg (by decide), emit]

end

end Sys2Proof.Machine
end

section
/-! The code of 10_cabouz: canonical codewords, coded planes and level-one blocks (R237 to R245). -/

namespace Sys2Proof.Machine

section Codewords
/-! ### Canonical codewords do not overlap -/

variable {t : Table Nat} {a b : Nat}

/-- The canonical order of the symbols: by length, then by number (R242). -/
def Before (t : Table Nat) (a b : Nat) : Prop := codeLen t a < codeLen t b ∨ codeLen t a = codeLen t b ∧ a < b

/-- The number of twelve-bit windows a symbol's codeword begins. -/
def codeShare (t : Table Nat) (k : Nat) : Nat := if codeLen t k = 0 then 0 else 2 ^ (12 - codeLen t k)

theorem sum_map_range (f : Nat → Nat) (n : Nat) : ((List.range n).map f).sum = ∑ k ∈ Finset.range n, f k := rfl

open Classical in
/-- A codeword, filled up to twelve bits, counts the windows of the symbols before it. -/
theorem codeWord_mul (ha : codeLen t a ≤ 12) :
    codeWord t a * 2 ^ (12 - codeLen t a) = ∑ k ∈ Finset.range 256, if Before t k a then codeShare t k else 0 := by
  rw [codeWord, ← List.sum_eq_foldl, ← List.sum_map_mul_right, sum_map_range]
  refine Finset.sum_congr rfl fun k _ => ?_
  unfold codeShare Before
  by_cases h0 : codeLen t k = 0
  · simp [h0]
  by_cases hlt : codeLen t k < codeLen t a
  · simp only [h0, hlt, if_true, if_false, true_or, ← pow_add]
    congr 1
    omega
  · by_cases heq : codeLen t k = codeLen t a ∧ k < a
    · simp [heq]
    · simp [hlt, heq]

open Classical in
/-- The windows of a symbol lie before those of a later one. -/
theorem codeWord_before (ha : codeLen t a ≤ 12) (hb : codeLen t b ≤ 12) (ha0 : codeLen t a ≠ 0) (hlt : a < 256)
    (hab : Before t a b) :
    codeWord t a * 2 ^ (12 - codeLen t a) + 2 ^ (12 - codeLen t a) ≤ codeWord t b * 2 ^ (12 - codeLen t b) := by
  have hshare : 2 ^ (12 - codeLen t a) = ∑ k ∈ Finset.range 256, if k = a then codeShare t k else 0 := by
    rw [Finset.sum_ite_eq' , if_pos (Finset.mem_range.mpr hlt), codeShare, if_neg ha0]
  rw [codeWord_mul ha, codeWord_mul hb, hshare, ← Finset.sum_add_distrib]
  refine Finset.sum_le_sum fun k _ => ?_
  have htrans : Before t k a → Before t k b := by unfold Before at hab ⊢; omega
  have hirr : ¬ Before t a a := by unfold Before; omega
  by_cases hka : k = a
  · subst hka
    simp [hirr, hab]
  · by_cases hk : Before t k a
    · simp [hka, hk, htrans hk]
    · simp [hka, hk]

theorem sum_filter_nonzero (g : Nat → Nat) (ls : List Nat) :
    ((ls.filter (· != 0)).map g).sum = (ls.map (fun l => if l = 0 then 0 else g l)).sum := by
  induction ls with
  | nil => rfl
  | cons l ls ih => by_cases h : l = 0 <;> simp [h, ih]

/-- A valid table's lengths are at most 12, and the windows of its codewords are the 4,096 twelve-bit ones. -/
theorem tableFault_none (ht : tableFault t = none) :
    (∀ k < 256, codeLen t k ≤ 12) ∧ ∑ k ∈ Finset.range 256, codeShare t k = 4096 := by
  unfold tableFault at ht
  dsimp only at ht
  split at ht
  · cases ht
  next hlong =>
  split at ht
  · cases ht
  split at ht
  · cases ht
  next hsum =>
  constructor
  · intro k hk
    by_contra h
    exact hlong (List.any_eq_true.mpr ⟨_, List.mem_map_of_mem (List.mem_range.mpr hk), decide_eq_true (by omega)⟩)
  · have hsum := not_not.mp hsum
    rwa [← List.sum_eq_foldl, sum_filter_nonzero, List.map_map, sum_map_range] at hsum

theorem codeLen_le (ht : tableFault t = none) {k : Nat} (hk : k < 256) : codeLen t k ≤ 12 := (tableFault_none ht).1 k hk

open Classical in
/-- A codeword fits its length. -/
theorem codeWord_lt (ht : tableFault t = none) (hlt : a < 256) (ha0 : codeLen t a ≠ 0) : codeWord t a < 2 ^ codeLen t a := by
  have ha := codeLen_le ht hlt
  have hall : codeWord t a * 2 ^ (12 - codeLen t a) + codeShare t a ≤ 4096 := by
    rw [codeWord_mul ha, ← (tableFault_none ht).2, ← Finset.sum_filter]
    rw [← Finset.sum_singleton (codeShare t) a, ← Finset.sum_union]
    · refine Finset.sum_le_sum_of_subset ?_
      intro k hk
      simp only [Finset.mem_union, Finset.mem_filter, Finset.mem_singleton] at hk
      rcases hk with hk | rfl
      · exact hk.1
      · exact Finset.mem_range.mpr hlt
    · rw [Finset.disjoint_singleton_right, Finset.mem_filter, Before]
      omega
  rw [codeShare, if_neg ha0] at hall
  have hpow : 2 ^ codeLen t a * 2 ^ (12 - codeLen t a) = 4096 := by
    rw [← pow_add, Nat.add_sub_cancel' ha]
    rfl
  have hpos : 0 < 2 ^ (12 - codeLen t a) := by positivity
  nlinarith

/-- A window begins with the codeword of one symbol only. -/
theorem codeWord_unique (ht : tableFault t = none) (hlta : a < 256) (hltb : b < 256) (ha0 : codeLen t a ≠ 0)
    (hb0 : codeLen t b ≠ 0) {w : Nat} (hwa : w / 2 ^ (12 - codeLen t a) = codeWord t a)
    (hwb : w / 2 ^ (12 - codeLen t b) = codeWord t b) : a = b := by
  have ha := codeLen_le ht hlta
  have hb := codeLen_le ht hltb
  have hab := fun h => codeWord_before ha hb ha0 hlta (h : Before t a b)
  have hba := fun h => codeWord_before hb ha hb0 hltb (h : Before t b a)
  rw [Nat.div_eq_iff (by positivity)] at hwa hwb
  unfold Before at hab hba
  have hposa : 0 < 2 ^ (12 - codeLen t a) := by positivity
  have hposb : 0 < 2 ^ (12 - codeLen t b) := by positivity
  omega

theorem mem_codeBook (c : Nat × Nat × Nat) :
    c ∈ codeBook t ↔ ∃ k, k < 256 ∧ codeLen t k ≠ 0 ∧ (k, codeLen t k, codeWord t k) = c := by
  simp only [codeBook, List.mem_map, List.mem_filter, List.mem_range, bne_iff_ne, ne_eq, and_assoc]

/-- The code book's entry of a window that begins with a symbol's codeword is that symbol's. -/
theorem codeBook_find (ht : tableFault t = none) (hlt : a < 256) (ha0 : codeLen t a ≠ 0) {w : Nat}
    (hw : w / 2 ^ (12 - codeLen t a) = codeWord t a) :
    (codeBook t).find? (fun c => w / 2 ^ (12 - c.2.1) == c.2.2) = some (a, codeLen t a, codeWord t a) := by
  have hmem : (a, codeLen t a, codeWord t a) ∈ codeBook t := (mem_codeBook _).mpr ⟨a, hlt, ha0, rfl⟩
  cases hfind : (codeBook t).find? (fun c => w / 2 ^ (12 - c.2.1) == c.2.2) with
  | none =>
    have hnone := List.find?_eq_none.mp hfind _ hmem
    simp only [beq_iff_eq] at hnone
    exact absurd hw hnone
  | some c =>
    have hc := List.find?_some hfind
    obtain ⟨k, hk, hk0, rfl⟩ := (mem_codeBook c).mp (List.mem_of_find?_eq_some hfind)
    simp only [beq_iff_eq] at hc
    rw [codeWord_unique ht hlt hk ha0 hk0 hw hc]

end Codewords
section Planes
/-! ### Bits and bytes of a plane -/

/-- The number of the first n bits, most significant first, zeros past the end. -/
def bitsVal : Nat → List Bool → Nat
  | 0, _ => 0
  | n + 1, bs => b2n ((bs[0]?).getD false) * 2 ^ n + bitsVal n bs.tail

theorem b2n_eq_toNat (b : Bool) : b2n b = b.toNat := by cases b <;> rfl

theorem sum_bits_eq_bitsVal (n : Nat) (bs : List Bool) :
    ((List.range (n + 1)).map (fun i => b2n ((bs[i]?).getD false) * 2 ^ (n - i))).foldl (· + ·) 0 = bitsVal (n + 1) bs := by
  rw [← List.sum_eq_foldl]
  induction n generalizing bs with
  | zero => simp [bitsVal]
  | succ n ih =>
    rw [bitsVal, ← ih bs.tail, List.range_succ_eq_map, List.map_cons, List.sum_cons, List.map_map]
    congr 2
    refine List.map_congr_left fun i _ => ?_
    simp only [Function.comp_apply, List.getElem?_tail, Nat.succ_eq_add_one, Nat.add_sub_add_right]

theorem windowOf_eq (bs : List Bool) : windowOf bs = bitsVal 12 bs := sum_bits_eq_bitsVal 11 bs

theorem bitsVal_lt (n : Nat) (bs : List Bool) : bitsVal n bs < 2 ^ n := by
  induction n generalizing bs with
  | zero => exact Nat.one_pos
  | succ n ih =>
    have htail := ih bs.tail
    rw [bitsVal, pow_succ]
    cases (bs[0]?).getD false
    · rw [b2n, if_neg (by decide)]; omega
    · rw [b2n, if_pos rfl]; omega

theorem wordBits_succ (l w : Nat) : wordBits (l + 1) w = bitOf w l :: wordBits l w := by
  rw [wordBits, wordBits, List.range_succ_eq_map, List.map_cons, List.map_map]
  congr 1
  refine List.map_congr_left fun i _ => ?_
  simp only [Function.comp_apply, Nat.succ_eq_add_one]
  congr 1
  omega

theorem wordBits_length (l w : Nat) : (wordBits l w).length = l := by rw [wordBits, List.length_map, List.length_range]

theorem mod_two_pow_succ (w l : Nat) : w % 2 ^ (l + 1) = b2n (bitOf w l) * 2 ^ l + w % 2 ^ l := by
  rw [bitOf_eq_testBit, b2n_eq_toNat, Nat.toNat_testBit, Nat.mod_pow_succ]
  ring

/-- The first bits of a codeword and what follows it. -/
theorem bitsVal_wordBits (l n w : Nat) (bs : List Bool) :
    bitsVal (l + n) (wordBits l w ++ bs) = w % 2 ^ l * 2 ^ n + bitsVal n bs := by
  induction l with
  | zero => simp [wordBits, Nat.mod_one]
  | succ l ih =>
    rw [Nat.add_right_comm, bitsVal, wordBits_succ, mod_two_pow_succ, List.cons_append, List.tail_cons, ih]
    simp only [List.getElem?_cons_zero, Option.getD_some, pow_add]
    ring

/-- A window that begins with a codeword shows it. -/
theorem windowOf_wordBits {l w : Nat} (hl : l ≤ 12) (hw : w < 2 ^ l) (bs : List Bool) :
    windowOf (wordBits l w ++ bs) / 2 ^ (12 - l) = w := by
  obtain ⟨n, hn⟩ := Nat.exists_eq_add_of_le hl
  rw [windowOf_eq, hn, bitsVal_wordBits, Nat.add_sub_cancel_left, Nat.mod_eq_of_lt hw,
    Nat.mul_comm, Nat.mul_add_div (by positivity), Nat.div_eq_of_lt (bitsVal_lt n bs), Nat.add_zero]

/-- The first n bits as they are, zeros past the end. -/
theorem wordBits_bitsVal (n : Nat) (bs : List Bool) :
    wordBits n (bitsVal n bs) = (List.range n).map (fun i => (bs[i]?).getD false) := by
  induction n generalizing bs with
  | zero => rfl
  | succ n ih =>
    have hlt := bitsVal_lt n bs.tail
    have hmod : ∀ b, wordBits n (b * 2 ^ n + bitsVal n bs.tail) = wordBits n (bitsVal n bs.tail) := by
      intro b
      refine List.map_congr_left fun i hi => ?_
      have hi := List.mem_range.mp hi
      rw [bitOf_eq_testBit, bitOf_eq_testBit, Nat.mul_comm, Nat.testBit_two_pow_mul_add _ hlt, if_pos (by omega)]
    rw [wordBits_succ, bitsVal, hmod, ih, List.range_succ_eq_map, List.map_cons, List.map_map]
    congr 1
    · rw [bitOf_eq_testBit, Nat.mul_comm, Nat.testBit_two_pow_mul_add _ hlt, if_neg (by omega), Nat.sub_self]
      cases (bs[0]?).getD false <;> rfl
    · refine List.map_congr_left fun i _ => ?_
      simp only [Function.comp_apply, List.getElem?_tail, Nat.succ_eq_add_one]

/-- Bits written as bytes read back in order, filled with zeros. -/
theorem bytesToBits_bitsToBytes (n : Nat) (bs : List Bool) :
    bytesToBits (bitsToBytes n bs) = (List.range (8 * n)).map (fun i => (bs[i]?).getD false) := by
  induction n generalizing bs with
  | zero => rfl
  | succ n ih =>
    have hbyte : (List.range 8).map (fun i => bitOf (BitVec.ofNat 8 (bitsVal 8 bs)).toNat (7 - i)) =
        (List.range 8).map (fun i => (bs[i]?).getD false) := by
      rw [BitVec.toNat_ofNat, Nat.mod_eq_of_lt (bitsVal_lt 8 bs)]
      exact wordBits_bitsVal 8 bs
    rw [bitsToBytes, sum_bits_eq_bitsVal, bytesToBits, List.flatMap_cons, hbyte, ← bytesToBits, ih,
      show 8 * (n + 1) = 8 + 8 * n by ring, List.range_add, List.map_append, List.map_map]
    congr 1
    refine List.map_congr_left fun i _ => ?_
    simp only [Function.comp_apply, List.getElem?_drop]

theorem range_map_getD (bs : List Bool) {n : Nat} (h : bs.length ≤ n) :
    (List.range n).map (fun i => (bs[i]?).getD false) = bs ++ List.replicate (n - bs.length) false := by
  refine List.ext_getElem? fun i => ?_
  rw [List.getElem?_map, List.getElem?_append, List.getElem?_replicate]
  by_cases hi : i < bs.length
  · simp [hi, Nat.lt_of_lt_of_le hi h]
  · by_cases hin : i < n
    · simp [hi, hin, show i - bs.length < n - bs.length by omega]
    · simp [hi, hin, show ¬ i - bs.length < n - bs.length by omega]

/-- A plane's codewords parse back to their symbols, and what is left is what followed them. -/
theorem parsePlane_codewords {t : Table Nat} (ht : tableFault t = none) {left : List Bool} (hleft : left.length < 8)
    {syms : List Nat} (hsyms : ∀ y ∈ syms, y < 256 ∧ codeLen t y ≠ 0) :
    parsePlane (codeBook t) (fun _ => false) syms.length
      (syms.flatMap (fun y => wordBits (codeLen t y) (codeWord t y)) ++ left) = .ok (syms, left) := by
  induction syms with
  | nil =>
    show (if 8 ≤ left.length then _ else _) = _
    rw [if_neg (by omega)]
    rfl
  | cons y ys ih =>
    obtain ⟨hlt, hlen⟩ := hsyms y List.mem_cons_self
    have hrest := ih (fun z hz => hsyms z (List.mem_cons_of_mem _ hz))
    have hwindow := windowOf_wordBits (codeLen_le ht hlt) (codeWord_lt ht hlt hlen)
      (ys.flatMap (fun y => wordBits (codeLen t y) (codeWord t y)) ++ left)
    rw [List.flatMap_cons, List.append_assoc, List.length_cons, parsePlane, if_neg]
    · dsimp only
      rw [codeBook_find ht hlt hlen hwindow]
      dsimp only
      rw [if_neg, List.drop_append_of_le_length, List.drop_of_length_le, List.nil_append, hrest]
      · exact (wordBits_length ..).le
      · exact (wordBits_length ..).ge
      · rw [List.length_append, wordBits_length]
        simp
    · rw [List.isEmpty_iff_length_eq_zero, List.length_append, wordBits_length]
      omega

theorem bitsToBytes_length (n : Nat) (bs : List Bool) : (bitsToBytes n bs).length = n := by
  induction n generalizing bs with
  | zero => rfl
  | succ n ih => rw [bitsToBytes, List.length_cons, ih]

theorem flatMap_wordBits_length (t : Table Nat) (syms : List Nat) :
    (syms.flatMap (fun y => wordBits (codeLen t y) (codeWord t y))).length = (syms.map (codeLen t)).sum := by
  simp only [List.length_flatMap, wordBits_length]

/-- A coded plane is shorter than its symbols, and parses back to them with fewer than eight zero bits left. -/
theorem codePlane_some {t : Table Nat} (ht : tableFault t = none) {syms : List Nat} (hsyms : ∀ y ∈ syms, y < 256)
    (hne : syms ≠ []) {p : List Byte} (hp : codePlane t syms = some p) :
    1 ≤ p.length ∧ p.length ≤ syms.length ∧ ∃ k,
      parsePlane (codeBook t) (fun _ => false) syms.length (bytesToBits p) = .ok (syms, List.replicate k false) := by
  unfold codePlane at hp
  split at hp
  · cases hp
  next hcoded =>
  dsimp only at hp
  split at hp
  · cases hp
  next hshort =>
  rw [← List.sum_eq_foldl, ceilDiv] at hp hshort
  have hlen : ∀ y ∈ syms, y < 256 ∧ codeLen t y ≠ 0 := fun y hy =>
    ⟨hsyms y hy, fun h0 => hcoded (List.any_eq_true.mpr ⟨y, hy, beq_iff_eq.mpr h0⟩)⟩
  have hpos : 0 < (syms.map (codeLen t)).sum := by
    obtain ⟨y, hy⟩ := List.exists_mem_of_ne_nil syms hne
    have := List.single_le_sum (fun x _ => Nat.zero_le x) _ (List.mem_map_of_mem (f := codeLen t) hy)
    have := (hlen y hy).2
    omega
  obtain rfl := Option.some.inj hp
  rw [bitsToBytes_length, bytesToBits_bitsToBytes, range_map_getD _ (by rw [flatMap_wordBits_length]; omega)]
  refine ⟨by omega, by omega, _, parsePlane_codewords ht ?_ hlen⟩
  rw [List.length_replicate, flatMap_wordBits_length]
  omega

end Planes
section Blocks
/-! ### Parts of a block's bytes -/

variable {a b : List Byte}

theorem bytesAt_append_right (a b : List Byte) (o n : Nat) : bytesAt (a ++ b) (a.length + o) n = bytesAt b o n := by
  refine List.map_congr_left fun i _ => ?_
  rw [Nat.add_assoc, List.getElem?_append_right (Nat.le_add_right _ _), Nat.add_sub_cancel_left]

theorem bytesAt_append_left {o n : Nat} (h : o + n ≤ a.length) (b : List Byte) : bytesAt (a ++ b) o n = bytesAt a o n := by
  refine List.map_congr_left fun i hi => ?_
  rw [List.getElem?_append_left (by have := List.mem_range.mp hi; omega)]

theorem bytesAt_self (a : List Byte) : bytesAt a 0 a.length = a := by
  refine List.ext_getElem (by simp [bytesAt]) fun i _ hi => ?_
  simp [bytesAt, List.getElem?_eq_getElem hi]

/-- The middle part of three. -/
theorem bytesAt_middle (a m b : List Byte) : bytesAt (a ++ m ++ b) a.length m.length = m := by
  rw [List.append_assoc, ← Nat.add_zero a.length, bytesAt_append_right,
    bytesAt_append_left (Nat.zero_add _).le, bytesAt_self]

theorem zeroAt_pad (a : List Byte) (n : Nat) : zeroAt (a ++ List.replicate n 0) a.length n = true := by
  have h := bytesAt_middle a (List.replicate n 0) []
  rw [List.append_nil, List.length_replicate] at h
  rw [zeroAt, h, List.all_replicate]
  simp

theorem le_roundUp (n : Nat) {m : Nat} (hm : 0 < m) : n ≤ roundUp n m := by
  unfold roundUp ceilDiv
  have := Nat.div_add_mod (n + m - 1) m
  have := Nat.mod_lt (n + m - 1) hm
  rw [Nat.mul_comm]
  omega

end Blocks

section Headers
/-! ### Headers of level-one blocks -/

variable {fmt slot gen count expLen : Nat} {raw : Bool} {rest : List Byte}

theorem headBytes_length (fmt slot gen count expLen : Nat) (raw : Bool) : (headBytes fmt slot gen count expLen raw).length = 16 := rfl

/-- A written header reads back. -/
theorem head_fields (hfmt : fmt < 256) (hslot : slot < 16) (hgen : gen < 16) (hcount : count < 65536) (hexp : expLen < 65536)
    (raw : Bool) (rest : List Byte) :
    let bs := headBytes fmt slot gen count expLen raw ++ rest
    leAt bs 0 1 = fmt ∧ leAt bs 1 1 = (if raw then 0 else gen * 16 + slot) ∧ leAt bs 2 2 = count ∧ leAt bs 4 2 = expLen ∧
      leAt bs 6 1 = b2n raw ∧ zeroAt bs 7 9 = true := by
  intro bs
  have hbs : bs = natLe 1 fmt ++ (natLe 1 (if raw then 0 else gen * 16 + slot) ++ (natLe 2 count ++ (natLe 2 expLen ++
    (natLe 1 (b2n raw) ++ (List.replicate 9 0 ++ rest))))) := by simp [bs, headBytes]
  rw [hbs]
  simp [leAt, zeroAt, bytesAt, natLe, leNat, List.range_succ]
  refine ⟨hfmt, ?_, ?_, ?_, ?_⟩
  · split <;> omega
  · omega
  · omega
  · cases raw <;> decide

end Headers

section LevelOne
/-! ### Level-one blocks -/

variable {s : State} {t : Table Nat} {fmt slot gen : Nat} {xs : List Nat} {plane : List Byte} {raw : Bool}

/-- A block's header, residues and plane. -/
def blockBody (fmt slot gen : Nat) (xs : List Nat) (plane : List Byte) (raw : Bool) : List Byte :=
  headBytes fmt slot gen xs.length plane.length raw ++ xs.map (fun x => BitVec.ofNat 8 (residueOf x)) ++ plane

/-- A block of a plane that is coded or raw, filled up to 64 bytes. -/
def blockBytes (fmt slot gen : Nat) (xs : List Nat) (plane : List Byte) (raw : Bool) : List Byte :=
  blockBody fmt slot gen xs plane raw ++ List.replicate (roundUp (blockBody fmt slot gen xs plane raw).length 64 -
    (blockBody fmt slot gen xs plane raw).length) 0

theorem blockBody_length (fmt slot gen : Nat) (xs : List Nat) (plane : List Byte) (raw : Bool) :
    (blockBody fmt slot gen xs plane raw).length = 16 + xs.length + plane.length := by
  simp only [blockBody, List.length_append, List.length_map, headBytes_length]

theorem encodeL1_coded {p : List Byte} (h : codePlane t (xs.map symbolOf) = some p) (fmt slot gen : Nat) :
    (encodeL1 t fmt slot gen xs).1 = blockBytes fmt slot gen xs p false := by
  rw [encodeL1, h]
  rfl

theorem encodeL1_raw (h : codePlane t (xs.map symbolOf) = none) (fmt slot gen : Nat) :
    (encodeL1 t fmt slot gen xs).1 = blockBytes fmt slot gen xs ((xs.map symbolOf).map (BitVec.ofNat 8)) true := by
  rw [encodeL1, h]
  rfl

/-- What a block needs to read back: its sizes and counts are in range. -/
structure BlockFits (fmt slot gen : Nat) (xs : List Nat) (plane : List Byte) (raw : Bool) : Prop where
  fmt_eq : fmt = 0x14 ∨ fmt = 0x17
  slot_lt : slot < 16
  gen_lt : gen < 16
  count_pos : 1 ≤ xs.length
  count_le : xs.length ≤ 2048
  plane_pos : 1 ≤ plane.length
  plane_le : plane.length ≤ xs.length
  plane_raw : raw = true → plane.length = xs.length

theorem blockBytes_head (h : BlockFits fmt slot gen xs plane raw) :
    let bs := blockBytes fmt slot gen xs plane raw
    leAt bs 0 1 = fmt ∧ leAt bs 1 1 = (if raw then 0 else gen * 16 + slot) ∧ leAt bs 2 2 = xs.length ∧
      leAt bs 4 2 = plane.length ∧ leAt bs 6 1 = b2n raw ∧ zeroAt bs 7 9 = true := by
  have hfmt : fmt < 256 := by rcases h.fmt_eq with rfl | rfl <;> decide
  have hcount := h.count_le
  have hplane := h.plane_le
  rw [blockBytes, blockBody, List.append_assoc, List.append_assoc]
  exact head_fields hfmt h.slot_lt h.gen_lt (by omega) (by omega) raw _

theorem headOf_blockBytes (h : BlockFits fmt slot gen xs plane raw) :
    (headOf (blockBytes fmt slot gen xs plane raw)).fmt = fmt ∧
    (headOf (blockBytes fmt slot gen xs plane raw)).count = xs.length ∧
    (headOf (blockBytes fmt slot gen xs plane raw)).expLen = plane.length ∧
    (headOf (blockBytes fmt slot gen xs plane raw)).raw = raw ∧
    (raw = false → (headOf (blockBytes fmt slot gen xs plane raw)).slot = slot ∧
      (headOf (blockBytes fmt slot gen xs plane raw)).gen = gen) := by
  obtain ⟨hfmt, hslot, hcount, hexp, hraw, -⟩ := blockBytes_head h
  refine ⟨hfmt, hcount, hexp, ?_, fun hcoded => ?_⟩
  · rw [headOf, hraw]
    cases raw <;> rfl
  · have hlt := h.slot_lt
    rw [hcoded, if_neg (by decide)] at hslot
    rw [headOf, hcoded, hslot]
    constructor
    · show (gen * 16 + slot) % 16 = slot
      omega
    · show (gen * 16 + slot) / 16 = gen
      omega

theorem checkHead_blockBytes (h : BlockFits fmt slot gen xs plane raw) :
    checkHead (blockBytes fmt slot gen xs plane raw) fmt xs.length = .ok (headOf (blockBytes fmt slot gen xs plane raw)) := by
  obtain ⟨-, hslot, -, -, hflags, hzero⟩ := blockBytes_head h
  obtain ⟨hfmt, hcount, hexp, hraw, -⟩ := headOf_blockBytes h
  have hcp := h.count_pos
  have hcl := h.count_le
  have hpp := h.plane_pos
  have hpl := h.plane_le
  have htwo : (fmt == 0x22) = false := by rcases h.fmt_eq with rfl | rfl <;> rfl
  have hone : (fmt == 0x14 || fmt == 0x17) = true := by rcases h.fmt_eq with rfl | rfl <;> rfl
  have hcond : ((fmt == 0x14 || fmt == 0x17 || false) && decide (1 ≤ xs.length ∧ xs.length ≤ 2048)) = true := by
    simp [hone, hcp, hcl]
  rw [checkHead]
  simp only [hfmt, hcount, hexp, hraw, hslot, hflags, hzero, htwo, hone]
  cases hr : raw with
  | false => simp [b2n, hcp, hcl, hpp, hpl, show xs.length ≠ 0 by omega]
  | true => simp [b2n, hcp, hcl, h.plane_raw hr, show xs.length ≠ 0 by omega]

theorem blockBytes_length (h : BlockFits fmt slot gen xs plane raw) :
    (blockBytes fmt slot gen xs plane raw).length = blockSize (headOf (blockBytes fmt slot gen xs plane raw)) := by
  obtain ⟨-, hcount, hexp, -, -⟩ := headOf_blockBytes h
  rw [blockSize, hcount, hexp, blockBytes, List.length_append, List.length_replicate, blockBody_length]
  have := le_roundUp (16 + xs.length + plane.length) (show 0 < 64 by decide)
  omega

theorem plane_blockBytes (fmt slot gen : Nat) (xs : List Nat) (plane : List Byte) (raw : Bool) :
    bytesAt (blockBytes fmt slot gen xs plane raw) (16 + xs.length) plane.length = plane := by
  have hlen : 16 + xs.length = (headBytes fmt slot gen xs.length plane.length raw ++
      xs.map (fun x => BitVec.ofNat 8 (residueOf x))).length := by
    rw [List.length_append, List.length_map, headBytes_length]
  rw [hlen, blockBytes, blockBody]
  exact bytesAt_middle _ plane _

theorem pad_blockBytes (fmt slot gen : Nat) (xs : List Nat) (plane : List Byte) (raw : Bool) :
    zeroAt (blockBytes fmt slot gen xs plane raw) (16 + xs.length + plane.length)
      (roundUp (16 + xs.length + plane.length) 64 - (16 + xs.length + plane.length)) = true := by
  rw [blockBytes, ← blockBody_length fmt slot gen xs plane raw]
  exact zeroAt_pad _ _

theorem residueOf_lt (x : Nat) : residueOf x < 256 := by
  unfold residueOf bitsOf
  omega

theorem symbolOf_lt (x : Nat) : symbolOf x < 256 := Nat.mod_lt _ (by decide)

theorem residue_blockBytes {i : Nat} (hi : i < xs.length) :
    leAt (blockBytes fmt slot gen xs plane raw) (16 + i) 1 = residueOf xs[i] := by
  have hget : (blockBytes fmt slot gen xs plane raw)[16 + i]? = some (BitVec.ofNat 8 (residueOf xs[i])) := by
    rw [blockBytes, blockBody, List.append_assoc, List.append_assoc, List.getElem?_append_right (by rw [headBytes_length]; omega),
      headBytes_length, Nat.add_sub_cancel_left, List.getElem?_append_left (by rwa [List.length_map]), List.getElem?_map,
      List.getElem?_eq_getElem hi]
    rfl
  rw [leAt_one hget, BitVec.toNat_ofNat, Nat.mod_eq_of_lt (residueOf_lt _)]

/-- An element is joined back from its symbol and residue (R237). -/
theorem joinElem_split {x : Nat} (h : x < 65536) : joinElem (symbolOf x) (residueOf x) = x := by
  simp only [joinElem, symbolOf, residueOf, bitsOf, Nat.shiftRight_eq_div_pow]
  omega

/-- A plane that gives its symbols gives the elements. -/
theorem decodeL1_of_plane (hxs : ∀ x ∈ xs, x < 65536)
    (hplane : planeOf s (headOf (blockBytes fmt slot gen xs plane raw)) (blockBytes fmt slot gen xs plane raw)
      (16 + xs.length) xs.length (blockSize (headOf (blockBytes fmt slot gen xs plane raw))) (fun _ => false) =
        .ok (xs.map symbolOf)) (hcount : (headOf (blockBytes fmt slot gen xs plane raw)).count = xs.length) :
    decodeL1 s (headOf (blockBytes fmt slot gen xs plane raw)) (blockBytes fmt slot gen xs plane raw) = .ok xs := by
  rw [decodeL1, hcount, hplane]
  refine congrArg Except.ok (List.ext_getElem (by simp) fun i hi hi' => ?_)
  rw [List.getElem_mapIdx, List.getElem_map, residue_blockBytes hi', joinElem_split (hxs _ (List.getElem_mem hi'))]

/-- A raw plane reads back as its symbols. -/
theorem planeOf_raw (h : BlockFits fmt slot gen xs plane true) {syms : List Nat} (hsyms : plane.map (·.toNat) = syms) :
    planeOf s (headOf (blockBytes fmt slot gen xs plane true)) (blockBytes fmt slot gen xs plane true)
      (16 + xs.length) xs.length (blockSize (headOf (blockBytes fmt slot gen xs plane true))) (fun _ => false) = .ok syms := by
  obtain ⟨-, hcount, hexp, hraw, -⟩ := headOf_blockBytes h
  have hpos := h.count_pos
  rw [planeOf, blockSize, hcount, hexp, hraw, plane_blockBytes, pad_blockBytes, hsyms, if_neg (by omega), if_pos rfl,
    if_neg (by simp), if_pos rfl]

/-- A coded plane reads back as its symbols. -/
theorem planeOf_coded (h : BlockFits fmt slot gen xs plane false) (ht : (cbzSlot s slot).lengths gen = some t)
    {syms : List Nat} {k : Nat} (hparse : parsePlane (codeBook t) (fun _ => false) xs.length (bytesToBits plane) =
      .ok (syms, List.replicate k false)) :
    planeOf s (headOf (blockBytes fmt slot gen xs plane false)) (blockBytes fmt slot gen xs plane false)
      (16 + xs.length) xs.length (blockSize (headOf (blockBytes fmt slot gen xs plane false))) (fun _ => false) = .ok syms := by
  obtain ⟨-, hcount, hexp, hraw, hname⟩ := headOf_blockBytes h
  obtain ⟨hslot, hgen⟩ := hname rfl
  have hpos := h.count_pos
  rw [planeOf, blockSize, hcount, hexp, hraw, hslot, hgen, plane_blockBytes, pad_blockBytes, if_neg (by omega),
    if_neg (by decide), ht]
  dsimp only
  rw [hparse]
  dsimp only
  rw [if_neg (by simp)]

end LevelOne

/-- Settles O35: a block's bytes are its header, residues, plane and padding; a coded plane parses back since canonical
codewords do not overlap. -/
theorem codecRoundTrip : Obligations.CodecRoundTrip := by
  refine ⟨fun x hx => joinElem_split hx, fun s t fmt slot gen xs hfmt hslot hgen ht hvalid hpos hle hxs => ?_⟩
  dsimp only
  have hsyms : ∀ y ∈ xs.map symbolOf, y < 256 := by
    intro y hy
    obtain ⟨x, -, rfl⟩ := List.mem_map.mp hy
    exact symbolOf_lt x
  cases hplane : codePlane t (xs.map symbolOf) with
  | some p =>
    obtain ⟨hp1, hp2, k, hparse⟩ := codePlane_some hvalid hsyms (by
      rw [Ne, List.map_eq_nil_iff, ← List.length_eq_zero_iff]; omega) hplane
    rw [List.length_map] at hp2 hparse
    have hfits : BlockFits fmt slot gen xs p false := ⟨hfmt, hslot, hgen, hpos, hle, hp1, hp2, nofun⟩
    rw [encodeL1_coded hplane]
    exact ⟨checkHead_blockBytes hfits, blockBytes_length hfits,
      decodeL1_of_plane hxs (planeOf_coded hfits ht hparse) (headOf_blockBytes hfits).2.1⟩
  | none =>
    have hlen : ((xs.map symbolOf).map (BitVec.ofNat 8)).length = xs.length := by rw [List.length_map, List.length_map]
    have hfits : BlockFits fmt slot gen xs ((xs.map symbolOf).map (BitVec.ofNat 8)) true :=
      ⟨hfmt, hslot, hgen, hpos, hle, hlen ▸ hpos, hlen.le, fun _ => hlen⟩
    have hback : ((xs.map symbolOf).map (BitVec.ofNat 8)).map (·.toNat) = xs.map symbolOf := by
      rw [List.map_map]
      refine (List.map_congr_left fun y hy => ?_).trans (List.map_id _)
      rw [Function.comp_apply, BitVec.toNat_ofNat, Nat.mod_eq_of_lt (hsyms y hy), id]
    rw [encodeL1_raw hplane]
    exact ⟨checkHead_blockBytes hfits, blockBytes_length hfits,
      decodeL1_of_plane hxs (planeOf_raw hfits hback) (headOf_blockBytes hfits).2.1⟩

end Sys2Proof.Machine
end

section
/-! A lane that fails the start-up test while a program runs on it (15_steward_security, 06_lanes). -/

namespace Sys2Proof.Machine

/-- A bank manifest of one image, which begins at the bank's end and is empty; the digest is FIPS 202's for the empty
message. -/
def emptyImageBank : List Byte :=
  natLe 4 0x4B37424B ++ [1, 44, 0, 0, 0, 1, 0, 0] ++ natLe 4 3 ++ List.replicate 48 0 ++ [1, 0, 0, 0] ++ natLe 4 bankSize
    ++ (natLe 32 0xa7ffc6f8bf1ed76651c14756a061d662f580ff4de43b49fa82d80a4b80f8434a).reverse

/-- Fuses that hold the bank's key and vouch for its signature. -/
def emptyImageFuses : FuseSt where
  keyHash := [sha3 (bytesAt (emptyImageBank.take 7424) 384 1312)]
  vouched := [⟨44, bytesAt (emptyImageBank.take 7424) 384 1312, sha3 (bytesAt (emptyImageBank.take 7424) 0 4096),
    bytesAt (emptyImageBank.take 7424) 4096 2420⟩]

/-- Before the Steward is ready, a program runs on lane 0 that writes its exit record to the attic's first bytes. -/
def bootingWithProgram : State where
  regs := [(0x148, 1)]
  flash := { bankA := emptyImageBank }
  fuses := emptyImageFuses
  lanes := [(0, { queue := [(0, 0)], vecRun := some (0, 0), outAddr := 0x100000000000, loaded := true, exitCode := 1 })]

/-- Lane 0 fails the start-up test. -/
def laneFails : BootFacts := { bist := [⟨0, 0, 0, 0, 0⟩] }

/-- The bank verifies: its key and its signature are the fuses' own. -/
theorem emptyImage_keyOk : keyOk emptyImageFuses (emptyImageBank.take 7424) = true := by
  have halg : leAt (emptyImageBank.take 7424) 5 1 = 44 := by decide +kernel
  have hkey : leAt (emptyImageBank.take 7424) 6 1 = 0 := by decide +kernel
  have hzero : zeroAt (emptyImageBank.take 7424) (384 + keyLen 44) (1952 - keyLen 44) = true := by decide +kernel
  have hzero' : zeroAt (emptyImageBank.take 7424) (4096 + sigLen 44) (3309 - sigLen 44) = true := by decide +kernel
  have hsig : sigVerifies emptyImageFuses 44 (bytesAt (emptyImageBank.take 7424) 384 (keyLen 44))
      (sha3 (bytesAt (emptyImageBank.take 7424) 0 4096)) (bytesAt (emptyImageBank.take 7424) 4096 (sigLen 44)) = true :=
    List.contains_iff_mem.mpr List.mem_cons_self
  have hhash : (emptyImageFuses.keyHash[0]?).getD [] = sha3 (bytesAt (emptyImageBank.take 7424) 384 (keyLen 44)) := by
    rw [emptyImageFuses, keyLen, if_pos rfl, List.getElem?_cons_zero, Option.getD_some]
  simp only [keyOk, halg, hkey, hzero, hzero', hsig, hhash, beq_self_eq_true, Bool.true_or, Bool.true_and, Bool.and_true]
  decide

theorem emptyImage_bankOk : bankOk bootingWithProgram.fuses (getF bootingWithProgram DEV_INFO_arith_rev)
    (bankBytes bootingWithProgram.flash false) = true := by
  show bankOk emptyImageFuses (getF bootingWithProgram DEV_INFO_arith_rev) emptyImageBank = true
  simp only [bankOk, emptyImage_keyOk]
  decide +kernel

theorem choose_emptyImage : chooseBank bootingWithProgram.flash.boot bootingWithProgram.flash.lapsed (fun b =>
    bankOk bootingWithProgram.fuses (getF bootingWithProgram DEV_INFO_arith_rev) (bankBytes bootingWithProgram.flash b)) =
      ({}, some (false, false)) := by
  have hboot : bootingWithProgram.flash.boot = {} := by decide +kernel
  rw [hboot, chooseBank]
  dsimp only
  rw [if_pos emptyImage_bankOk]
  rfl

/-! ### What start-up leaves alone before the lanes' test -/

section
variable {r s t : State}

/-- Lanes, commands and memory of t are those of s. -/
structure SameWork (s t : State) : Prop where
  lanes : t.lanes = s.lanes
  cmds : t.cmds = s.cmds
  mem : t.mem = s.mem

namespace SameWork

theorem refl (s : State) : SameWork s s := ⟨rfl, rfl, rfl⟩

theorem trans (h : SameWork r s) (h' : SameWork s t) : SameWork r t :=
  ⟨h'.lanes.trans h.lanes, h'.cmds.trans h.cmds, h'.mem.trans h.mem⟩

theorem setF (h : SameWork r s) (f : Fld) (v : Nat) : SameWork r (Machine.setF s f v) := h.trans ⟨rfl, rfl, rfl⟩

theorem setReg (h : SameWork r s) (a : Nat) (w : Word) : SameWork r (Machine.setReg s a w) := h.trans ⟨rfl, rfl, rfl⟩

theorem raiseEv (h : SameWork r s) (p : Nat) (ev : Ev) (args : List Nat) : SameWork r (Machine.raiseEv s p ev args) :=
  h.trans ⟨raiseEv_lanes .., raiseEv_cmds .., raiseEv_mem ..⟩

theorem ite {c : Prop} [Decidable c] (h : SameWork r s) (h' : SameWork r t) : SameWork r (if c then s else t) := by
  split
  · exact h
  · exact h'

theorem foldl {α : Type} {f : State → α → State} (hf : ∀ s x, SameWork s (f s x)) (h : SameWork r s) (l : List α) :
    SameWork r (l.foldl f s) := by
  induction l generalizing s with
  | nil => exact h
  | cons x l ih => exact ih (h.trans (hf s x))

end SameWork

theorem writeUserCal_work (s : State) (page : Nat) (bytes : List Byte) : SameWork s (writeUserCal s page bytes) := by
  refine (SameWork.refl s).foldl (fun s i => ?_) _
  dsimp only
  split
  · exact .refl s
  · exact (SameWork.refl s).setReg _ _

theorem applyUserCal_work (s : State) (p : Prof) : SameWork s (applyUserCal s p) :=
  ((SameWork.refl s).foldl (fun s g => writeUserCal_work s g []) _).foldl (fun s _ => writeUserCal_work s _ _) _

theorem applyTimSrc_work (s : State) (src dom : Nat) : SameWork s (applyTimSrc s src dom) := by
  unfold applyTimSrc
  dsimp only
  split
  · exact ⟨rfl, rfl, rfl⟩
  · exact ⟨rfl, rfl, rfl⟩

theorem applyEventDefaults_work (s : State) : SameWork s (applyEventDefaults s) :=
  (SameWork.refl s).foldl (fun s _ => .ite (.refl s) ((((SameWork.refl s).setF _ _).setF _ _).setF _ _)) _

theorem setPace_work (s : State) (f : Nat → Fld) (v : Nat) : SameWork s (setPace s f v) := by
  unfold setPace settlePace
  exact ((SameWork.refl s).foldl (fun s d => (SameWork.refl s).setF _ _) _).foldl (fun s d => (SameWork.refl s).setF _ _) _

theorem with_pac_work (s : State) (x : PacSt) : SameWork s { s with pac := x } := ⟨rfl, rfl, rfl⟩

theorem applyProfile_work (s : State) (p : Prof) : SameWork s (applyProfile s p false) := by
  unfold applyProfile
  dsimp only
  refine SameWork.trans ?_ (setPace_work _ _ _)
  refine SameWork.setF (SameWork.trans ?_ (applyEventDefaults_work _)) _ _
  refine SameWork.trans (.setF (.setF (SameWork.trans ?_ (applyTimSrc_work _ _ _)) _ _) _ _) (with_pac_work _ _)
  refine .setReg (.setReg (.setF (.setF (.setF ?_ _ _) _ _) _ _) _ _) _ _
  exact (applyUserCal_work s p).foldl (fun s _ => (SameWork.refl s).setReg _ _) _

theorem loadProfile_work (s : State) (bad : Bool) : SameWork s (loadProfile s bad) := by
  have hp3 : ∀ u, SameWork u (setF (setF (setF (applyProfile u profile3 false) DEV_START_profile 3) PRF_ACTIVE_profile 3)
      PRF_ACTIVE_builtin (b2n bad)) := fun u => (((applyProfile_work u _).setF _ _).setF _ _).setF _ _
  unfold loadProfile
  dsimp only
  split
  · exact .ite (hp3 s) (((applyProfile_work s _).setF _ _).setF _ _)
  · exact ((((SameWork.refl s).setF _ _).setF _ _).raiseEv _ _ _).trans (hp3 _)

theorem comeUp_work (s : State) (p : Nat) : SameWork s (comeUp s p) :=
  .ite (.refl s) (.ite ((SameWork.refl s).setF _ _) (.ite ((SameWork.refl s).setF _ _) ((SameWork.refl s).setF _ _)))

theorem showBoot_work (s : State) (b fell : Bool) : SameWork s (showBoot s b fell) :=
  ((((((SameWork.refl s).setF _ _).setF _ _).setF _ _).setF _ _).setF _ _).setF _ _

/-! ### The lanes' test -/

theorem repairLane_mem (s : State) (l : Nat) : (repairLane s l).mem = s.mem := by
  unfold repairLane
  split
  · rfl
  split
  · rfl
  split
  · rfl
  split
  · exact raiseEv_mem ..
  · rfl

theorem finishParts_none {q i : Nat} (h : findCmd s q i = none) (result : List Byte) : finishParts s q i result = s := by
  rw [finishParts, h]

theorem findCmd_none (h : s.cmds.table = []) (q i : Nat) : findCmd s q i = none := by rw [findCmd, h]; rfl

theorem setInit_work (s : State) (keys : List Nat) (ms : Nat) : (setInit s keys ms).cmds = s.cmds ∧
    (setInit s keys ms).mem.cells = s.mem.cells := by
  unfold setInit
  dsimp only
  split <;> split <;> simp

theorem freshLines_work (s : State) (a n : Nat) : (freshLines s a n).cmds = s.cmds ∧
    (freshLines s a n).mem.cells = s.mem.cells := by
  unfold freshLines touchRegions
  dsimp only
  split
  · exact ⟨rfl, rfl⟩
  · exact setInit_work ..

theorem freshLines_poke (s : State) (a n : Nat) (bs : List Byte) : (freshLines (poke s a bs) a n).cmds = s.cmds ∧
    (freshLines (poke s a bs) a n).mem.cells = pokeCells s.mem.cells a bs := freshLines_work (poke s a bs) a n

/-- A program whose command is not in the table writes its exit record, and its lane nothing else. -/
theorem endPart_none {l q i st d : Nat} (h : s.cmds.table = []) (hrun : (lane s l).vecRun = some (q, i))
    (hout : (lane s l).outAddr ≠ 0 ∧ (lane s l).loaded = true) :
    (endPart s q i l st d).cmds.table = [] ∧ (endPart s q i l st d).mem.cells =
      pokeCells s.mem.cells ((lane s l).outAddr + 256 * (lane s l).pos) (exitRecord (lane s l) st d) := by
  have hfresh := freshLines_poke s ((lane s l).outAddr + 256 * (lane s l).pos) 256 (exitRecord (lane s l) st d)
  have hcmds := (congrArg CmdSt.table hfresh.1).trans h
  have hleave : leaveVec s l q i st d = freshLines (poke s ((lane s l).outAddr + 256 * (lane s l).pos)
      (exitRecord (lane s l) st d)) ((lane s l).outAddr + 256 * (lane s l).pos) 256 := by
    unfold leaveVec
    dsimp only
    rw [if_neg (by simp [hrun]), if_pos hout, findCmd_none hcmds]
  unfold endPart
  dsimp only
  rw [hleave, findCmd_none hcmds]
  dsimp only
  exact ⟨hcmds, hfresh.2⟩

/-- A fenced lane's program, whose command is not in the table, writes its exit record. -/
theorem fenceLane_cells {l q i : Nat} (h : s.cmds.table = []) (hlane : (lane s l).queue = [(q, i)])
    (hfree : (lane s l).fenced = false) (hrun : (lane s l).vecRun = some (q, i))
    (hout : (lane s l).outAddr ≠ 0 ∧ (lane s l).loaded = true) : (fenceLane s l none).mem.cells =
      pokeCells s.mem.cells ((lane s l).outAddr + 256 * (lane s l).pos) (exitRecord (lane s l) stLaneFenced 0) := by
  obtain ⟨hcmds, hcells⟩ := endPart_none (st := stLaneFenced) (d := 0) h hrun hout
  unfold fenceLane
  dsimp only
  rw [hfree, if_neg (by decide), hlane, repairLane_mem, raiseEv_mem, setLane_mem]
  show (finishParts (endPart s q i l stLaneFenced 0) q i []).mem.cells = _
  rw [finishParts_none (findCmd_none hcmds q i), hcells]

/-- A lane that passes its test leaves memory alone. -/
theorem bistLane_pass_mem (s : State) (l : Nat) : (bistLane s l none).mem = s.mem := by
  unfold bistLane
  dsimp only
  rw [apply_ite State.mem, setLane_mem, setF_mem, ite_self]

theorem bistLane_fail_cells {l q i : Nat} (b : BistFail) (h : s.cmds.table = []) (hlane : (lane s l).queue = [(q, i)])
    (hfree : (lane s l).fenced = false) (hrun : (lane s l).vecRun = some (q, i))
    (hout : (lane s l).outAddr ≠ 0 ∧ (lane s l).loaded = true) : (bistLane s l (some b)).mem.cells =
      pokeCells s.mem.cells ((lane s l).outAddr + 256 * (lane s l).pos) (exitRecord (lane s l) stLaneFenced 0) := by
  have hwork := ((SameWork.refl s).setF (LANE_INFO_bist_pass l) 0).raiseEv (pgLANE l) evBistFailed
    [l, physLane (setF s (LANE_INFO_bist_pass l) 0) l, b.array, b.mode, b.row, b.col]
  have hl : ∀ t, SameWork s t → lane t l = lane s l := fun t ht => by rw [lane, ht.lanes, lane]
  have hl := hl _ hwork
  rw [bistLane, fenceLane_cells ((congrArg CmdSt.table hwork.cmds).trans h) (hl ▸ hlane) (hl ▸ hfree) (hl ▸ hrun) (hl ▸ hout), hl, hwork.mem]

theorem setPorts_mem (s : State) (f : Nat → State → PortSt) (q : List Nat) :
    (q.foldl (fun s n => setPort s n (f n s)) s).mem = s.mem := by
  induction q generalizing s with
  | nil => rfl
  | cons n q ih => exact ih _

theorem bistLanes_pass_mem (s : State) (b : BistFail) {ls : List Nat} (h : ∀ l ∈ ls, b.lane ≠ l) :
    (ls.foldl (fun s l => bistLane s l ([b].find? (fun b => b.lane == l))) s).mem = s.mem := by
  induction ls generalizing s with
  | nil => rfl
  | cons l ls ih =>
    have hl : [b].find? (fun b => b.lane == l) = none := by simp [h l]
    rw [List.foldl_cons, ih _ (fun k hk => h k (List.mem_cons_of_mem _ hk)), hl, bistLane_pass_mem]

/-- The attic zeroed. -/
def atticZeroed (s : State) : State :=
  { s with mem := { s.mem with cells := s.mem.cells.filter (fun c => regionOf c.1 != .attic) } }

theorem loadProcessors_mem (s : State) (facts : BootFacts) : (loadProcessors s facts).mem =
    ((List.range 96).foldl (fun s l => bistLane s l (facts.bist.find? (fun b => b.lane == l))) (atticZeroed s)).mem :=
  setPorts_mem _ (fun n s => { port s n with train := .queued }) _

/-- The attic of a start whose lane 0 fails its test holds the exit record of that lane's program. -/
theorem loadProcessors_cells {q i : Nat} (h : s.cmds.table = []) (hlane : (lane s 0).queue = [(q, i)])
    (hfree : (lane s 0).fenced = false) (hrun : (lane s 0).vecRun = some (q, i))
    (hout : (lane s 0).outAddr ≠ 0 ∧ (lane s 0).loaded = true) (hmem : s.mem.cells = []) :
    (loadProcessors s laneFails).mem.cells =
      pokeCells [] ((lane s 0).outAddr + 256 * (lane s 0).pos) (exitRecord (lane s 0) stLaneFenced 0) := by
  have hfail := bistLane_fail_cells (s := atticZeroed s) (l := 0) ⟨0, 0, 0, 0, 0⟩ h hlane hfree hrun hout
  have hzero : (atticZeroed s).mem.cells = [] := by rw [atticZeroed, hmem]; rfl
  rw [hzero] at hfail
  rw [loadProcessors_mem, List.range_succ_eq_map, List.foldl_cons, laneFails, bistLanes_pass_mem _ _ (by simp)]
  exact hfail

theorem showUpdate_mem (s : State) : (showUpdate s).mem = s.mem := by
  unfold showUpdate
  dsimp only
  rw [setF_mem, setF_mem, setF_mem]

theorem maybeApply_mem (s : State) : (maybeApply s).mem = s.mem := by
  unfold maybeApply
  dsimp only
  split
  · unfold beginApply
    dsimp only
    rw [showUpdate_mem]
    rfl
  · exact showUpdate_mem s

theorem with_stw_work (s : State) (x : StwSt) : SameWork s { s with stw := x } := ⟨rfl, rfl, rfl⟩

theorem completeBurns_work (hburn : s.fuses.burnDue = []) (hconfirm : s.fuses.confirmDue = none) :
    SameWork s (completeBurns s) := by
  unfold completeBurns
  split
  · dsimp only
    rw [hburn, List.foldl_nil, hconfirm]
    exact ⟨rfl, rfl, rfl⟩
  · exact .refl s

/-- Start-up's steps from the burns to the pages' coming up. -/
def pagesUp (s : State) (bank : Bool) (facts : BootFacts) : State :=
  allPages.foldl comeUp (setF (loadProfile (showBoot (completeBurns s) bank false) facts.prof3Bad) DEV_START_steward_ready 1)

theorem pagesUp_work (hburn : s.fuses.burnDue = []) (hconfirm : s.fuses.confirmDue = none) (bank : Bool)
    (facts : BootFacts) : SameWork s (pagesUp s bank facts) :=
  ((((completeBurns_work hburn hconfirm).trans (showBoot_work _ _ _)).trans (loadProfile_work _ _)).setF _ _).foldl
    comeUp_work _

/-- The bank's images loaded, and no trial lapsed. -/
def imagesLoaded (s : State) (bank : Bool) : State :=
  { s with flash := { s.flash with lapsed := false }, stw := { s.stw with loaded := loadedImages (bankBytes s.flash bank) } }

theorem imagesLoaded_work (s : State) (bank : Bool) : SameWork s (imagesLoaded s bank) := ⟨rfl, rfl, rfl⟩

/-- A start that is no watchdog's and falls back to no other bank ends in the lanes' test. -/
theorem stewardReady_eq (hrest : s.stw.restarting = false) (bank : Bool) (facts : BootFacts) :
    stewardReady s bank false facts = maybeApply (loadProcessors { pagesUp (imagesLoaded s bank) bank facts with
      stw := { (pagesUp (imagesLoaded s bank) bank facts).stw with booted := bank } } facts) := by
  unfold stewardReady
  dsimp only
  rw [hrest, if_neg (by decide), if_neg (by decide), ← imagesLoaded, ← pagesUp]

theorem stewardReady_work (hrest : s.stw.restarting = false) (hburn : s.fuses.burnDue = [])
    (hconfirm : s.fuses.confirmDue = none) (bank : Bool) (facts : BootFacts) :
    ∃ t, SameWork s t ∧ stewardReady s bank false facts = maybeApply (loadProcessors t facts) := by
  have hwork : SameWork s (pagesUp (imagesLoaded s bank) bank facts) :=
    (imagesLoaded_work s bank).trans (pagesUp_work (s := imagesLoaded s bank) hburn hconfirm bank facts)
  have heq := stewardReady_eq hrest bank facts
  generalize pagesUp (imagesLoaded s bank) bank facts = u at hwork heq
  exact ⟨_, hwork.trans (with_stw_work u _), heq⟩

end

/-- The program's exit code stands in the attic once the Steward is ready: the lane is fenced after the attic was zeroed. -/
theorem memByte_stewardReady_program :
    memByte (stewardReady (writeBoot bootingWithProgram {}) false false laneFails) 0x100000000080 = 1 := by
  obtain ⟨t, hwork, heq⟩ := stewardReady_work (s := writeBoot bootingWithProgram {}) rfl rfl rfl false laneFails
  have hlane : lane t 0 = lane bootingWithProgram 0 := by rw [lane, hwork.lanes]; rfl
  have hcells := loadProcessors_cells (s := t) (q := 0) (i := 0) (by rw [hwork.cmds]; rfl) (by rw [hlane]; rfl)
    (by rw [hlane]; rfl) (by rw [hlane]; rfl) (by rw [hlane]; exact ⟨by decide, rfl⟩) (by rw [hwork.mem]; rfl)
  rw [heq, memByte, maybeApply_mem, hcells, hlane]
  decide +kernel

theorem bootingWithProgram_starts : bootingWithProgram.regsWf = true ∧ isSet bootingWithProgram DEV_START_fuses_done = true ∧
    isSet bootingWithProgram DEV_START_steward_ready = false ∧ isSet bootingWithProgram DEV_START_boot_failed = false ∧
    isSet bootingWithProgram STW_STATE_held = false := by decide +kernel

theorem emptyImage_imagesOk : imagesOk emptyImageBank = true := by decide +kernel

theorem bankA_writeBoot (s : State) (r : BootRec) : bankBytes (writeBoot s r).flash false = bankBytes s.flash false := by
  unfold writeBoot
  dsimp only
  split <;> rfl

/-- What a start's bank that verifies comes to. -/
theorem stewardImageVerified_ready {s : State} {r : BootRec} (facts : BootFacts) (hlife : s.life = .running)
    (hfuses : isSet s DEV_START_fuses_done = true) (hnot : isSet s DEV_START_steward_ready = false)
    (hboot : isSet s DEV_START_boot_failed = false) (hheld : isSet s STW_STATE_held = false)
    (hchoose : chooseBank s.flash.boot s.flash.lapsed (fun b =>
      bankOk s.fuses (getF s DEV_INFO_arith_rev) (bankBytes s.flash b)) = (r, some (false, false)))
    (hreload : facts.reloadBad = false) (himages : imagesOk (bankBytes s.flash false) = true) :
    exec (.stewardImageVerified facts) s = .next (stewardReady (writeBoot s r) false false facts) := by
  rw [exec, execStewardImageVerified, stewardImageVerified, if_neg (by simp [hlife, hfuses, hnot, hboot, hheld])]
  dsimp only
  rw [hchoose]
  dsimp only
  rw [if_neg (by simp [bankA_writeBoot, hreload, himages])]

/-- Refutes O16: a lane whose program ends by the start-up test's fence writes its exit record to the attic just zeroed. -/
theorem not_bootChain : ¬ Obligations.BootChain := by
  intro h
  obtain ⟨-, hbank⟩ := h
  obtain ⟨hwf, hfuses, hnot, hboot, hheld⟩ := bootingWithProgram_starts
  obtain ⟨t, hrun, -, -, -, -, -, hattic⟩ := hbank bootingWithProgram laneFails {} false false hwf rfl hfuses hnot hboot hheld
    rfl choose_emptyImage emptyImage_imagesOk
  have hready := stewardImageVerified_ready laneFails rfl hfuses hnot hboot hheld choose_emptyImage rfl emptyImage_imagesOk
  obtain rfl := Host.Outcome.next.inj (hready.symm.trans hrun)
  have hone := memByte_stewardReady_program
  rw [hattic 0x100000000080 (by decide)] at hone
  exact absurd hone (by decide)

end Sys2Proof.Machine
end

section
/-! Masked writes (08_vector): vector registers, predicates and p0. -/

namespace Sys2Proof.Machine

section
variable {ln : LaneSt}

theorem mem_maskList {m i : Nat} : i ∈ maskList m ↔ i < 64 ∧ bitOf m i = true := by
  rw [maskList, List.mem_filter, List.mem_range]

theorem vreg_setVreg_same (h : tableWf (fun _ => (0 : Word)) ln.v = true) (r i : Nat) (x : Word) :
    vreg (setVreg ln r i x) r i = x := tget_tset_same _ h _ x

theorem vreg_setVreg_ne {r r' i i' : Nat} (hi : i < 64) (hi' : i' < 64) (h : ¬ (r' = r ∧ i' = i)) (x : Word) :
    vreg (setVreg ln r i x) r' i' = vreg ln r' i' := tget_tset_ne _ _ x (by omega)

/-- Elements written one after the other, each its value. -/
theorem foldl_setVreg (r : Nat) (f : Nat → Word) {ixs : List Nat} (hixs : ∀ i ∈ ixs, i < 64)
    (h : tableWf (fun _ => (0 : Word)) ln.v = true) :
    (∀ r' i, i < 64 → vreg (ixs.foldl (fun ln i => setVreg ln r i (f i)) ln) r' i =
      if r' = r ∧ i ∈ ixs then f i else vreg ln r' i) ∧
    { ixs.foldl (fun ln i => setVreg ln r i (f i)) ln with v := ln.v } = ln ∧
    tableWf (fun _ => (0 : Word)) (ixs.foldl (fun ln i => setVreg ln r i (f i)) ln).v = true := by
  induction ixs generalizing ln with
  | nil => exact ⟨fun r' i _ => by simp, rfl, h⟩
  | cons j ixs ih =>
    obtain ⟨hread, hframe, hwf⟩ := ih (fun i hi => hixs i (List.mem_cons_of_mem _ hi)) (ln := setVreg ln r j (f j))
      (tableWf_tset _ h _ _)
    have hj := hixs j List.mem_cons_self
    refine ⟨fun r' i hi => ?_, ?_, hwf⟩
    · rw [List.foldl_cons, hread r' i hi]
      by_cases hsame : r' = r ∧ i = j
      · obtain ⟨rfl, rfl⟩ := hsame
        simp [vreg_setVreg_same h]
      · rw [vreg_setVreg_ne hj hi hsame]
        by_cases hr : r' = r
        · have hne : i ≠ j := fun e => hsame ⟨hr, e⟩
          simp [hr, hne]
        · simp [hr]
    · exact congrArg (fun x : LaneSt => { x with v := ln.v }) hframe

theorem writeMasked_spec (r m : Nat) (f : Nat → Word) (h : tableWf (fun _ => (0 : Word)) ln.v = true) :
    (∀ r' i, i < 64 → vreg (writeMasked ln r m f) r' i = if r' = r ∧ bitOf m i = true then f i else vreg ln r' i) ∧
    { writeMasked ln r m f with v := ln.v } = ln ∧
    tableWf (fun _ => (0 : Word)) (writeMasked ln r m f).v = true := by
  obtain ⟨hread, hframe, hwf⟩ := foldl_setVreg (ln := ln) r f (ixs := maskList m) (fun i hi => (mem_maskList.mp hi).1) h
  refine ⟨fun r' i hi => ?_, hframe, hwf⟩
  rw [writeMasked, hread r' i hi]
  simp only [mem_maskList, hi, true_and]

/-! ### Predicates -/

/-- The mask of the first n elements that f selects. -/
def maskBelow (f : Nat → Bool) (n : Nat) : Nat := ((List.range n).map (fun i => if f i then 2 ^ i else 0)).sum

theorem maskBelow_succ (f : Nat → Bool) (n : Nat) : maskBelow f (n + 1) = 2 ^ n * (f n).toNat + maskBelow f n := by
  rw [maskBelow, List.range_succ, List.map_append, List.sum_append, ← maskBelow, Nat.add_comm]
  cases h : f n <;> simp [h]

theorem maskBelow_lt (f : Nat → Bool) (n : Nat) : maskBelow f n < 2 ^ n := by
  induction n with
  | zero => exact Nat.one_pos
  | succ n ih =>
    rw [maskBelow_succ, pow_succ]
    cases f n <;> simp <;> omega

theorem testBit_maskBelow (f : Nat → Bool) {n i : Nat} (h : i < n) : (maskBelow f n).testBit i = f i := by
  induction n with
  | zero => exact absurd h (Nat.not_lt_zero i)
  | succ n ih =>
    rw [maskBelow_succ, Nat.testBit_two_pow_mul_add _ (maskBelow_lt f n)]
    by_cases hi : i < n
    · rw [if_pos hi, ih hi]
    · obtain rfl : i = n := by omega
      rw [if_neg hi, Nat.sub_self]
      cases f i <;> rfl

theorem maskFrom_eq (f : Nat → Bool) : maskFrom f = maskBelow f 64 := List.sum_eq_foldl.symm

theorem maskFrom_lt (f : Nat → Bool) : maskFrom f < 2 ^ 64 := maskFrom_eq f ▸ maskBelow_lt f 64

theorem bitOf_maskFrom (f : Nat → Bool) {i : Nat} (h : i < 64) : bitOf (maskFrom f) i = f i := by
  rw [bitOf_eq_testBit, maskFrom_eq, testBit_maskBelow f h]

theorem preg_setPreg_same (h : tableWf (fun _ => (0 : Dword)) ln.p = true) {r : Nat} (hr : r ≠ 0) {m : Nat} (hm : m < 2 ^ 64) :
    preg (setPreg ln r m) r = m := by
  rw [preg, if_neg hr, setPreg, if_neg hr, tget_tset_same _ h, BitVec.toNat_ofNat, Nat.mod_eq_of_lt hm]

theorem preg_setPreg_ne {r r' : Nat} (h : r' ≠ r) (m : Nat) : preg (setPreg ln r m) r' = preg ln r' := by
  unfold setPreg
  split
  · rfl
  · rw [preg, preg, tget_tset_ne _ _ _ h]

theorem setPreg_zero (m : Nat) : setPreg ln 0 m = ln := if_pos rfl

theorem setPreg_frame (r m : Nat) : { setPreg ln r m with p := ln.p } = ln := by
  unfold setPreg
  split <;> rfl

theorem bitOf_preg_zero {i : Nat} (h : i < 64) : bitOf (preg ln 0) i = true := by
  rw [bitOf_eq_testBit, preg, if_pos rfl, allOnes, Nat.testBit_two_pow_sub_one, decide_eq_true h]

end

/-- Settles O40, by induction on the elements written. -/
theorem maskedWrites : Obligations.MaskedWrites := by
  refine ⟨fun ln r m f h => writeMasked_spec r m f h, fun ln r m f h hr => ⟨fun i hi => ?_, fun r' hr' => ?_, ?_⟩,
    fun ln m f => ⟨setPreg_zero _, setPreg_zero m, fun i hi => bitOf_preg_zero hi⟩⟩
  · rw [writePred, preg_setPreg_same h hr (maskFrom_lt _), bitOf_maskFrom _ hi]
  · exact preg_setPreg_ne hr' _
  · exact setPreg_frame r _

end Sys2Proof.Machine
end

section
/-! Reads and writes of sound local memory (09_memory), and a step whose overflow flag is set (13_training_state). -/

namespace Sys2Proof.Machine

section
variable {s : State} {a n : Nat} {bs : List Byte}

/-! ### Access to sound lines -/

theorem meetHits_nil (s : State) (touches : Nat → Bool) : meetHits s [] touches = s := by
  simp [meetHits]

theorem find_damaged_none {lines : List Nat} (h : ∀ l ∈ lines, l ∉ s.mem.damaged) :
    lines.find? (fun l => s.mem.damaged.contains l) = none := by
  refine List.find?_eq_none.mpr fun l hl => ?_
  rw [List.contains_iff_mem]
  exact h l hl

/-- A read of sound memory gives its bytes and changes nothing. -/
theorem memRead_sound (h : Sound s a n) (who : Requester) (own : Option (Nat × Nat)) :
    memRead s [] a n who own = (s, some (peek s a n)) := by
  unfold memRead
  dsimp only
  rw [meetHits_nil, find_damaged_none h]

theorem partLines_subset {l : Nat} (h : l ∈ partLines a n) : l ∈ linesOf a n := by
  unfold partLines at h
  unfold linesOf
  split at h
  · exact absurd h List.not_mem_nil
  next hn =>
  rw [if_neg hn, List.mem_map]
  simp only [List.mem_append, List.mem_range] at h ⊢
  have hmono : lineOf a ≤ lineOf (a + n - 1) := by unfold lineOf; omega
  rcases h with h | h
  · split at h
    · exact absurd h List.not_mem_nil
    · exact ⟨0, by omega, (List.mem_singleton.mp h).symm⟩
  · split at h
    · exact absurd h List.not_mem_nil
    · refine ⟨(lineOf (a + n - 1) - lineOf a) / 64, by omega, ?_⟩
      rw [List.mem_singleton.mp h]
      unfold lineOf at hmono ⊢
      omega

/-- A write of sound memory stores its bytes. -/
theorem memWrite_sound (h : Sound s a bs.length) (who : Requester) (own : Option (Nat × Nat)) :
    memWrite s [] a bs who own = (freshLines (poke s a bs) a bs.length, true) := by
  unfold memWrite
  dsimp only
  rw [meetHits_nil, find_damaged_none fun l hl => h l (partLines_subset hl)]

/-! ### What a write changes -/

/-- Each byte after a write of bytes. -/
theorem memByte_poke (h : s.memWf = true) (a : Nat) (bs : List Byte) (x : Nat) :
    memByte (poke s a bs) x = if a ≤ x ∧ x < a + bs.length then bs.getD (x - a) 0 else memByte s x := by
  split
  next hx =>
    have hlt : x - a < bs.length := by omega
    obtain ⟨i, rfl⟩ := Nat.exists_eq_add_of_le hx.1
    rw [Nat.add_sub_cancel_left] at hlt ⊢
    rw [poke_byte_same a bs h hlt, List.getD_eq_getElem _ _ hlt]
  next hx => exact poke_byte_ne s a bs (by omega)

theorem ByEvents.withMem {t : State} {m : MemSt} (h : ByEvents { s with mem := m } t) (m' : MemSt) :
    ByEvents { s with mem := m' } { t with mem := m' } := { h with mem := rfl }

/-- First writes to regions change registers, the event system and what it sends, and leave memory's bytes. -/
theorem setInit_frame (s : State) (keys : List Nat) (ms : Nat) :
    ∃ m, ByEvents { s with mem := m } (setInit s keys ms) ∧ m.cells = s.mem.cells := by
  have hgib : ∀ (m : MemSt) (g : Nat), ByEvents { s with mem := m } (if getF { s with mem := m } CEL_STATE_init_gib = g then
      { s with mem := m } else setF { s with mem := m } CEL_STATE_init_gib g) := fun m g =>
    .ite (.refl _) ((ByEvents.refl _).setF _ _)
  unfold setInit
  dsimp only
  split
  · refine ⟨{ s.mem with regions := [], allInit := true }, ByEvents.raiseEv (.setF ?_ _ _) _ _ _, rfl⟩
    split
    · exact .refl _
    · exact (ByEvents.refl _).setF _ _
  · exact ⟨_, hgib _ _, rfl⟩

theorem freshLines_frame (s : State) (a n : Nat) :
    ∃ m, ByEvents { s with mem := m } (freshLines s a n) ∧ m.cells = s.mem.cells := by
  unfold freshLines touchRegions
  dsimp only
  split
  · exact ⟨_, .refl _, rfl⟩
  · obtain ⟨m, hframe, hcells⟩ := setInit_frame s ((linesOf a n).map regionKey) ((elapsed s - s.mem.readyAt) / 1000000)
    exact ⟨_, hframe.withMem _, (congrArg MemSt.cells hframe.mem).trans hcells⟩

/-- A write to initialised lines changes memory alone. -/
theorem freshLines_initialised (h : ∀ x ∈ linesOf a n, initialised s x = true) :
    freshLines s a n = { s with mem := (freshLines s a n).mem } := by
  unfold freshLines touchRegions
  dsimp only
  rw [if_pos (List.all_eq_true.mpr h)]

theorem memByte_freshLines (s : State) (a n x : Nat) : memByte (freshLines s a n) x = memByte s x := by
  obtain ⟨m, hframe, hcells⟩ := freshLines_frame s a n
  rw [memByte, hframe.mem, memByte, ← hcells]

/-- Each byte after a write of sound memory. -/
theorem memByte_freshLines_poke (h : s.memWf = true) (a n : Nat) (bs : List Byte) (x : Nat) :
    memByte (freshLines (poke s a bs) a n) x =
      if a ≤ x ∧ x < a + bs.length then bs.getD (x - a) 0 else memByte s x := by
  rw [memByte_freshLines, memByte_poke h]

theorem freshLines_poke_lanes (s : State) (a n : Nat) (bs : List Byte) :
    (freshLines (poke s a bs) a n).lanes = s.lanes ∧ (freshLines (poke s a bs) a n).cmds = s.cmds := by
  obtain ⟨m, hframe, -⟩ := freshLines_frame (poke s a bs) a n
  exact ⟨hframe.lanes, hframe.cmds⟩

theorem natLe_size (n v : Nat) : (natLe n v).length = n := by
  induction n generalizing v with
  | zero => rfl
  | succ n ih => rw [natLe, List.length_cons, ih]

/-! ### Commit records -/

theorem commitBytes_length (r : CommitRec) : (commitBytes r).length = 64 := by
  simp only [commitBytes, List.length_append, natLe_size, List.length_replicate, List.length_cons, List.length_nil]

theorem writeRecord_sound {c : UpdCtx} {d : Shard} {r : CommitRec} (hhits : c.sur.hits = []) (h : Sound s d.commit 64) :
    writeRecord c s d r = (setF (setF (freshLines (poke s d.commit (commitBytes { r with stamp := timeNow s })) d.commit 64)
      UPD_LOSS_loss_log2 r.loss) UPD_LOSS_clean r.clean, .ok ()) := by
  have hlen := commitBytes_length { r with stamp := timeNow s }
  have hsound : Sound s d.commit (commitBytes { r with stamp := timeNow s }).length := hlen.symm ▸ h
  rw [writeRecord, updWrite, anyWrite, hhits, memWrite_sound hsound, hlen]
  rfl

/-- A skip reported changes no byte of memory, no lane and no command. -/
theorem reportSkip_frame (s : State) (step loss : Nat) : (reportSkip s step loss).mem = s.mem ∧
    (reportSkip s step loss).lanes = s.lanes ∧ (reportSkip s step loss).cmds = s.cmds := by
  unfold reportSkip
  split
  · exact ⟨rfl, rfl, rfl⟩
  · exact ⟨by rw [raiseEv_mem, satF_mem], by rw [raiseEv_lanes, satF_lanes], by rw [raiseEv_cmds, satF_cmds]⟩

theorem lossNext_bounds (p : CommitRec) (flag : Bool) (g : Nat) (h : p.loss ≤ 24) :
    (lossNext p flag g).1 ≤ 24 ∧ p.loss - 1 ≤ (lossNext p flag g).1 ∧ (lossNext p flag g).1 ≤ p.loss + 1 ∧
      ((lossNext p flag g).2.2 = true → flag = false ∧ (lossNext p flag g).1 = p.loss + 1) := by
  unfold lossNext
  cases flag
  · rw [if_neg (by decide)]
    split
    · refine ⟨by dsimp only; omega, by dsimp only; omega, by dsimp only; omega, fun hgrown => ⟨rfl, ?_⟩⟩
      have := of_decide_eq_true hgrown
      dsimp only
      omega
    · exact ⟨h, Nat.sub_le _ _, Nat.le_succ _, nofun⟩
  · rw [if_pos rfl]
    exact ⟨by dsimp only; omega, Nat.le_refl _, by dsimp only; omega, nofun⟩

/-- A skipped step writes its record and reports itself. -/
theorem sweepStep_skip {c : UpdCtx} {d : Shard} (p : CommitRec) (hflag : stepFlag s c.o.step = true) (hhits : c.sur.hits = [])
    (h : Sound s d.commit 64) :
    let next : CommitRec := { p with
      mode := c.o.mode, skipped := true, suspect := false, imported := false, k5 := k5Job s, step := c.o.step,
      epoch := c.epoch, loss := p.loss - 1, used := p.loss, clean := 0, count := d.count, tensor := d.tensor, layer := d.layer }
    sweepStep c s d p = (reportSkip (setF (setF (setF (freshLines (poke s d.commit (commitBytes { next with stamp := timeNow s }))
      d.commit 64) UPD_LOSS_loss_log2 (p.loss - 1)) UPD_LOSS_clean 0) UPD_STEP_step c.o.step) c.o.step (p.loss - 1),
      .ok { committed := true, skip := true, loss := p.loss - 1 }) := by
  intro next
  unfold sweepStep
  dsimp only
  rw [hflag, if_pos rfl, writeRecord_sound hhits h]
  rfl

end

/-- Settles O52: the record is the one write of the step. -/
theorem skippedStep : Obligations.SkippedStep := by
  refine ⟨fun c s d p hwf hflag hhits hsound halign => ?_, lossNext_bounds⟩
  intro next
  obtain ⟨hmem, hlanes, hcmds⟩ := reportSkip_frame (setF (setF (setF (freshLines (poke s d.commit
    (commitBytes { next with stamp := timeNow s })) d.commit 64) UPD_LOSS_loss_log2 (p.loss - 1)) UPD_LOSS_clean 0)
      UPD_STEP_step c.o.step) c.o.step (p.loss - 1)
  obtain ⟨hpoke, hpoke'⟩ := freshLines_poke_lanes s d.commit 64 (commitBytes { next with stamp := timeNow s })
  refine ⟨_, sweepStep_skip p hflag hhits hsound, fun x => ?_, ?_, ?_⟩
  · have hbyte := memByte_freshLines_poke hwf d.commit 64 (commitBytes { next with stamp := timeNow s }) x
    rw [commitBytes_length] at hbyte
    rw [memByte, hmem, setF_mem, setF_mem, setF_mem]
    exact hbyte
  · rw [hlanes, setF_lanes, setF_lanes, setF_lanes, hpoke]
  · rw [hcmds, setF_cmds, setF_cmds, setF_cmds, hpoke']

end Sys2Proof.Machine
end

section
/-! A write that initialises the last region of the cellar (09_memory R226): its event may signal by interrupt, so a row
written to memory can change the host interface's pending-bit array. -/

namespace Sys2Proof.Machine

/-- Every region's bit but that of region 0; the keys are the model's own. -/
@[irreducible] def laterRegions (n : Nat) : Table Bool := (List.range n).map (fun k => (k + 1, true))

theorem tget_laterRegions (n : Nat) : tget (fun _ => false) (laterRegions n) 0 = false := by
  unfold laterRegions
  generalize List.range n = ks
  induction ks with
  | nil => rfl
  | cons k ks ih => rwa [List.map_cons, tget, if_neg (Nat.succ_ne_zero k)]

theorem tset_laterRegions (n : Nat) : (tset (fun _ => false) (laterRegions n) 0 true).length = n + 1 := by
  unfold laterRegions
  rw [tset, if_neg (by decide)]
  cases n with
  | zero => rfl
  | succ n =>
    rw [List.range_succ_eq_map, List.map_cons, tput, if_pos (Nat.succ_pos 0)]
    simp

/-- One region of the cellar is not initialised; event ring 0 signals by a masked interrupt, and a command has its part on
lane 0 open. -/
def almostInit : State where
  regs := [(0x8108, 0x80001)]
  mem := { regions := laterRegions 780140543 }
  cmds := { table := [{ q := 0, idx := 0, bytes := [], parts := [{ lane := 0 }] }] }

/-- The state as the last region's event finds it. -/
def lastRegion (s : State) : State :=
  setF (setF { s with mem := { s.mem with regions := [], allInit := true } } CEL_STATE_init_gib 1488) CEL_STATE_init_done 1

theorem allRegions : 192 * channelRegions = 780140543 + 1 := by norm_num [channelRegions]

theorem setF_withMem (s : State) (f : Fld) (v : Nat) (m : MemSt) : { setF s f v with mem := m } = setF { s with mem := m } f v :=
  rfl

/-- The last region's event. -/
theorem setInit_last {s : State} {keys : List Nat} (ms : Nat)
    (hlen : (keys.foldl (fun t k => tset (fun _ => false) t k true) s.mem.regions).length = 192 * channelRegions)
    (hgib : getF s CEL_STATE_init_gib ≠ 1488) :
    setInit s keys ms = raiseEv (lastRegion s) pgCEL evCelInitDone [ms] := by
  unfold setInit
  extract_lets regions mem s1 gib s2 mem2
  have hgib1 : getF s1 CEL_STATE_init_gib ≠ 1488 := hgib
  have hnum : gib = 1488 := by
    show regions.length / 524288 = 1488
    rw [hlen, allRegions]
  have hs2 : s2 = setF s1 CEL_STATE_init_gib 1488 := by
    show (if getF s1 CEL_STATE_init_gib = gib then s1 else setF s1 CEL_STATE_init_gib gib) = _
    rw [hnum, if_neg hgib1]
  have hmem : mem2 = s1.mem := by
    show s2.mem = s1.mem
    rw [hs2, setF_mem]
  rw [if_pos hlen, lastRegion, hmem, hs2, setF_withMem]

theorem lastRegion_pends : (raiseEv (lastRegion almostInit) pgCEL evCelInitDone [0]).host.msixPending = [0] := by
  decide +kernel

section
variable {s : State}

theorem allRegions_length (hregions : s.mem.regions = laterRegions 780140543) :
    ([0].foldl (fun t k => tset (fun _ => false) t k true) s.mem.regions).length = 192 * channelRegions := by
  rw [List.foldl_cons, List.foldl_nil, hregions, tset_laterRegions, allRegions]

theorem last_not_initialised (hregions : s.mem.regions = laterRegions 780140543) (hall : s.mem.allInit = false) :
    (initialised s 0) = false := by
  rw [initialised, hregions, show regionKey 0 = 0 from rfl, tget_laterRegions, hall, Bool.or_false, Bool.or_false]
  rfl

/-- A write to the last region raises its event. -/
theorem freshLines_last {a n : Nat} (hregions : s.mem.regions = laterRegions 780140543) (hall : s.mem.allInit = false)
    (hgib : getF s CEL_STATE_init_gib ≠ 1488) (hlines : linesOf a n = [0]) :
    (freshLines s a n).host =
      (raiseEv (lastRegion s) pgCEL evCelInitDone [(elapsed s - s.mem.readyAt) / 1000000]).host := by
  unfold freshLines touchRegions
  dsimp only
  rw [hlines, List.all_cons, last_not_initialised hregions hall, Bool.false_and, if_neg (by decide), List.map_cons,
    List.map_nil, show regionKey 0 = 0 from rfl, setInit_last _ (allRegions_length hregions) hgib]

end

theorem freshLines_almostInit {n : Nat} (h : linesOf 0 n = [0]) : (freshLines almostInit 0 n).host.msixPending = [0] := by
  rw [freshLines_last (s := almostInit) rfl rfl (by decide) h]
  exact lastRegion_pends

theorem poke_almostInit (n : Nat) : poke almostInit 0 (List.replicate n 0) = almostInit := by
  have hcells : ∀ n a, pokeCells [] a (List.replicate n 0) = [] := fun n => by
    induction n with
    | zero => exact fun _ => rfl
    | succ n ih => exact fun a => ih (a + 1)
  rw [poke, show almostInit.mem.cells = [] from rfl, hcells]
  rfl

theorem almostInit_sound (a n : Nat) : Sound almostInit a n := fun _ _ => List.not_mem_nil

theorem almostInit_open : partOpen almostInit 0 0 0 = true := rfl

section
variable {s : State}

/-- A converted row read from sound memory is written to sound memory. -/
theorem convRow_written {c : ConvOp} {e : CmdEntry} (srcSh : Int) (sh : Option Int) (acc : ConvAcc) {r : Nat}
    (hfind : c.find = false) (hopen : partOpen s e.q e.idx (e.firstLane + r % e.laneCount) = true)
    (hsrc : Sound s (c.src + headerSize c.sf + r * (64 * c.srcPitch)) (rowSize c.sf c.cols)) {bs : List Byte}
    (hbs : (convertRow c.sf c.df c.cols srcSh sh
      (peek s (c.src + headerSize c.sf + r * (64 * c.srcPitch)) (rowSize c.sf c.cols))).bytes = bs)
    (hdst : Sound s (c.dst + headerSize c.df + r * (64 * c.dstPitch)) bs.length) :
    (convRow c e [] srcSh sh (s, acc) r).1 = freshLines (poke s (c.dst + headerSize c.df + r * (64 * c.dstPitch)) bs)
      (c.dst + headerSize c.df + r * (64 * c.dstPitch)) bs.length := by
  subst hbs
  unfold convRow convRead
  dsimp only
  rw [hopen, if_neg (by decide), memRead_sound hsrc]
  dsimp only
  rw [hfind, if_neg (by decide), memWrite_sound hdst]

/-- A product's row drained to sound memory in place. -/
theorem mmRow_drained {p : MmRun} {e : CmdEntry} {t : Nat} (m accRow j r : Nat) (bs : List Vec) (acc : MmAcc)
    (hopen : partOpen s e.q e.idx (tileLane e t) = true) (hacc : p.o.acc = 0) (hdrain : p.o.drain = 1)
    (hsrc : Sound s (p.o.a + headerSize p.o.af + r * (64 * p.o.aPitch)) (rowSize p.o.af p.o.k)) {u : State} {a : Vec}
    (ha : a = ⟨p.o.af, p.o.k, p.shA, peek s (p.o.a + headerSize p.o.af + r * (64 * p.o.aPitch)) (rowSize p.o.af p.o.k)⟩)
    (hfill : fillRow s (tileLane e t) p.mode (Config.shelfBase t) m a = u) {out : List Byte}
    (hout : ((bs.mapIdx (fun c b => elementSum p.mode a b p.o.k none (mmRnd p e r (128 * j + c)))).map
      (drainBits p.o.out)).flatMap (natLe (outSize p.o.out)) = out)
    (hdst : Sound u (p.o.c + r * (64 * p.o.cPitch) + 128 * j * outSize p.o.out) out.length) :
    (mmRow p e t m accRow j bs (s, acc) r).1 =
      freshLines (poke u (p.o.c + r * (64 * p.o.cPitch) + 128 * j * outSize p.o.out) out)
        (p.o.c + r * (64 * p.o.cPitch) + 128 * j * outSize p.o.out) out.length := by
  subst hout ha hfill
  unfold mmRow drainRow
  dsimp only
  rw [hopen, if_neg (by decide), memRead_sound hsrc]
  dsimp only
  simp only [hacc, hdrain, show keeps 0 1 = false from rfl, if_neg (show ¬ (0 : Nat) = 1 by decide),
    if_neg (show ¬ (1 : Nat) = 2 by decide), if_neg (show ¬ (1 : Nat) = 0 by decide), if_neg Bool.false_ne_true]
  rw [memWrite_sound hdst]

end

/-- The command of almostInit. -/
def lane0Cmd : CmdEntry := { q := 0, idx := 0, bytes := [], parts := [{ lane := 0 }] }

/-- One binary32 value copied from the attic to the cellar's first line. -/
def oneValue : ConvOp where
  find := false
  src := 0x100000000000
  dst := 0
  rows := 1
  cols := 1
  srcPitch := 1
  dstPitch := 1
  sf := 6
  df := 6
  method := 0
  given := 0
  slot := 0xFFFF
  step := 0

theorem oneValue_bytes : (convertRow 6 6 1 0 none (peek almostInit 0x100000000000 64)).bytes = List.replicate 64 0 := by
  decide +kernel

theorem oneValue_pends (acc : ConvAcc) : (convRow oneValue lane0Cmd [] 0 none (almostInit, acc) 0).1.host.msixPending = [0] := by
  rw [convRow_written 0 none acc rfl almostInit_open (almostInit_sound _ _) oneValue_bytes (almostInit_sound _ _),
    show oneValue.dst + headerSize oneValue.df + 0 * (64 * oneValue.dstPitch) = 0 from rfl, poke_almostInit,
    freshLines_almostInit (by decide)]

/-- Refutes O47: a converted row may initialise the cellar's last region, whose event pends an interrupt. -/
theorem not_movedRows : ¬ Obligations.MovedRows := by
  intro h
  obtain ⟨-, hconv⟩ := h
  obtain ⟨-, hframe, -⟩ := hconv almostInit oneValue lane0Cmd 0 none ⟨fpZero, 0, 0, false, []⟩ 0 rfl rfl almostInit_open
    (almostInit_sound _ _) (almostInit_sound _ _)
  have hpend := oneValue_pends ⟨fpZero, 0, 0, false, []⟩
  rw [congrArg State.host hframe] at hpend
  exact absurd hpend (by decide)

/-- An empty product of binary32 sums, drained in place to the cellar's first line. -/
def emptyProduct : MmRun where
  o := {
    a := 0x100000000000, b := 0, c := 0, aPitch := 1, bPitch := 1, cPitch := 1, mblk := 1, m := 1, k := 0, n := 1, af := 0,
    bf := 0, out := 0, acc := 0, drain := 1, row := 0, slot := 0, redLen := 0, step := 0, row0 := 0, col0 := 0, landing := 0,
    fused := false }
  mode := .int8
  shA := 0
  shB := 0
  baseB := 0
  stoch := false
  seed := 0

theorem emptyProduct_bytes : ((([⟨0, 0, 0, []⟩] : List Vec).mapIdx (fun c b => elementSum emptyProduct.mode
    ⟨0, 0, 0, peek almostInit 0x100000000000 0⟩ b 0 none (mmRnd emptyProduct lane0Cmd 0 (128 * 0 + c)))).map
      (drainBits 0)).flatMap (natLe (outSize 0)) = List.replicate 4 0 := by decide +kernel

theorem emptyProduct_pends :
    (mmRow emptyProduct lane0Cmd 0 0 0 0 [⟨0, 0, 0, []⟩] (almostInit, {}) 0).1.host.msixPending = [0] := by
  have hfill : fillRow almostInit (tileLane lane0Cmd 0) emptyProduct.mode (Config.shelfBase 0) 0
      ⟨0, 0, 0, peek almostInit 0x100000000000 0⟩ = almostInit := rfl
  rw [mmRow_drained (p := emptyProduct) (e := lane0Cmd) 0 0 0 0 [⟨0, 0, 0, []⟩] {} almostInit_open rfl rfl
    (almostInit_sound _ _) rfl hfill emptyProduct_bytes (almostInit_sound _ _)]
  show (freshLines (poke almostInit 0 (List.replicate 4 0)) 0 4).host.msixPending = [0]
  rw [poke_almostInit, freshLines_almostInit (by decide)]

/-- Refutes O44: a row drained may initialise the cellar's last region, whose event pends an interrupt. -/
theorem not_productRows : ¬ Obligations.ProductRows := by
  intro h
  obtain ⟨hrow, -⟩ := h
  obtain ⟨-, hframe, -⟩ := hrow almostInit emptyProduct lane0Cmd 0 0 0 0 0 [⟨0, 0, 0, []⟩] {} rfl almostInit_open rfl rfl
    (by decide) (almostInit_sound _ _) (almostInit_sound _ _)
  have hpend := emptyProduct_pends
  rw [congrArg State.host hframe] at hpend
  exact absurd hpend (by decide)

end Sys2Proof.Machine
end

section
/-! The JTAG port (02_module R50). -/

namespace Sys2Proof.Machine

section
variable {r s t : State} {tms tdi : Bool} {x : BoardPins}

/-- The port's state, the free-value counter and what was sent are all that t changes. -/
def Scanned (s t : State) : Prop :=
  t = { s with stw := { s.stw with jtag := t.stw.jtag }, freeCtr := t.freeCtr, out := t.out }

theorem Scanned.refl (s : State) : Scanned s s := rfl

theorem Scanned.trans (h : Scanned r s) (h' : Scanned s t) : Scanned r t := by
  unfold Scanned at *
  rw [h] at h'
  exact h'

theorem Scanned.setJtag (s : State) (j : JtagSt) : Scanned s (setJtag s j) := rfl

/-! ### The rising edge -/

theorem tckRise_scanned (s : State) (tms tdi : Bool) (x : BoardPins) : Scanned s (tckRise s tms tdi x) := by
  unfold tckRise
  dsimp only
  split
  · rfl
  · rfl
  · split
    · rfl
    split <;> rfl
  · rfl
  · rfl

theorem tckRise_tap (s : State) (tms tdi : Bool) (x : BoardPins) :
    (tckRise s tms tdi x).stw.jtag.tap = tapNext s.stw.jtag.tap tms := by
  unfold tckRise
  dsimp only
  split
  · rfl
  · rfl
  · split
    · rfl
    split <;> rfl
  · rfl
  · rfl

/-- A scan moves no register. -/
theorem tckRise_regs (s : State) (tms tdi : Bool) (x : BoardPins) : (tckRise s tms tdi x).regs = s.regs := by
  have h := tckRise_scanned s tms tdi x
  unfold Scanned at h
  exact (congrArg State.regs h).trans rfl

/-- Without a debug unlock the network is not reached. -/
theorem tckRise_locked (h : isSet s SEC_STATE_debug = false) : (tckRise s tms tdi x).freeCtr = s.freeCtr ∧
    (tckRise s tms tdi x).stw.jtag.instruments = s.stw.jtag.instruments := by
  have hnetwork : ∀ i, scansNetwork s i = false := fun i => by rw [scansNetwork, h, Bool.and_false]
  unfold tckRise
  dsimp only
  split
  · exact ⟨rfl, rfl⟩
  · exact ⟨rfl, rfl⟩
  · rw [hnetwork, if_neg Bool.false_ne_true]
    split <;> exact ⟨rfl, rfl⟩
  · exact ⟨rfl, rfl⟩
  · exact ⟨rfl, rfl⟩

theorem tckRise_capture (htap : s.stw.jtag.tap = .captureDr) (hscan : scansBoundary s.stw.jtag.ins = true) :
    (tckRise s tms tdi x).stw.jtag.dr = pinLevels s tms tdi x := by
  rw [tckRise, htap]
  dsimp only
  rw [if_pos hscan]
  rfl

theorem tckRise_shift (htap : s.stw.jtag.tap = .shiftDr) : tckRise s tms tdi x =
    setJtag s { s.stw.jtag with tap := tapNext .shiftDr tms, dr := s.stw.jtag.dr.drop 1 ++ [tdi] } := by
  rw [tckRise, htap]

/-! ### The falling edge -/

theorem tckFall_scanned (s : State) : Scanned s (tckFall s) := by
  unfold tckFall
  dsimp only
  split
  · rfl
  · rfl
  · rfl
  · rfl
  · split
    · rfl
    split <;> rfl
  · rfl

theorem tckFall_tap (s : State) : (tckFall s).stw.jtag.tap = s.stw.jtag.tap ∧ (tckFall s).stw.jtag.dr = s.stw.jtag.dr ∧
    (tckFall s).freeCtr = s.freeCtr := by
  unfold tckFall
  dsimp only
  split
  · exact ⟨rfl, rfl, rfl⟩
  · exact ⟨rfl, rfl, rfl⟩
  · exact ⟨rfl, rfl, rfl⟩
  · exact ⟨rfl, rfl, rfl⟩
  · split
    · exact ⟨rfl, rfl, rfl⟩
    split <;> exact ⟨rfl, rfl, rfl⟩
  · exact ⟨rfl, rfl, rfl⟩

theorem tckFall_locked (h : isSet s SEC_STATE_debug = false) :
    (tckFall s).stw.jtag.instruments = s.stw.jtag.instruments := by
  have hnetwork : ∀ i, scansNetwork s i = false := fun i => by rw [scansNetwork, h, Bool.and_false]
  unfold tckFall
  dsimp only
  split
  · rfl
  · rfl
  · rfl
  · rfl
  · rw [hnetwork, if_neg Bool.false_ne_true]
    split <;> rfl
  · rfl

/-- Two edges of a shift that goes on. -/
theorem tckCycle_shift (htap : s.stw.jtag.tap = .shiftDr) :
    (tckFall (tckRise s false tdi x)).stw.jtag.dr = s.stw.jtag.dr.drop 1 ++ [tdi] ∧
    (tckFall (tckRise s false tdi x)).out = s.out ++ [.tdo ((s.stw.jtag.dr.drop 1 ++ [tdi]).headD false)] := by
  rw [tckRise_shift htap]
  exact ⟨rfl, rfl⟩

theorem pinLevels_length (s : State) (tms tdi : Bool) (x : BoardPins) : (pinLevels s tms tdi x).length = 31 := by
  simp [pinLevels]

end

/-- Settles O27: the two edges of a cycle, one after the other. -/
theorem boundaryScan : Obligations.BoundaryScan := by
  refine ⟨fun s tms x hlife => ?_, fun s tms x hlife => ?_, pinLevels_length, fun j => by cases j <;> rfl⟩
  · rw [exec, execJtagAccess, jtagAccess, if_neg hlife, if_pos (by decide)]
    rfl
  · have hfall := tckFall_tap (tckRise s tms x.tdi x)
    refine ⟨tckFall (tckRise s tms x.tdi x), ?_, hfall.1.trans (tckRise_tap ..),
      (tckRise_scanned ..).trans (tckFall_scanned _), fun hdebug => ?_, fun htap hscan => ?_, fun htap htms => ?_⟩
    · rw [exec, execJtagAccess, jtagAccess, if_neg hlife, if_neg (by decide)]
    · obtain ⟨hctr, hins⟩ := tckRise_locked (tms := tms) (tdi := x.tdi) (x := x) hdebug
      exact ⟨hfall.2.2.trans hctr,
        (tckFall_locked ((isSet_congr (tckRise_regs s tms x.tdi x) _).trans hdebug)).trans hins⟩
    · exact hfall.2.1.trans (tckRise_capture htap hscan)
    · subst htms
      exact tckCycle_shift htap

end Sys2Proof.Machine
end

section
/-! Doorbells and fetches (05_commands R98 to R100). -/

namespace Sys2Proof.Machine

section
variable {s : State} {q : Nat}

theorem onQueue_of (hq : q < 64) (t : State) : onInstance (isQueue q) t = .next t := by
  rw [isQueue, onInstance_of (decide_eq_true hq)]

theorem issueCmd_eq (s : State) (q : Nat) (bytes : List Byte) :
    let i := getF s (CMD_Q_HEAD_head q)
    let e : CmdEntry := { q := q, idx := i, bytes := bytesAt bytes 0 64 }
    let s1 := setF { s with cmds := { s.cmds with table := s.cmds.table ++ [e] } } (CMD_Q_HEAD_head q) ((i + 1) % 2 ^ 32)
    let s2 := latchAll (setF s1 CMD_INFLIGHT_peak (max (getF s1 CMD_INFLIGHT_peak) (s.cmds.table.length + 1)))
    issueCmd s q bytes = if cmdOk e then s2 else endCmd s2 q i 0x01 0 [] := by
  intro i e s1 s2
  have hlen : s1.cmds.table.length = s.cmds.table.length + 1 := List.length_append
  rw [issueCmd]
  dsimp only
  rw [show (setF { s with cmds := { s.cmds with table := s.cmds.table ++ [e] } } (CMD_Q_HEAD_head q)
    ((i + 1) % 2 ^ 32)).cmds.table.length = s.cmds.table.length + 1 from hlen]
  rfl

theorem fetchCmd_host (hmay : mayFetch s q = true) (hloc : isSet s (CMD_Q_CFG_loc q) = false) (bytes : List Byte) :
    fetchCmd s q (some bytes) = issueCmd s q bytes := by
  rw [fetchCmd, hmay, if_neg (by decide)]
  dsimp only
  rw [hloc, if_pos (by decide)]

theorem fetchCmd_fails (hmay : mayFetch s q = true) : fetchCmd s q none = failFetch s q := by
  unfold fetchCmd
  rw [hmay, if_neg (by decide)]

theorem fetchCmd_idle (hmay : mayFetch s q = false) (f : Option (List Byte)) : fetchCmd s q f = s := by
  unfold fetchCmd
  rw [hmay, if_pos (by decide)]

end

/-- Settles O28. -/
theorem fetchAndDoorbell : Obligations.FetchAndDoorbell := by
  refine ⟨fun s q v hq hopen => ?_, fun s q bytes hq hmay hloc => ?_, fun s q hq hmay => ?_, fun s q f hq hmay => ?_⟩
  · intro bad
    constructor <;> intro hbad <;> rw [exec, execDoorbell, onQueue_of hq, onPage_of hopen, doorbell]
    · rw [if_neg (of_decide_eq_false hbad)]
    · rw [if_pos (of_decide_eq_true hbad)]
      rfl
  · intro i e s1 s2
    rw [exec, execCommandFetch, onQueue_of hq, fetchCmd_host hmay hloc, issueCmd_eq]
  · rw [exec, execCommandFetch, onQueue_of hq, fetchCmd_fails hmay, failFetch, blkFault]
    rfl
  · rw [exec, execCommandFetch, onQueue_of hq, fetchCmd_idle hmay]

end Sys2Proof.Machine
end

section
/-! Retirement and timeouts (05_commands R113, R118 to R122). -/

namespace Sys2Proof.Machine

section
variable {s : State} {q idx n : Nat} {e : CmdEntry}

/-! ### What a packet sent leaves alone -/

theorem pumpGo_cmds (fuel : Nat) (s : State) (n : Nat) : (pumpGo fuel s n).cmds = s.cmds := by
  induction fuel generalizing s with
  | zero => rfl
  | succ fuel ih =>
    simp only [pumpGo]
    split
    · rfl
    · split
      · rfl
      · rfl
      · split
        · rfl
        · exact ih _

theorem respond_cmds (s : State) (p : Packet) (st : Nat) (data : List Byte) : (respond s p st data).cmds = s.cmds := by
  unfold respond
  dsimp only
  split
  · rfl
  · unfold transmit
    dsimp only
    split
    · rfl
    · exact pumpGo_cmds ..

/-! ### Adding to a counter keeps the hurdle -/

theorem answerWatches_cmds (s : State) : (answerWatches s).cmds = s.cmds := by
  have hfold : ∀ (ws : List Watch) (s : State), (ws.foldl (fun s w => respond s w.pkt 0 []) s).cmds = s.cmds := by
    intro ws
    induction ws with
    | nil => exact fun _ => rfl
    | cons w ws ih => exact fun s => (ih _).trans (respond_cmds ..)
  exact hfold ..

theorem lapAdd_hurdle (s : State) (n v src : Nat) : (lapAdd s n v src).1.cmds.hurdle = s.cmds.hurdle := by
  unfold lapAdd
  split
  · rfl
  · dsimp only
    rw [settleLaps, answerWatches_cmds]
    show (ite _ _ _ : State).cmds.hurdle = _
    split
    · rw [raiseEv_cmds]
      rfl
    · rfl

/-! ### Steps of a retirement -/

theorem resumeDispatch_idle (h : s.cmds.hurdle ≠ some (q, idx)) : resumeDispatch s q idx = s := by
  rw [resumeDispatch, if_neg h]

theorem reportCommand_ok (h : e.status = 0) : reportCommand s e = s := by rw [reportCommand, if_pos h]

theorem startAudit_other (h : e.status = 0 → e.opcode ≠ 0x0401) : startAudit s e = s := by
  unfold startAudit
  dsimp only
  rw [if_neg fun hc => h hc.2.1 hc.1]

/-- The completion of a command that ended without OK, or that has no signal. -/
theorem completeCmd_noSignal (hsig : e.status ≠ 0 ∨ refValid e.sigRef = false) (hop : e.status = 0 → e.opcode ≠ 0x0401)
    (hirq : e.irq = false) : completeCmd s e false =
      resumeDispatch (dropCmd (if e.quiet = true ∧ e.status = 0 then s else writeCompletion s e) e.q e.idx) e.q e.idx := by
  have hlocal : (if e.status = 0 then localSignal s e else none) = none := by
    rcases hsig with h | h
    · rw [if_neg h]
    · rw [localSignal, h, if_neg Bool.false_ne_true, ite_self]
  unfold completeCmd
  dsimp only
  rw [hlocal]
  dsimp only
  rw [if_neg Bool.false_ne_true, if_neg Bool.false_ne_true, startAudit_other hop, hirq, if_neg Bool.false_ne_true]

theorem completeCmd_unsignalled (hsig : e.status ≠ 0 ∨ refValid e.sigRef = false)
    (hop : e.status = 0 → e.opcode ≠ 0x0401) (hirq : e.irq = false) (hhurdle : s.cmds.hurdle ≠ some (e.q, e.idx)) :
    completeCmd s e false = dropCmd (if e.quiet = true ∧ e.status = 0 then s else writeCompletion s e) e.q e.idx := by
  rw [completeCmd_noSignal hsig hop hirq, resumeDispatch_idle]
  split <;> exact hhurdle

/-- A signal to a counter of this module that is not held. -/
theorem completeCmd_adds (hstatus : e.status = 0) (hsig : localSignal s e = some n) (hheld : lapHeld s n = false)
    (hstore : e.opcode ≠ 0x0602) (hop : e.opcode ≠ 0x0401) (hquiet : e.quiet = false)
    (hirq : e.irq = false) (hhurdle : s.cmds.hurdle ≠ some (e.q, e.idx)) :
    completeCmd s e false = dropCmd (lapAdd (writeCompletion s e) n e.sigAdd 0).1 e.q e.idx := by
  have hadd : e.storeSignal = false := by rw [CmdEntry.storeSignal, beq_false_of_ne hstore, Bool.false_and]
  have hidle : (lapAdd (writeCompletion s e) n e.sigAdd 0).1.cmds.hurdle ≠ some (e.q, e.idx) := by
    rw [lapAdd_hurdle]
    exact hhurdle
  unfold completeCmd
  simp only [hstatus, if_true, hsig, hadd, hheld, hquiet, hirq, Bool.false_eq_true, false_and, Bool.not_false, Bool.and_false,
    if_false, startAudit_other (e := e) fun _ => hop]
  exact resumeDispatch_idle hidle

/-- A local signal is no remote one, and none asks for a rank. -/
theorem refEnd_local (h : refValid e.sigRef = false ∨ refRemote e.sigRef = false) :
    refEnd s e.sigRef = none ∧ remoteSignal s e = none := by
  have huses : usesRemote e.sigRef = false := by
    rcases h with h | h <;> rw [usesRemote, h]
    · exact Bool.false_and _
    · exact Bool.and_false _
  exact ⟨refEnd_of_local huses, by rw [remoteSignal, huses, if_neg Bool.false_ne_true]⟩

/-- An ended command whose writes are acknowledged reports itself and completes, where it signals no other module. -/
theorem retire_ended (hfind : findCmd s q idx = some e) (hstage : e.stage = .ended) (hack : unacknowledged s q idx = false)
    (hsig : e.status ≠ 0 ∨ refValid e.sigRef = false ∨ refRemote e.sigRef = false) :
    retire s q idx false false = completeCmd (reportCommand s e) e false := by
  have hnone : (if e.status = 0 then refEnd s e.sigRef else none) = none ∧
      (if e.status = 0 then remoteSignal (reportCommand s e) e else none) = none := by
    rcases hsig with h | h
    · rw [if_neg h, if_neg h]
      exact ⟨rfl, rfl⟩
    · rw [(refEnd_local h).1, (refEnd_local (s := reportCommand s e) h).2, ite_self]
      exact ⟨rfl, rfl⟩
  unfold retire
  simp only [hfind, hstage, hack, Bool.false_eq_true, if_false, hnone.1, hnone.2]

theorem retire_waits (hfind : findCmd s q idx = some e) (hstage : e.stage = .ended) (hack : unacknowledged s q idx = true)
    (tf cf : Bool) : retire s q idx tf cf = s := by
  unfold retire
  simp only [hfind, hstage, hack, if_true]

/-! ### Timeouts -/

theorem dropHurdle_other (h : s.cmds.hurdle ≠ some (q, idx)) : dropHurdle s q idx = s := by
  rw [dropHurdle, if_neg fun hc => h hc.1]

/-- The runs of a command's units are taken away. -/
def unitsLeft (s : State) (q idx : Nat) : State :=
  { s with
    upd := { s.upd with runs := s.upd.runs.filter (fun r => !(r.q == q && r.idx == idx)) },
    mil := { s.mil with
      runs := s.mil.runs.filter (fun r => !(r.q == q && r.idx == idx)),
      sends := s.mil.sends.filter (fun m => !(m.q == q && m.idx == idx)) } }

theorem stopCmd_issued (hfind : findCmd s q idx = some e) (hparts : e.parts = []) (hop : e.opcode ≠ 0x0110) (st d : Nat)
    (result : List Byte) : stopCmd s q idx st d result = dropWatches (endCmd s q idx st d result) q idx := by
  unfold stopCmd
  simp only [hfind, hparts, List.foldl_nil, hop, if_false]

theorem commandTimeout_issued (hfind : findCmd s q idx = some e) (hstage : e.stage = .issued) (hparts : e.parts = [])
    (hop : e.opcode ≠ 0x0110) (hrun : findRun s q idx = none) (hhurdle : s.cmds.hurdle ≠ some (q, idx)) :
    commandTimeout s q idx = dropWatches (endCmd (unitsLeft s q idx) q idx 0x02 0
      (if e.cls = 1 then productResult e else [])) q idx := by
  have hwait : waitsToSignal s e = false := by rw [waitsToSignal, hstage]; rfl
  have hhalt : haltCmd s q idx stTimeout = stopCmd (unitsLeft s q idx) q idx stTimeout 0
      (if e.cls = 1 then productResult e else []) := by
    unfold haltCmd
    rw [hfind]
    dsimp only
    rw [hstage, if_pos (.inl rfl), if_neg (by decide), dropHurdle_other (by exact hhurdle)]
    split
    next r h => exact absurd ((show findRun s q idx = some r from h).symm.trans hrun) nofun
    next => rfl
  have hfind' : findCmd (unitsLeft s q idx) q idx = some e := hfind
  unfold commandTimeout
  rw [hrun, if_neg (by decide), hfind]
  dsimp only
  rw [hwait, if_neg (by decide), hhalt, stopCmd_issued hfind' hparts hop]
  rfl

end

/-- A completion record, its phase last. -/
theorem writeCompletion_eq (s : State) {e : CmdEntry} (h : e.status = 0) :
    let i := getF s (CMD_CQ_TAIL_cq_tail e.q)
    writeCompletion s e = { s with
      regs := (setF s (CMD_CQ_TAIL_cq_tail e.q) ((i + 1) % 2 ^ 32)).regs,
      out := s.out ++ [.hostWrite (cqSlot s e.q i + 4) (natLe 4 e.idx ++ natLe 8 e.endTime ++ natLe 2 e.opcode ++
          natLe 2 e.detail ++ bytesAt e.result 0 12),
        .hostWrite (cqSlot s e.q i) (natLe 4 (e.cmdId + (if i / queueSize s e.q % 2 = 0 then 2 ^ 31 else 0)))] } := by
  intro i
  rw [writeCompletion, h, Nat.mul_zero, Nat.add_zero]
  unfold emit setF setReg
  dsimp only
  rw [List.append_assoc]
  rfl

theorem onQueueRunning_of {s : State} {q : Nat} (hq : q < 64) (hlife : s.life = .running) (t : State) :
    onInstance (isQueue q) (whileRunning s t) = .next t := by
  rw [onQueue_of hq, whileRunning_of hlife]

/-- Settles O29. -/
theorem retirement : Obligations.Retirement := by
  refine ⟨fun s q idx e hq hlife hfind hstage hack hhurdle hstatus hsig hirq hop => ?_,
    fun s q idx n e hq hlife hfind hstage hack hhurdle hstatus hsig hlocal hindex hirq hop hstore hquiet hheld => ?_,
    fun s q idx e hq hlife hfind hstage hack hhurdle hstatus hirq => ?_,
    fun s q idx e tf cf hq hfind hstage hack => ?_,
    fun s q idx e hq hlife hfind hstage hparts hop hrun hhurdle => ?_⟩
  · obtain ⟨rfl, rfl⟩ := findCmd_key hfind
    have hretire : exec (.commandRetire e.q e.idx false false) s =
        .next (dropCmd (if e.quiet = true ∧ e.status = 0 then s else writeCompletion s e) e.q e.idx) := by
      rw [exec, execCommandRetire, onQueueRunning_of hq hlife, retire_ended hfind hstage hack (.inr (.inl hsig)),
        reportCommand_ok hstatus, completeCmd_unsignalled (.inr hsig) (fun _ => hop) hirq hhurdle]
    refine ⟨fun hquiet => ?_, fun hquiet => ⟨_, hretire, ?_⟩⟩
    · rw [hretire, if_pos ⟨hquiet, hstatus⟩]
    · rw [if_neg (by simp [hquiet]), writeCompletion_eq s hstatus]
      exact ⟨rfl, rfl, rfl⟩
  · obtain ⟨rfl, rfl⟩ := findCmd_key hfind
    have hsome : localSignal s e = some n := by rw [localSignal, if_pos hsig, localIndex, hlocal, if_pos (by decide), hindex]
    rw [exec, execCommandRetire, onQueueRunning_of hq hlife, retire_ended hfind hstage hack (.inr (.inr hlocal)),
      reportCommand_ok hstatus, completeCmd_adds hstatus hsome hheld hstore hop hquiet hirq hhurdle]
  · obtain ⟨rfl, rfl⟩ := findCmd_key hfind
    rw [exec, execCommandRetire, onQueueRunning_of hq hlife, retire_ended hfind hstage hack (.inl hstatus), reportCommand,
      if_neg hstatus, completeCmd_unsignalled (.inl hstatus) (fun h => absurd h hstatus) hirq
        (by rw [raiseEv_cmds]; exact hhurdle), if_neg fun h => hstatus h.2]
    rfl
  · rw [exec, execCommandRetire, onQueue_of hq, retire_waits hfind hstage hack, whileRunning, ite_self]
  · rw [exec, execCommandTimeout, onQueueRunning_of hq hlife, commandTimeout_issued hfind hstage hparts hop hrun hhurdle]
    rfl

end Sys2Proof.Machine
end

section
/-! The job declaration and tensor slots (07_numerics R173, R180), and the code tables' slots (10_cabouz R248). -/

namespace Sys2Proof.Machine

section
variable {s : State} {n gen : Nat}

/-! ### Tensor slots -/

theorem slotFree_of_empty (h : s.cmds.table = []) (w : SlotWait) : slotFree s w = true := by rw [slotFree, h]; rfl

theorem commitWindow_free (h : s.cmds.table = []) (v : Word) : commitWindow s v =
    setSlot { s with num := { s.num with staged := [] } } (getF s NUM_SLOT_SEL_slot)
      (withWords (slotRec s (getF s NUM_SLOT_SEL_slot)) (tput 19 v s.num.staged)) := by
  unfold commitWindow commitSlot
  dsimp only
  rw [slotFree_of_empty (by exact h), if_pos rfl]
  rfl

theorem commitWaiting_one {w : SlotWait} (hwait : s.num.waiting = [w]) (h : s.cmds.table = []) : commitWaiting s =
    setF (setSlot { s with num := { s.num with waiting := [] } } w.slot (withWords (slotRec s w.slot) w.words))
      NUM_SLOT_SEL_busy 0 := by
  have hfree := slotFree_of_empty h w
  unfold commitWaiting
  dsimp only
  rw [hwait, List.filter_cons_of_pos hfree, List.filter_nil, List.filter_cons_of_neg (by rw [hfree]; decide), List.filter_nil]
  rfl

/-! ### Table slots -/

theorem commitWord_bits : ∀ g < 16, bitsOf (BitVec.ofNat 32 (g % 16 + 0x100)).toNat 0 4 = g ∧
    bitOf (BitVec.ofNat 32 (g % 16 + 0x100)).toNat 8 = true ∧ bitOf (BitVec.ofNat 32 (g % 16 + 0x100)).toNat 9 = false := by
  decide

theorem retireWord_bits : ∀ g < 16, bitsOf (BitVec.ofNat 32 (g + 0x200)).toNat 0 4 = g ∧
    bitOf (BitVec.ofNat 32 (g + 0x200)).toNat 8 = false ∧ bitOf (BitVec.ofNat 32 (g + 0x200)).toNat 9 = true := by
  decide

theorem exec_tableCommit (hn : n < 16) (hgen : gen < 16) (hopen : regsOpen s (pgCbzTbl (n / 4)) = true) :
    exec (.tableCommit n gen) s = .next (tableCommit (setF s (CBZ_TBL_CTRL_new_gen n) gen) n gen) := by
  obtain ⟨hbits, hcommit, hretire⟩ := commitWord_bits gen hgen
  rw [exec, execTableCommit, onPage_of hopen, isSlotC, onInstance_of (decide_eq_true hn), tableCtrlWrite, hbits, hcommit, hretire, if_neg (by decide), if_pos rfl]

theorem exec_tableRetire (hn : n < 16) (hopen : regsOpen s (pgCbzTbl (n / 4)) = true) :
    exec (.tableRetire n) s =
      .next (tableRetire (setF s (CBZ_TBL_CTRL_new_gen n) (getF s (CBZ_TBL_CTRL_new_gen n))) n) := by
  obtain ⟨hbits, hcommit, hretire⟩ := retireWord_bits (getF s (CBZ_TBL_CTRL_new_gen n)) (getF_lt s (CBZ_TBL_CTRL_new_gen n))
  rw [exec, execTableRetire, onPage_of hopen, isSlotC, onInstance_of (decide_eq_true hn), tableCtrlWrite, hbits, hcommit, hretire, if_neg (by decide), if_neg (by decide), if_pos rfl]

/-- A commit that is refused. -/
theorem badCommit_eq (s : State) (n gen r : Nat) : badCommit s n gen r =
    raiseEv (satF s (CBZ_TBL_STATE_denied n) 1) pgCBZ ⟨0x4405, 2⟩ [n, gen, r] := rfl

section
variable {t : CbzSlot} (ht : cbzSlot s n = t)
include ht

theorem tableCommit_draining (h : t.state = 2) : tableCommit s n gen = badCommit s n gen 5 := by
  rw [tableCommit, ht, if_pos h]

theorem tableCommit_bad {r : Nat} (h : t.state ≠ 2) (hbad : tableFault (t.bank (!t.cur)) = some r) :
    tableCommit s n gen = badCommit s n gen r := by
  rw [tableCommit, ht, if_neg h, hbad]

theorem tableCommit_held (h : t.state ≠ 2) (hgood : tableFault (t.bank (!t.cur)) = none) (hheld : t.holds gen = true) :
    tableCommit s n gen = badCommit s n gen 4 := by
  rw [tableCommit, ht, if_neg h, hgood]
  dsimp only
  rw [if_pos hheld]

theorem tableCommit_empty (h : t.state = 0) (hgood : tableFault (t.bank (!t.cur)) = none) (hheld : t.holds gen = false) :
    tableCommit s n gen = raiseEv (setCbz s n { t with cur := !t.cur, curGen := gen, curRefs := 0, state := 1 }) pgCBZ
      ⟨0x4403, 1⟩ [n, gen, 0xFF] := by
  rw [tableCommit, ht, h, if_neg (by decide), hgood]
  dsimp only
  rw [hheld, if_neg (by decide), if_neg (by decide), if_pos rfl, if_pos rfl]
  rfl

theorem tableCommit_ready (h : t.state = 1) (hgood : tableFault (t.bank (!t.cur)) = none) (hheld : t.holds gen = false) :
    let s1 := raiseEv (setCbz s n { t with
      cur := !t.cur, curGen := gen, curRefs := 0, state := 2, oldGen := t.curGen, oldRefs := t.curRefs }) pgCBZ ⟨0x4403, 1⟩
      [n, gen, t.curGen]
    tableCommit s n gen = if t.curRefs = 0 then freeOld s1 n else s1 := by
  rw [tableCommit, ht, h, if_neg (by decide), hgood]
  dsimp only
  rw [hheld, if_neg Bool.false_ne_true, if_pos rfl, if_neg (show ¬ 1 = 0 by decide), if_pos rfl]
  rfl

theorem tableRetire_eq : tableRetire s n = if t.state = 1 then setCbz s n (if t.curRefs = 0 then { t with state := 0 }
      else { t with state := 3, oldGen := t.curGen, oldRefs := t.curRefs, curRefs := 0 })
    else satF s (CBZ_TBL_STATE_denied n) 1 := by
  rw [tableRetire, ht]
  rfl

end

end

/-- Settles O32. -/
theorem jobSlotsAndTables : Obligations.JobSlotsAndTables := by
  refine ⟨fun s v hopen => ?_, fun s v hopen => ?_, fun s v hopen hempty => ?_, fun s w hwait hempty => ?_,
    fun s n gen hn hgen hopen => ?_, fun s n hn hwf hopen => ?_⟩
  · intro rev sr s1
    have hrun : exec (.jobDeclare v) s = .next (declareJob s v) := by rw [exec, execJobDeclare, onPage_of hopen]
    have hdecl : jobCommandIssued s = false → 8 ≤ sr → sr ≤ 24 → ¬ (jobCommandIssued s = true ∨ sr < 8 ∨ 24 < sr) :=
      fun h h1 h2 =>
      not_or.mpr ⟨by rw [h]; decide, by omega⟩
    refine ⟨fun hnone h8 h24 hrev => ?_, fun hnone h8 h24 hrev h0 => ?_, fun hnone h8 h24 hrev h0 => ⟨_, hrun, ?_⟩,
      fun hdeny => ?_⟩
    · rw [hrun, declareJob, if_neg (hdecl hnone h8 h24), if_pos hrev]
      rfl
    · rw [hrun, declareJob, if_neg (hdecl hnone h8 h24), if_neg hrev, if_pos h0]
    · rw [declareJob, if_neg (hdecl hnone h8 h24), if_neg hrev, if_neg h0]
      rfl
    · rw [hrun, declareJob, if_pos hdeny, denyJob]
  · rw [exec, execSlotSelect, onPage_of hopen, selectSlot]
  · intro i
    rw [exec, execSlotWindowCommit, onPage_of hopen, commitWindow_free hempty]
  · rw [exec, execSlotWindowCommitDone, commitWaiting_one hwait hempty]
  · intro s1 t
    have ht : cbzSlot s1 n = t := rfl
    rw [exec_tableCommit hn hgen hopen]
    refine ⟨fun h => ?_, fun r h hbad => ?_, fun h hgood hheld => ?_, fun h hgood hheld => ?_, fun h hrefs hgood hheld => ?_,
      fun h hrefs hgood hheld => ?_⟩
    · rw [tableCommit_draining ht h, badCommit_eq]
    · rw [tableCommit_bad ht h hbad, badCommit_eq]
    · rw [tableCommit_held ht h hgood hheld, badCommit_eq]
    · rw [tableCommit_empty ht h hgood hheld]
    · rw [tableCommit_ready ht h hgood hheld, if_neg hrefs]
    · rw [tableCommit_ready ht h hgood hheld, if_pos hrefs, hrefs]
  · intro t s1
    have ht : cbzSlot s1 n = t := rfl
    rw [exec_tableRetire hn hopen, tableRetire_eq ht]
    refine ⟨fun h hrefs => ?_, fun h hrefs => ?_, fun h => ?_⟩
    · rw [if_pos h, if_pos hrefs]
    · rw [if_pos h, if_neg hrefs]
    · rw [if_neg h]

end Sys2Proof.Machine
end

section
/-! The hurdle (05_commands R124, R125). -/

namespace Sys2Proof.Machine

section
variable {s : State} {q idx : Nat} {e : CmdEntry}

theorem exec_hurdle {sur : Surround} (h : Dispatches s q idx e sur) (hop : e.opcode = 0x0604) :
    exec (.hurdle q idx sur) s = .next (takeSlot (startHurdle s e) q) := by
  obtain ⟨hq, hlife, -⟩ := id h
  rw [exec, execHurdle, onQueueRunning_of hq hlife, onDispatch_of_dispatches h, hop, if_pos (by decide)]

/-! ### The tables' load -/

theorem hurdleLoad_plain {sur : Surround} (hfind : findCmd s q idx = some e) (hhurdle : s.cmds.hurdle = some (q, idx))
    (hopen : s.cmds.hurdlePassed = false) (hblock : e.block = 0) (htab : milTabAddr s = 0)
    (hothers : ∀ x ∈ s.cmds.table, (x.q = q ∧ x.idx = idx) ∨ x.stage = .issued ∨ epochBound s x = false) :
    hurdleLoad s q idx sur = passHurdle s e := by
  have hall : s.cmds.table.all (fun x => (x.q == q && x.idx == idx) || x.stage == .issued || !epochBound s x) = true := by
    refine List.all_eq_true.mpr fun x hx => ?_
    rcases hothers x hx with ⟨hxq, hxi⟩ | hstage | hbound
    · simp [hxq, hxi]
    · simp [hstage]
    · simp [hbound]
  have hopen' : hurdleOpen s = true := by rw [hurdleOpen, hhurdle, hopen]; rfl
  unfold hurdleLoad
  rw [hfind]
  dsimp only
  rw [if_pos ⟨hhurdle, hopen', hall⟩, checkImage, if_pos hblock]
  dsimp only
  rw [readMilTable, htab]
  rfl

/-! ### The end of a hurdle -/

theorem hurdleRelease_getF (s : State) {f : Fld} (h : ∀ p ∈ heldPages, f.addr ≠ (BLK_STATE_state p).addr) :
    getF (hurdleRelease s) f = getF s f := by
  unfold hurdleRelease
  revert h
  generalize heldPages = ps
  intro h
  induction ps generalizing s with
  | nil => rfl
  | cons p ps ih =>
    rw [List.foldl_cons, ih _ fun p' hp' => h p' (List.mem_cons_of_mem _ hp')]
    split
    · exact getF_setF_ne _ _ (h p List.mem_cons_self)
    · rfl

/-- Dispatch resumes as the hurdle's command leaves the table. -/
theorem resumeDispatch_hurdle (h : s.cmds.hurdle = some (q, idx)) : resumeDispatch s q idx =
    takeHeld (latchAll (hurdleRelease { s with cmds := { s.cmds with hurdle := none, hurdlePassed := false } }))
      (fun h => epochCmp h.1.epoch (getF s CMD_EPOCH_current) != .newer) [] := by
  have hepoch : ∀ c : CmdSt, getF (latchAll (hurdleRelease { s with cmds := c })) CMD_EPOCH_current =
      getF s CMD_EPOCH_current := fun c => hurdleRelease_getF { s with cmds := c } (f := CMD_EPOCH_current) (by decide)
  unfold resumeDispatch
  dsimp only
  rw [if_pos h, hepoch]

end

/-- Settles O33. -/
theorem hurdles : Obligations.Hurdles := by
  refine ⟨fun s q idx e sur hdisp hop => ?_,
    fun s q idx e sur hq hlife hfind hhurdle hpassed hblock htab hothers => ?_,
    fun s q idx e hq hlife hfind hstage hack hhurdle hstatus hquiet hsig hirq hop => ?_⟩
  · obtain ⟨-, -, hfind, -⟩ := id hdisp
    obtain ⟨rfl, rfl⟩ := findCmd_key hfind
    rw [exec_hurdle hdisp hop]
    rfl
  · obtain ⟨rfl, rfl⟩ := findCmd_key hfind
    rw [exec, execHurdleTableLoad, onQueueRunning_of hq hlife, hurdleLoad_plain hfind hhurdle hpassed hblock htab hothers]
    rfl
  · obtain ⟨rfl, rfl⟩ := findCmd_key hfind
    rw [exec, execCommandRetire, onQueueRunning_of hq hlife, retire_ended hfind hstage hack (.inr (.inl hsig)),
      reportCommand_ok hstatus, completeCmd_noSignal (.inr hsig) (fun _ => by rw [hop]; decide) hirq,
      if_pos ⟨hquiet, hstatus⟩, resumeDispatch_hurdle (by exact hhurdle)]
    rfl

end Sys2Proof.Machine
end

section
/-! Rows of the vector unit (08_vector R193 to R210): control flow and scalars. -/

namespace Sys2Proof.Machine

section
variable {s s1 : State} {l w pc : Nat} {ln x : LaneSt} {sur : Surround} {c : Instr} {sel : Nat → Bool}
  {body : State → Nat → LaneSt → Nat → VOut}

theorem isOp_of {op : Nat} (h : vwOp w = op) : isOp op w = true := beq_iff_eq.mpr h

theorem isOp_other {op : Nat} (h : vwOp w ≠ op) : isOp op w = false := beq_false_of_ne h

theorem vecRow_of (h : VecAt s l ln w sur) (t : State) : vecRow l s t = .next t := by
  obtain ⟨hl, hlife, -⟩ := h
  rw [vecRow, isLane, onInstance_of (decide_eq_true hl), if_pos hlife]

/-- An instruction whose body leaves the lane with x goes on at pc. -/
theorem stepsTo_of_body (h : VecAt s l ln w sur) (hsel : sel w = true)
    (hexec : exec c s = vecRow l s (vecStep sel body l sur s))
    (hbody : body s l ln w = .jump s1 pc ∨ body s l ln w = .next s1 ∧ pc = ln.pc + 1) (hpc : pc < x.prog.length)
    (hrun : x.vecRun.isSome = true) (hlane : lane s1 l = x) (hothers : ∀ m, m ≠ l → lane s1 m = lane s m)
    (hframe : { s1 with lanes := s.lanes } = s) : StepsTo c s l sur.slots pc x := by
  have hstep : vecStep sel body l sur s = vecGoto (vecRetire s1 l sur.slots) l ln.pc pc := by
    rw [vecStep_of_vecAt h hsel]
    rcases hbody with hjump | ⟨hnext, rfl⟩
    · rw [hjump]
    · rw [hnext]
  obtain ⟨⟨hlane', hothers'⟩, hframe'⟩ := vecGoto_vecRetire (dry := sur.slots) (old := ln.pc) hlane hrun hpc
  refine ⟨_, hexec.trans (vecRow_of h _), ?_, ?_⟩
  · rw [hstep]
    exact ⟨hlane', fun m hm => (hothers' m hm).trans (hothers m hm)⟩
  · rw [hstep]
    exact (congrArg (fun t : State => { t with lanes := s.lanes }) hframe').trans hframe

/-- An instruction that changes its lane's registers alone, to go on at pc. -/
theorem stepsTo_setLane (h : VecAt s l ln w sur) (hsel : sel w = true)
    (hexec : exec c s = vecRow l s (vecStep sel body l sur s))
    (hbody : body s l ln w = .jump (setLane s l x) pc ∨ body s l ln w = .next (setLane s l x) ∧ pc = ln.pc + 1)
    (hprog : x.prog = ln.prog) (hvec : x.vecRun = ln.vecRun) (hpc : pc < ln.prog.length) :
    StepsTo c s l sur.slots pc x := by
  obtain ⟨-, -, -, hrun, -⟩ := id h
  have hrun' : x.vecRun.isSome = true := hvec ▸ hrun
  exact stepsTo_of_body h hsel hexec hbody (hprog ▸ hpc) hrun' (lane_setLane_same s l hrun')
    (fun m hm => lane_setLane_ne s x hm) rfl

/-- An instruction that changes nothing, to go on at pc. -/
theorem stepsTo_same (h : VecAt s l ln w sur) (hsel : sel w = true)
    (hexec : exec c s = vecRow l s (vecStep sel body l sur s))
    (hbody : body s l ln w = .jump s pc ∨ body s l ln w = .next s ∧ pc = ln.pc + 1) (hpc : pc < ln.prog.length) :
    StepsTo c s l sur.slots pc ln := by
  obtain ⟨-, -, hlane, hrun, -⟩ := id h
  exact stepsTo_of_body h hsel hexec hbody hpc hrun hlane (fun _ _ => rfl) rfl

/-- A row of an instruction on registers. -/
theorem stepsTo_regOp {op : Nat} {f : State → LaneSt → Nat → LaneSt} (h : VecNext s l ln w sur) (hop : vwOp w = op)
    (hexec : exec c s = vecRow l s (vecStep (isOp op) (regOp f) l sur s)) (hprog : (f s ln w).prog = ln.prog)
    (hvec : (f s ln w).vecRun = ln.vecRun) : StepsTo c s l sur.slots (ln.pc + 1) (f s ln w) :=
  stepsTo_setLane h.1 (isOp_of hop) hexec (.inr ⟨rfl, rfl⟩) hprog hvec h.2

/-- A row whose opcode is not the word's. -/
theorem vecStep_other (h : VecAt s l ln w sur) (hsel : sel w = false) : vecStep sel body l sur s = s := by
  obtain ⟨-, -, rfl, hrun, hfault, hreset, ⟨d, hd, rfl⟩, -⟩ := h
  obtain ⟨⟨q, idx⟩, hrun⟩ := Option.isSome_iff_exists.mp hrun
  unfold vecStep
  simp only [hrun, hfault, hreset, hd, hsel, Option.isSome_none, Bool.false_eq_true, or_self, if_false, Bool.not_false,
    Bool.true_or, if_true]

/-- A branch to the word's target, where its test holds. -/
theorem stepsTo_branch {op : Nat} {test : LaneSt → Nat → Bool} (h : VecAt s l ln w sur) (hop : vwOp w = op)
    (hexec : exec c s = vecRow l s (vecStep (isOp op) (branchIf test) l sur s))
    (hpc : (if test ln w then bwTarget w else ln.pc + 1) < ln.prog.length) :
    StepsTo c s l sur.slots (if test ln w then bwTarget w else ln.pc + 1) ln := by
  refine stepsTo_same h (isOp_of hop) hexec ?_ hpc
  unfold branchIf
  cases test ln w
  · exact .inr ⟨rfl, rfl⟩
  · exact .inl rfl

theorem stepsTo_scalar {op : Nat} {f : Dword → Dword → Dword → Dword} (h : VecNext s l ln w sur) (hop : vwOp w = op)
    (hexec : exec c s = scalarRow op f l sur s) : StepsTo c s l sur.slots (ln.pc + 1)
      (setSreg ln (swSd w) (f (sreg ln (swSa w)) (sreg ln (swSb w)) (swImm w))) :=
  stepsTo_regOp (f := fun _ ln w => setSreg ln (swSd w) (f (sreg ln (swSa w)) (sreg ln (swSb w)) (swImm w))) h hop hexec
    rfl rfl

theorem stepsTo_sli (h : VecNext s l ln w sur) (hop : vwOp w = 0x19) : StepsTo (.vecSli l sur) s l sur.slots (ln.pc + 1)
    (setSreg ln (swSd w) (sliOf (sreg ln (swSd w)) w)) :=
  stepsTo_regOp (f := fun _ ln w => setSreg ln (swSd w) (sliOf (sreg ln (swSd w)) w)) h hop rfl rfl rfl

/-- The lane's loop instruction counts down and branches while the count is not 0. -/
theorem stepsTo_loop (h : VecAt s l ln w sur) (hop : vwOp w = 0x06)
    (hpc : (if sreg ln (bwSa w) != 1 then bwTarget w else ln.pc + 1) < ln.prog.length) :
    StepsTo (.vecLoop l sur) s l sur.slots (if sreg ln (bwSa w) != 1 then bwTarget w else ln.pc + 1)
      (setSreg ln (bwSa w) (sreg ln (bwSa w) - 1)) := by
  refine stepsTo_setLane (sel := isOp 0x06) (body := loopBody) h (isOp_of hop) rfl ?_ rfl rfl hpc
  unfold loopBody
  dsimp only
  by_cases hone : sreg ln (bwSa w) = 1
  · rw [hone, if_pos (by decide)]
    exact .inr ⟨rfl, rfl⟩
  · have hzero : ¬ sreg ln (bwSa w) - 1 = 0 := fun h0 => hone (by bv_omega)
    rw [if_neg hzero, if_pos (bne_iff_ne.mpr hone)]
    exact .inl rfl

/-- The end of a program with no remote instruction outstanding. -/
theorem exec_vecEnd {q idx : Nat} (h : VecAt s l ln w sur) (hrun : ln.vecRun = some (q, idx)) (hop : vwOp w = 0x01)
    (hpend : ln.pend = []) :
    let s1 := vecRetire s l sur.slots
    exec (.vecEnd l sur) s = .next (finishParts (endPart (setLane s1 l { lane s1 l with exitCode := bwTarget w })
      q idx l 0 0) q idx []) := by
  intro s1
  rw [exec, execVecEnd, vecRow_of h, vecStep_of_vecAt h (isOp_of hop), hpend, if_pos (by rfl)]
  dsimp only
  rw [hrun]
  rfl

/-- A wait for remote instructions changes nothing. -/
theorem vecStep_waits (h : VecAt s l ln w sur) (hsel : sel w = true) (hbody : body s l ln w = .wait) :
    vecStep sel body l sur s = s := by
  rw [vecStep_of_vecAt h hsel, hbody]

/-- A program that runs past its last word. -/
theorem exec_vecNop_last (h : VecAt s l ln w sur) (hop : vwOp w = 0x00) (hlast : ln.prog.length = ln.pc + 1) :
    exec (.vecNop l sur) s = .next (vecFaultAt (vecRetire s l sur.slots) l 0x01 9 ln.pc) := by
  obtain ⟨-, -, hlane, hrun, -⟩ := id h
  have hprog : (lane (vecRetire s l sur.slots) l).prog = ln.prog := by
    unfold vecRetire
    rw [hlane, lane_setLane_same _ _ (by exact hrun)]
  rw [exec, execVecNop, vecRow_of h, vecStep_of_vecAt h (isOp_of hop)]
  dsimp only
  rw [vecGoto, if_neg (by rw [hprog, hlast]; exact Nat.lt_irrefl _)]
  rfl

end

/-- Settles O38: each row's body at the program's word. -/
theorem vectorControlAndScalars : Obligations.VectorControlAndScalars := by
  refine ⟨fun s l w ln sur h => ?_, fun s l w ln sur h => ?_⟩
  · intro go a b i
    refine ⟨fun hop => ?_, fun hop hpend => ?_, fun hop => ?_, fun hop => ?_, fun hop => ?_, fun hop => ?_, fun hop => ?_,
      fun hop => ?_, fun hop => ?_, fun hop => ?_, fun hop => ?_, fun hop => ?_, fun hop => ?_, fun hmod hop => ?_,
      fun hmod hop => ?_, fun hop => ?_, fun hop => ?_⟩
    · exact stepsTo_same (body := fun s _ _ _ => .next s) h.1 (isOp_of hop) rfl (.inr ⟨rfl, rfl⟩) h.2
    · exact stepsTo_same (body := fun s _ ln _ => if ln.pend.isEmpty then .next s else .wait) h.1 (isOp_of hop) rfl
        (.inr ⟨by rw [hpend]; rfl, rfl⟩) h.2
    · exact stepsTo_scalar (f := fun a b i => a + b + i) h hop rfl
    · exact stepsTo_scalar (f := fun a b _ => a - b) h hop rfl
    · exact stepsTo_scalar (f := fun a b _ => a * b) h hop rfl
    · exact stepsTo_scalar (f := fun a b _ => a &&& b) h hop rfl
    · exact stepsTo_scalar (f := fun a b _ => a ||| b) h hop rfl
    · exact stepsTo_scalar (f := fun a b _ => a ^^^ b) h hop rfl
    · exact stepsTo_scalar (f := fun a b i => a <<< shiftBy b i) h hop rfl
    · exact stepsTo_scalar (f := fun a b i => a >>> shiftBy b i) h hop rfl
    · exact stepsTo_scalar (f := fun a b i => a.sshiftRight (shiftBy b i)) h hop rfl
    · exact stepsTo_scalar (f := fun a b _ => if b.slt a then b else a) h hop rfl
    · exact stepsTo_scalar (f := fun a b _ => if a.slt b then b else a) h hop rfl
    · have hsli := stepsTo_sli h hop
      rwa [sliOf, if_neg (by omega)] at hsli
    · have hsli := stepsTo_sli h hop
      rwa [sliOf, if_pos hmod] at hsli
    · exact stepsTo_setLane (body := fun s l ln w =>
        .next (setLane s l (setSreg ln (swSd w) (BitVec.ofNat 64 (sysValue s l ln (bwTarget w)))))) h.1 (isOp_of hop) rfl
        (.inr ⟨rfl, rfl⟩) rfl rfl h.2
    · exact stepsTo_regOp (f := fun _ ln w =>
        setSreg ln (swSd w) ((vreg ln (swMod w % 32) (shiftBy (sreg ln (swSb w)) (swImm w))).setWidth 64)) h hop rfl rfl rfl
  · intro x y on br
    refine ⟨fun hop hpc => ?_, fun hop hpc => ?_, fun hop hpc => ?_, fun hop hpc => ?_, fun hop hpc => ?_,
      fun q idx hrun hop hpend => ?_, fun hop hpend => ?_, fun hop hpend => ?_, fun hop => ?_, fun hop hlast => ?_⟩
    · exact stepsTo_branch (test := fun _ _ => true) h hop rfl hpc
    · exact stepsTo_branch (test := fun ln w => sreg ln (bwSa w) == 0) h hop rfl hpc
    · exact stepsTo_branch (test := fun ln w => sreg ln (bwSa w) != 0) h hop rfl hpc
    · exact stepsTo_branch (test := fun ln w => (sreg ln (bwSa w)).slt (sreg ln (bwSb w))) h hop rfl hpc
    · exact stepsTo_loop h hop hpc
    · exact exec_vecEnd h hrun hop hpend
    · rw [exec, execVecEnd, vecRow_of h, vecStep_waits h (isOp_of hop) (by simp [hpend])]
    · rw [exec, execVecFence, vecRow_of h, vecStep_waits h (isOp_of hop) (by simp [hpend])]
    · rw [exec, execVecNop, vecRow_of h, vecStep_other h (isOp_other hop)]
    · exact exec_vecNop_last h hop hlast

end Sys2Proof.Machine
end

section
/-! Rows of the vector unit (08_vector R195 to R204): elements, reductions, predicates and sampling. -/

namespace Sys2Proof.Machine

section
variable {s : State} {l w : Nat} {ln x : LaneSt} {sur : Surround} {c : Instr}

/-! ### What a write of registers leaves alone -/

/-- The lane's program and the command that runs it. -/
def SameProg (ln x : LaneSt) : Prop := x.prog = ln.prog ∧ x.vecRun = ln.vecRun

theorem SameProg.trans {y : LaneSt} (h : SameProg ln x) (h' : SameProg x y) : SameProg ln y :=
  ⟨h'.1.trans h.1, h'.2.trans h.2⟩

theorem writeMasked_prog (ln : LaneSt) (r m : Nat) (f : Nat → Word) : SameProg ln (writeMasked ln r m f) := by
  unfold writeMasked
  generalize maskList m = ixs
  induction ixs generalizing ln with
  | nil => exact ⟨rfl, rfl⟩
  | cons i ixs ih => exact ih (setVreg ln r i (f i))

theorem setPreg_prog (ln : LaneSt) (r m : Nat) : SameProg ln (setPreg ln r m) := by
  unfold setPreg
  split <;> exact ⟨rfl, rfl⟩

theorem writeAll_prog (ln : LaneSt) (r : Nat) (f : Nat → Word) : SameProg ln (writeAll ln r f) := writeMasked_prog ln r allOnes f

theorem SameProg.stick (h : SameProg ln x) (flags : Nat) : SameProg ln (stick x flags) := h

theorem SameProg.setSreg (h : SameProg ln x) (r : Nat) (d : Dword) : SameProg ln (setSreg x r d) := h

/-! ### The rows' kinds -/

/-- A row whose body writes registers of its lane. -/
theorem stepsTo_lane {op : Nat} {body : State → Nat → LaneSt → Nat → VOut} (h : VecNext s l ln w sur) (hop : vwOp w = op)
    (hsame : SameProg ln x) (hexec : exec c s = vecRow l s (vecStep (isOp op) body l sur s))
    (hbody : body s l ln w = .next (setLane s l x)) : StepsTo c s l sur.slots (ln.pc + 1) x :=
  stepsTo_setLane h.1 (isOp_of hop) hexec (.inr ⟨hbody, rfl⟩) hsame.1 hsame.2 h.2

/-- An elementwise instruction writes its selected elements and gathers their flags. -/
theorem stepsTo_element {op : Nat} {f : LaneSt → Nat → Nat → Word × Nat} (h : VecNext s l ln w sur) (hop : vwOp w = op)
    (hexec : exec c s = elementRow op f l sur s) : StepsTo c s l sur.slots (ln.pc + 1)
      (stick (writeMasked ln (vwVd w) (maskOf ln w) (fun i => (f ln w i).1))
        ((maskList (maskOf ln w)).foldl (fun t i => t ||| (f ln w i).2) 0)) := by
  refine stepsTo_lane h hop ((writeMasked_prog ..).stick _) hexec ?_
  unfold elementOp regOp
  dsimp only
  rw [List.foldl_map, List.foldl_map]
  rfl

/-- A reduction writes its value to every element. -/
theorem stepsTo_reduce {op : Nat} {f : LaneSt → Nat → Nat → Word × Nat} (h : VecNext s l ln w sur) (hop : vwOp w = op)
    (hexec : exec c s = reduceRow op f l sur s) : StepsTo c s l sur.slots (ln.pc + 1)
      (stick (writeAll ln (vwVd w) (fun _ => (f ln w (maskOf ln w)).1)) (f ln w (maskOf ln w)).2) :=
  stepsTo_lane h hop ((writeAll_prog ..).stick _) hexec rfl

/-- A predicate formed from two. -/
theorem stepsTo_pred {op : Nat} {f : Nat → Nat → Nat} (h : VecNext s l ln w sur) (hop : vwOp w = op)
    (hexec : exec c s = predRow op f l sur s) : StepsTo c s l sur.slots (ln.pc + 1)
      (setPreg ln (vwVd w % 8) (f (preg ln (vwVa w % 8)) (preg ln (vwVb w % 8)))) :=
  stepsTo_lane h hop (setPreg_prog ..) hexec rfl

/-- A draw of the job's seed for each selected element. -/
theorem stepsTo_draw {op : Nat} {f : Nat → Word} (h : VecNext s l ln w sur) (hop : vwOp w = op)
    (hexec : exec c s = drawRow op f l sur s) : StepsTo c s l sur.slots (ln.pc + 1)
      (writeMasked ln (vwVd w) (maskOf ln w) (fun i => f (drawOf s ln w i))) :=
  stepsTo_lane h hop (writeMasked_prog ..) hexec rfl

/-- A row of an instruction on registers that keeps the program. -/
theorem stepsTo_registers {op : Nat} {f : LaneSt → Nat → LaneSt} (h : VecNext s l ln w sur) (hop : vwOp w = op)
    (hprog : SameProg ln (f ln w))
    (hexec : exec c s = vecRow l s (vecStep (isOp op) (regOp (fun _ ln w => f ln w)) l sur s)) :
    StepsTo c s l sur.slots (ln.pc + 1) (f ln w) :=
  stepsTo_regOp (f := fun _ ln w => f ln w) h hop hexec hprog.1 hprog.2

/-- The first selected element that is no NaN and equals the maximum. -/
def argmaxFirst (ln : LaneSt) (w : Nat) : Option Nat :=
  (maskList (maskOf ln w)).find? (fun i => !isNan32 (elA ln w i) &&
    ordSigned32 (elA ln w i) == ordSigned32 (extremeTree vmaxOf ninf32 ln w (maskOf ln w)).1)

/-- The index that VARGMAX writes (R196). -/
def argmaxOf (ln : LaneSt) (w : Nat) : Dword :=
  if (maskList (maskOf ln w)).isEmpty then BitVec.ofNat 64 allOnes
  else match argmaxFirst ln w with
    | some i => BitVec.ofNat 64 i
    | none => Config.argmaxIndex ((List.range 64).map (fun i => (elA ln w i).toNat)) (maskOf ln w)

theorem stepsTo_argmax (h : VecNext s l ln w sur) (hop : vwOp w = 0x4B) : StepsTo (.vecVargmax l sur) s l sur.slots (ln.pc + 1)
    (setSreg (writeAll ln (vwVd w) (fun _ => (extremeTree vmaxOf ninf32 ln w (maskOf ln w)).1)) (vwSa w) (argmaxOf ln w)) :=
  stepsTo_lane (body := argmaxBody) h hop ((writeAll_prog ..).setSreg _ _) rfl rfl

theorem topkBody_prog (ln : LaneSt) (w : Nat) : SameProg ln (topkBody ln w) := by
  unfold topkBody writeAll
  dsimp only
  exact (writeMasked_prog ..).trans (writeMasked_prog ..)

end

/-- Settles O39: each row is one of its kind. -/
theorem vectorElements : Obligations.VectorElements := by
  refine ⟨fun s l w ln sur h => ?_, fun s l w ln sur h => ?_⟩
  · intro m go a b c x two tr
    refine ⟨?_, ?_, ?_, ?_, ?_, ?_, ?_, ?_, ?_, ?_, ?_, ?_, ?_, ?_, ?_, ?_, ?_, ?_, ?_, ?_, ?_, ?_, ?_, ?_, ?_, ?_⟩ <;> intro hop
    · exact stepsTo_element (f := fun ln w i => flagged2 fadd (elA ln w i) (elB ln w i)) h hop rfl
    · exact stepsTo_element (f := fun ln w i => flagged2 fsub (elA ln w i) (elB ln w i)) h hop rfl
    · exact stepsTo_element (f := fun ln w i => flagged2 fmul (elA ln w i) (elB ln w i)) h hop rfl
    · exact stepsTo_element (f := fun ln w i => let r := ffma (elA ln w i) (elB ln w i) (elC ln w i)
        (r, arithFlags [elA ln w i, elB ln w i, elC ln w i] r)) h hop rfl
    · exact stepsTo_element (f := fun ln w i => (vmaxOf (elA ln w i) (elB ln w i), 0)) h hop rfl
    · exact stepsTo_element (f := fun ln w i => (vminOf (elA ln w i) (elB ln w i), 0)) h hop rfl
    · exact stepsTo_element (f := fun ln w i => (elA ln w i &&& 0x7FFFFFFF, 0)) h hop rfl
    · exact stepsTo_element (f := fun ln w i => (elA ln w i ^^^ 0x80000000, 0)) h hop rfl
    · exact stepsTo_element (f := fun ln w i => flagged2 fmul (elA ln w i) (scA ln w)) h hop rfl
    · exact stepsTo_element (f := fun ln w i => flagged2 fadd (elA ln w i) (scA ln w)) h hop rfl
    · exact stepsTo_element (f := fun ln w _ =>
        (if vwMod w % 2 = 1 then BitVec.ofNat 32 (vwImm w * 2 ^ 16) else scA ln w, 0)) h hop rfl
    · exact stepsTo_element (f := fun ln w i =>
        (if bitOf (preg ln (vwMod w % 8)) i then elA ln w i else elB ln w i, 0)) h hop rfl
    · exact stepsTo_element (f := fun ln w i => (elA ln w i + elB ln w i, 0)) h hop rfl
    · exact stepsTo_element (f := fun ln w i => (scA ln w + BitVec.ofNat 32 (vwImm w) + BitVec.ofNat 32 i, 0)) h hop rfl
    · exact stepsTo_element (f := fun ln w i => toInt32 (elA ln w i)) h hop rfl
    · exact stepsTo_element (f := fun ln w i => (e32 (fpOfInt (elA ln w i).toInt 0), 0)) h hop rfl
    · exact stepsTo_element (f := transElement 0x2D) h hop rfl
    · exact stepsTo_element (f := transElement 0x30) h hop rfl
    · exact stepsTo_element (f := transElement 0x31) h hop rfl
    · exact stepsTo_element (f := transElement 0x32) h hop rfl
    · exact stepsTo_element (f := transElement 0x33) h hop rfl
    · exact stepsTo_element (f := transElement 0x34) h hop rfl
    · exact stepsTo_element (f := transElement 0x35) h hop rfl
    · exact stepsTo_element (f := transElement 0x36) h hop rfl
    · exact stepsTo_element (f := transElement 0x37) h hop rfl
    · exact stepsTo_element (f := transElement 0x38) h hop rfl
  · intro m a b goes all pa pb pd best first argmax
    refine ⟨fun hop => ?_, fun hop => ?_, fun hop => ?_, fun hempty hop => ?_, fun i hsome hfirst hop => ?_,
      fun hsome hfirst hop => ?_, fun hop => ?_, fun hop => ?_, fun hop => ?_, fun hop => ?_, fun hop => ?_, fun hop => ?_,
      fun hop => ?_, fun hop => ?_, fun hop => ?_, fun hop => ?_, fun hop => ?_⟩
    · exact stepsTo_reduce (f := sumTree) h hop rfl
    · exact stepsTo_reduce (f := extremeTree vmaxOf ninf32) h hop rfl
    · exact stepsTo_reduce (f := extremeTree vminOf inf32) h hop rfl
    · have harg : argmaxOf ln w = BitVec.ofNat 64 allOnes := if_pos (List.isEmpty_iff.mpr hempty)
      exact harg ▸ stepsTo_argmax h hop
    · have harg : argmaxOf ln w = BitVec.ofNat 64 i := by
        rw [argmaxOf, if_neg (by rwa [List.isEmpty_iff]), show argmaxFirst ln w = first from rfl, hfirst]
      exact harg ▸ stepsTo_argmax h hop
    · have harg : argmaxOf ln w =
          Config.argmaxIndex ((List.range 64).map (fun i => (elA ln w i).toNat)) (maskOf ln w) := by
        rw [argmaxOf, if_neg (by rwa [List.isEmpty_iff]), show argmaxFirst ln w = first from rfl, hfirst]
      exact harg ▸ stepsTo_argmax h hop
    · exact stepsTo_registers (f := fun ln w => writePred ln (vwVd w % 8) (maskOf ln w)
        (fun i => compareOf (vwMod w % 8) (elA ln w i) (elB ln w i))) h hop (setPreg_prog _ _ _) rfl
    · exact stepsTo_pred (f := fun a b => a &&& b) h hop rfl
    · exact stepsTo_pred (f := fun a b => a ||| b) h hop rfl
    · exact stepsTo_pred (f := fun a b => a ^^^ b) h hop rfl
    · exact stepsTo_pred (f := fun a _ => xorNat a allOnes) h hop rfl
    · exact stepsTo_registers (f := fun ln w => setPreg ln (vwVd w % 8) (sreg ln (vwSa w)).toNat) h hop (setPreg_prog _ _ _)
        rfl
    · exact stepsTo_registers (f := fun ln w =>
        setSreg ln (vwSa w) (BitVec.ofNat 64 (maskList (preg ln (vwVa w % 8))).length)) h hop ⟨rfl, rfl⟩ rfl
    · exact stepsTo_draw (f := fun r => e32 (.fin false (2 * r + 1) (-17))) h hop rfl
    · exact stepsTo_draw (f := gumbelEntry) h hop rfl
    · exact stepsTo_registers (f := topkBody) h hop (topkBody_prog ln w) rfl
    · exact stepsTo_registers (f := fun ln w => writePred ln (vwVd w % 8) (maskOf ln w) (fun i =>
        compareOf 4 (elA ln w i) 0 && (i == 0 || compareOf 2 (((prefixSums ln w)[i]?).getD 0) (scA ln w)))) h hop
        (setPreg_prog _ _ _) rfl

end Sys2Proof.Machine
end

section
/-! A program's store that initialises the last region of the cellar (08_vector R198, 09_memory R226): its event may
signal by interrupt, so the store can change the host interface's pending-bit array. -/

namespace Sys2Proof.Machine

theorem rereads_setInit (s : State) (keys : List Nat) (ms : Nat) :
    (setInit s keys ms).mem.rereads = s.mem.rereads := by
  unfold setInit
  dsimp only
  split
  · rw [raiseEv_mem, setF_mem]
    split
    · rfl
    · rw [setF_mem]
  · split
    · rfl
    · rw [setF_mem]

theorem rereads_freshLines (s : State) (a n : Nat) : (freshLines s a n).mem.rereads = s.mem.rereads := by
  unfold freshLines touchRegions
  dsimp only
  split
  · rfl
  · exact rereads_setInit _ _ _

/-- A program's write to sound memory. -/
theorem vecWrite_sound {s : State} {a : Nat} {bs : List Byte} (l : Nat) (ln : LaneSt) (h : Sound s a bs.length) :
    (vecWrite s l ln [] a bs).1 = freshLines (poke s a bs) a bs.length := by
  have hreread : rereadSince s (freshLines (poke s a bs) a bs.length) = false := by
    rw [rereadSince, rereads_freshLines]
    exact bne_self_eq_false _
  rw [vecWrite, memWrite_sound h]
  dsimp only
  rw [vecReplays, hreread, if_neg Bool.false_ne_true]

theorem lane_freshLines {s : State} {l a n : Nat} {ln : LaneSt} (h : lane s l = ln) : lane (freshLines s a n) l = ln := by
  obtain ⟨m, hframe, -⟩ := freshLines_frame s a n
  rw [lane, hframe.lanes]
  exact h

theorem host_vecGoto {s : State} {l dry pc old : Nat} {ln : LaneSt} (hl : lane s l = ln) (hv : ln.vecRun.isSome = true)
    (hp : pc < ln.prog.length) : (vecGoto (vecRetire s l dry) l old pc).host = s.host := by
  obtain ⟨-, hframe⟩ := vecGoto_vecRetire (dry := dry) (old := old) hl hv hp
  have hhost := congrArg State.host hframe
  exact hhost

/-- A word that stores scalar 0 at the address in scalar 0. -/
def storeWord : Nat := 0x65 * 2 ^ 56

/-- A lane about to store 8 zero bytes at address 0. -/
def storeLane : LaneSt := { vecRun := some (0, 0), prog := [BitVec.ofNat 64 storeWord, 0] }

/-- almostInit with such a lane. -/
def almostStored : State := setLane almostInit 0 storeLane

theorem almostStored_lane : lane almostStored 0 = storeLane :=
  lane_setLane_same almostInit 0 (by decide)

theorem almostStored_sound (a n : Nat) : Sound almostStored a n := fun _ _ => List.not_mem_nil

theorem vecNext_almostStored : VecNext almostStored 0 storeLane storeWord {} :=
  ⟨⟨by decide, rfl, almostStored_lane, rfl, rfl, rfl, ⟨_, rfl, by decide⟩, by decide, rfl⟩, by decide⟩

theorem poke_almostStored (n : Nat) : poke almostStored 0 (List.replicate n 0) = almostStored := by
  have h := congrArg (setLane · 0 storeLane) (poke_almostInit n)
  exact h

theorem freshLines_almostStored : (freshLines almostStored 0 8).host.msixPending = [0] := by
  rw [freshLines_last (s := almostStored) rfl rfl (by decide) (by decide)]
  decide +kernel

theorem storeLane_bytes : natLe 8 (sreg storeLane (mwV storeWord % 16)).toNat = List.replicate 8 0 := by decide

theorem execVecSst_almostStored {t : State} (h : exec (.vecSst 0 {}) almostStored = .next t) : t.host.msixPending = [0] := by
  obtain ⟨hat, -⟩ := vecNext_almostStored
  have hstep : exec (.vecSst 0 {}) almostStored = .next (vecGoto (vecRetire (vecWrite almostStored 0 storeLane []
      (mwAddr storeLane storeWord) (natLe 8 (sreg storeLane (mwV storeWord % 16)).toNat)).1 0 0) 0 0 1) := by
    refine (vecRow_of hat _).trans (congrArg Host.Outcome.next ?_)
    rw [vecStep_of_vecAt hat (isOp_of (by decide))]
    rfl
  rw [show mwAddr storeLane storeWord = 0 by decide, storeLane_bytes,
    vecWrite_sound 0 storeLane (almostStored_sound _ _), poke_almostStored] at hstep
  rw [List.length_replicate] at hstep
  obtain rfl := Host.Outcome.next.inj (hstep.symm.trans h)
  rw [host_vecGoto (lane_freshLines almostStored_lane) rfl (by decide)]
  exact freshLines_almostStored

/-- Refutes O41: a program's store may initialise the cellar's last region, whose event pends an interrupt. -/
theorem not_vectorMemory : ¬ Obligations.VectorMemory := by
  intro h
  obtain ⟨-, -, -, -, -, -, -, hsst⟩ := h almostStored 0 storeWord storeLane {} vecNext_almostStored rfl rfl
  obtain ⟨t, hexec, -, hframe, -⟩ := hsst (by decide) (by decide) (almostStored_sound _ _)
  have hpend := execVecSst_almostStored hexec
  rw [congrArg State.host hframe] at hpend
  exact absurd hpend (by decide)

end Sys2Proof.Machine
end

section
/-! Array clocks, lane and port resets and droop (06_lanes, 11_stadium_fabric R238, 16_pacers). -/

namespace Sys2Proof.Machine

section
variable {s : State} {l : Nat}

theorem exec_laneReset (hl : l < 96) (hopen : regsOpen s pgRST = true) :
    exec (.laneReset l) s = .next (startLaneReset s l) := by
  rw [exec, execLaneReset, isLane, onInstance_of (decide_eq_true hl), onPage_of hopen]

theorem exec_laneResetDone (hl : l < 96) : exec (.laneResetDone l) s = .next (laneResetDone s l) := by
  rw [exec, execLaneResetDone, isLane, onInstance_of (decide_eq_true hl)]

theorem exec_portReset {n : Nat} (hn : n < 20) (hopen : regsOpen s pgRST = true) :
    exec (.portReset n) s = .next (startPortReset s n) := by
  rw [exec, execPortReset, onInstance_of (isPort_of (by omega)), onPage_of hopen]

theorem exec_droopDetect (hl : l < 96) (hlife : s.life = .running) (mv : Nat) :
    exec (.droopDetect l mv) s = .next (droopDetect s l mv) := by
  rw [exec, execDroopDetect, onInstance_of (decide_eq_true hl), whileRunning_of hlife]

theorem exec_droopRelease (hl : l < 96) (hlife : s.life = .running) (x : DroopEnd) :
    exec (.droopRelease l x) s = .next (droopRelease s l x.slots x.mv) := by
  rw [exec, execDroopRelease, onInstance_of (decide_eq_true hl), whileRunning_of hlife]

/-! ### Lane resets -/

/-- A lane reset that starts. -/
theorem laneReset_free (hlife : s.life = .running) (hwider : widerReset s = false) (hreset : (lane s l).resetting = false) :
    laneReset s l = setF (List.foldl (fun t (f : Nat → Fld) => setF t (f l) 0) (setLane (endRunningOn s l 0x04) l {
      queue := (lane (endRunningOn s l 0x04) l).queue, fenced := (lane (endRunningOn s l 0x04) l).fenced, resetting := true })
      [LANE_CNT_LOAD_count, LANE_CNT_LINE_count, LANE_CNT_DRY_count, LANE_CNT_DRAIN_count]) RST_LANE_busy 1 := by
  have hfree : ¬ (s.life ≠ .running ∨ widerReset s = true ∨ (lane s l).resetting = true) := by simp [hlife, hwider, hreset]
  rw [laneReset, if_neg hfree]
  rfl

/-! ### Droop -/

theorem droopDetect_low {mv : Nat} (hlow : (mv : Int) < (getF s (PAC_VOLT_setpoint_mv (dieOf s l)) : Int) - droopMv s (dieOf s l))
    (hoff : isSet s (PAC_LOOP_X_droop_off (dieOf s l)) = false) (hdroop : (lane s l).droop = false) :
    droopDetect s l mv = satF (setLane s l { lane s l with droop := true }) (PAC_DROOP_droops (dieOf s l)) 1 := by
  rw [droopDetect]
  dsimp only
  rw [if_neg (by simp [hoff, hdroop]; omega)]

theorem droopDetect_not {mv : Nat}
    (h : ¬ (mv : Int) < (getF s (PAC_VOLT_setpoint_mv (dieOf s l)) : Int) - droopMv s (dieOf s l) ∨
      isSet s (PAC_LOOP_X_droop_off (dieOf s l)) = true ∨ (lane s l).droop = true) : droopDetect s l mv = s := by
  rw [droopDetect]
  dsimp only
  rw [if_pos]
  rcases h with hlow | hoff | hdroop
  · exact .inr (.inr (by omega))
  · exact .inl hoff
  · exact .inr (.inl hdroop)

theorem droopRelease_held {mv : Nat} (k : Nat) (h : (lane s l).droop = false ∨
    (mv : Int) ≤ (getF s (PAC_VOLT_setpoint_mv (dieOf s l)) : Int) - droopMv s (dieOf s l) + hystMv s (dieOf s l)) :
    droopRelease s l k mv = s := by
  rw [droopRelease]
  dsimp only
  rw [if_pos]
  rcases h with hdroop | hheld
  · exact .inl (by rw [hdroop]; rfl)
  · exact .inr hheld

theorem droopRelease_over {mv : Nat} (k : Nat) (hdroop : (lane s l).droop = true)
    (hover : ¬ (mv : Int) ≤ (getF s (PAC_VOLT_setpoint_mv (dieOf s l)) : Int) - droopMv s (dieOf s l) + hystMv s (dieOf s l)) :
    droopRelease s l k mv =
      satF { setLane s l { lane s l with droop := false } with
        pac := { s.pac with
          stretch := tset (fun _ => 0) s.pac.stretch (dieOf s l) ((tget (fun _ => 0) s.pac.stretch (dieOf s l) + k) % 1024) } }
        (PAC_DROOP_stretched (dieOf s l))
        ((tget (fun _ => 0) s.pac.stretch (dieOf s l) + k) / 1024) := by
  rw [droopRelease]
  dsimp only
  rw [if_neg (by simp [hdroop, hover])]
  rfl

end

/-- Settles O45. -/
theorem laneRows : Obligations.LaneRows := by
  refine ⟨fun s l hl hlife => ?_, fun s l right hl => ?_, fun s l hl hopen => ⟨fun hbusy => ?_, fun hbusy hlife hw hr => ?_⟩,
    fun s l hl => ⟨fun hr => ?_, fun hr => ?_⟩, fun s n hn hopen hbusy => ?_, fun s l mv hl hlife => ?_⟩
  · refine ⟨?_, ?_⟩ <;> rw [exec, execArrayWake, isLane, onInstance_of (decide_eq_true hl), if_pos hlife] <;> rfl
  · rw [exec, execArrayClockOff, isLane, onInstance_of (decide_eq_true hl)]
    exact ⟨fun hon => by rw [if_pos hon], fun hon => by rw [if_neg (by rw [hon]; decide)]⟩
  · rw [exec_laneReset hl hopen, startLaneReset, if_pos hbusy]
  · rw [exec_laneReset hl hopen, startLaneReset, hbusy, if_neg Bool.false_ne_true,
      laneReset_free (s := setF s RST_LANE_lane l) hlife hw hr]
  · rw [exec_laneResetDone hl, laneResetDone, hr, if_neg Bool.false_ne_true]
  · rw [exec_laneResetDone hl, laneResetDone, if_pos hr]
    rfl
  · rw [exec_portReset hn hopen, startPortReset, hbusy, if_neg Bool.false_ne_true, portReset]
    refine ⟨fun hport => ?_, fun hport => ?_⟩
    · rw [if_pos hport]
    · rw [if_neg (by rw [hport]; decide)]
      rfl
  · refine ⟨fun hlow hoff hdroop => ?_, fun h => ?_, fun k v h => ?_, fun k v hdroop hover => ?_⟩
    · rw [exec_droopDetect hl hlife, droopDetect_low hlow hoff hdroop]
    · rw [exec_droopDetect hl hlife, droopDetect_not h]
    · rw [exec_droopRelease hl hlife, droopRelease_held _ h]
    · rw [exec_droopRelease hl hlife, droopRelease_over _ hdroop hover]
      rfl

end Sys2Proof.Machine
end

section
/-! Operand blocks and tensor headers read from sound memory, products and vector programs (06_lanes R136-R145, 08_vector
R206, R207). -/

namespace Sys2Proof.Machine

section
variable {s : State} {q idx : Nat} {e : CmdEntry} {sur : Surround}

/-- An aligned operand block in sound memory. -/
theorem readBlock_sound {n al : Nat} (halign : e.block % al = 0) (hin : inMemory e.block n = true) (h : Sound s e.block n) :
    readBlock s [] e n al = (s, some (peek s e.block n)) := by
  rw [readBlock, if_pos ⟨halign, hin⟩, memRead_sound h]

/-- A tensor's header in sound memory, where its format has one. -/
theorem readHeader_sound {f a : Nat} {sh : Int} (h : if hasHeader f = true then Sound s a 64 ∧
    headerShift (peek s a 64) f = some sh else sh = 0) (l : Nat) (own : Nat × Nat) :
    readHeader s [] l f a own = (s, some (some sh)) := by
  unfold readHeader
  split at h
  next hhead =>
    obtain ⟨hsound, hshift⟩ := h
    rw [hhead, Bool.not_true, if_neg Bool.false_ne_true, memRead_sound hsound]
    dsimp only
    rw [hshift]
  next hhead => rw [if_pos (by simpa using hhead), h]

/-! ### MATMUL -/

theorem mmSetup_sound {shA shB : Int} (hhits : sur.hits = []) (halign : e.block % 64 = 0) (hin : inMemory e.block 64 = true)
    (hsound : Sound s e.block 64) (hcheck : mmCheck s e (peek s e.block 64) (mmOpOf (peek s e.block 64)) = none)
    (hA : if hasHeader (mmOpOf (peek s e.block 64)).af = true then Sound s (mmOpOf (peek s e.block 64)).a 64 ∧
      headerShift (peek s (mmOpOf (peek s e.block 64)).a 64) (mmOpOf (peek s e.block 64)).af = some shA else shA = 0)
    (hB : if hasHeader (mmOpOf (peek s e.block 64)).bf = true then Sound s (mmHeadB s (mmOpOf (peek s e.block 64))) 64 ∧
      headerShift (peek s (mmHeadB s (mmOpOf (peek s e.block 64))) 64) (mmOpOf (peek s e.block 64)).bf = some shB
      else shB = 0) :
    mmSetup s e sur = (s, .ok (peek s e.block 64, mmRunOf s (mmOpOf (peek s e.block 64)) shA shB)) := by
  rw [mmSetup, hhits, readBlock_sound halign hin hsound]
  dsimp only
  rw [hcheck]
  dsimp only
  rw [readHeader_sound hA]
  dsimp only
  rw [readHeader_sound hB]

/-- A row whose engine's lanes are free runs its body. -/
theorem onLanes_row (h : RunsNow s q idx e sur) {ok : CmdEntry → Bool} (hok : ok e = true)
    (body : State → CmdEntry → State) : onInstance (isQueue q) (onLanes s q idx ok sur body) =
      .next (body (putCmd s { e with stage := .running }) { e with stage := .running }) := by
  obtain ⟨hq, -⟩ := id h
  rw [onQueue_of hq, onLanes_of_runsNow h, if_pos hok]

/-- What one tile adds to the tiles an array can run. -/
def tileReach (array : Nat → Nat × Bool) (free : Nat → Bool) (st : List Nat × List (Nat × Bool)) (t : Nat) :
    List Nat × List (Nat × Bool) :=
  if st.2.contains (array t) then st else if free t then (st.1 ++ [t], st.2) else (st.1, st.2 ++ [array t])

theorem tileReach_free {free : Nat → Bool} (hfree : ∀ t, free t = true) (array : Nat → Nat × Bool) (ts done : List Nat) :
    ts.foldl (tileReach array free) (done, []) = (done ++ ts, []) := by
  induction ts generalizing done with
  | nil => rw [List.foldl_nil, List.append_nil]
  | cons t ts ih =>
    rw [List.foldl_cons, tileReach, if_neg (by simp), if_pos (hfree t), ih, List.append_assoc, List.singleton_append]

/-- An unfused product waits for no chunk. -/
theorem reachedTiles_unfused {o : MmOp} (h : o.fused = false) : reachedTiles s e o = List.range (mmTiles o) := by
  have hfree : ∀ t, (!o.fused || !partOpen s e.q e.idx (tileLane e t) ||
      (tileChunks (landing s o.landing) o t).all (landing s o.landing).usable.contains) = true := fun t => by rw [h]; rfl
  exact congrArg Prod.fst (tileReach_free hfree (fun t => (tileLane e t, tileRight e t)) (List.range (mmTiles o)) [])

theorem mmAdvance_found {p : MmRun} {e2 : CmdEntry} {ts : List Nat} {e1 : CmdEntry} {s1 : State}
    (hts : (reachedTiles s e p.o).filter (fun t => !e.prod.tiles.contains t) = ts)
    (he1 : { e with chunks := (e.chunks ++ consumedChunks s e p.o ts).eraseDups } = e1)
    (hs1 : mmTilesRun p e1 sur ts (putCmd s e1) = s1) (hfind : findCmd s1 e.q e.idx = some e2) :
    mmAdvance p e sur s = if e2.prod.tiles.length = mmTiles p.o then mmFinish e2 p.o s1
      else if (landing s1 p.o.landing).state = 3 ∧ lacksChunk s1 e2 p.o = true then stopProduct s1 e2 0x0E false else s1 := by
  subst hts he1 hs1
  rw [mmAdvance]
  dsimp only
  rw [hfind]
  rfl

/-! ### MATMUL.TWIN -/

theorem twSetup_sound {b : List Byte} (hhits : sur.hits = []) (halign : e.block % 128 = 0) (hin : inMemory e.block 128 = true)
    (hsound : Sound s e.block 128) (hb : peek s e.block 128 = b) :
    (∀ r, twCheck s e b (twOpOf b) = some r → twSetup s e sur = (s, .error r)) ∧
    ∀ shG shW shX : Int, twCheck s e b (twOpOf b) = none →
      (if hasHeader (twOpOf b).gf = true then Sound s (twOpOf b).g 64 ∧
        headerShift (peek s (twOpOf b).g 64) (twOpOf b).gf = some shG else shG = 0) →
      (if hasHeader (twOpOf b).left.bf = true then Sound s (twOpOf b).left.b 64 ∧
        headerShift (peek s (twOpOf b).left.b 64) (twOpOf b).left.bf = some shW else shW = 0) →
      (if hasHeader (twOpOf b).rightSide.bf = true then Sound s (twOpOf b).rightSide.b 64 ∧
        headerShift (peek s (twOpOf b).rightSide.b 64) (twOpOf b).rightSide.bf = some shX else shX = 0) →
      twSetup s e sur = (s, .ok (twOpOf b, shG, shW, shX)) := by
  subst hb
  have hblock := readBlock_sound halign hin hsound
  refine ⟨fun r hcheck => ?_, fun shG shW shX hcheck hG hW hX => ?_⟩
  · rw [twSetup, hhits, hblock]
    dsimp only
    rw [hcheck]
  · rw [twSetup, hhits, hblock]
    dsimp only
    rw [hcheck]
    dsimp only
    rw [readHeader_sound hG]
    dsimp only
    rw [readHeader_sound hW]
    dsimp only
    rw [readHeader_sound hX]

theorem twBody_ok {s2 s3 : State} {e1 e2 : CmdEntry} {o : TwOp} {shG shW shX : Int}
    (he1 : { e with arrays := namedArrays e } = e1) (hsetup : twSetup (putCmd s e1) e1 sur = (s2, .ok (o, shG, shW, shX)))
    (hslots : o.sides.foldl (fun s sd => if sd.slot = 0xFFFF then s else (useSlot s sd.slot o.step).getD s) s2 = s3)
    (hfind : findCmd s3 e.q e.idx = some e2) : twBody sur s e = twRun o shG shW shX { e2 with arrays := twArrays e2 o } sur
      (putCmd s3 { e2 with arrays := twArrays e2 o }) := by
  subst he1 hslots
  rw [twBody]
  dsimp only
  rw [hsetup]
  dsimp only
  rw [hfind]

theorem exec_vecRun (h : RunsNow s q idx e sur) (hop : e.opcode = 0x0110) : exec (.vecRun q idx sur) s =
    .next (vecRunBody sur (putCmd s { e with stage := .running }) { e with stage := .running }) := by
  rw [exec, execVecRun, onLanes_row h (by rw [hop]; rfl)]

theorem vecRunBody_sound {b : List Byte} (hhits : sur.hits = []) (halign : e.block % 64 = 0)
    (hin : inMemory e.block 128 = true) (hsound : Sound s e.block 128) (hb : peek s e.block 128 = b) :
    (∀ r, vecBlockCheck e b = some r → vecRunBody sur s e = endAllParts s e.q e.idx r.1 r.2 []) ∧
    (vecBlockCheck e b = none →
      vecRunBody sur s e = finishParts ((laneList e).foldl (vecStart b [] e) s) e.q e.idx []) := by
  subst hb
  rw [vecRunBody, hhits, readBlock_sound halign hin hsound]
  refine ⟨fun r hcheck => ?_, fun hcheck => ?_⟩ <;>
  · dsimp only
    rw [hcheck]

end

/-- Settles O43. -/
theorem products : Obligations.Products := by
  refine ⟨fun s e sur shA shB hhits halign hin hsound hcheck hA hB => ?_,
    fun s s2 s3 q idx e e2 sur b p hruns hop hsetup => ?_, fun s p e e2 sur hfind => ?_,
    fun s s2 q idx st d e sur hruns hop hsetup => ?_, fun s q idx e sur hq hfind hop hstage => ?_,
    fun s q idx e e2 sur shG shW shX hruns hop hhits halign hin hsound => ?_,
    fun s q idx e sur hruns hop hhits halign hin hsound => ?_⟩
  · exact mmSetup_sound hhits halign hin hsound hcheck hA hB
  · obtain ⟨-, -, hfind, -⟩ := id hruns
    obtain ⟨rfl, rfl⟩ := findCmd_key hfind
    rw [exec, execMatmul, onLanes_row hruns (by rw [hop]; rfl), mmBody]
    dsimp only at hsetup ⊢
    rw [hsetup]
    dsimp only
    refine ⟨fun hslot hfind2 => ?_, fun hslot huse => ?_⟩
    · rw [hslot]
      dsimp only
      rw [hfind2]
    · rw [if_neg hslot, huse]
      rfl
  · refine ⟨reachedTiles_unfused, fun hall => ?_, fun hnot hstate hlacks => ?_, fun hnot hwait => ?_⟩
    · rw [mmAdvance_found rfl rfl rfl hfind, if_pos hall]
    · rw [mmAdvance_found rfl rfl rfl hfind, if_neg hnot, if_pos ⟨hstate, hlacks⟩]
    · rw [mmAdvance_found rfl rfl rfl hfind, if_neg hnot, if_neg]
      rintro ⟨hstate, hlacks⟩
      rcases hwait with hstate' | hlacks'
      · exact hstate' hstate
      · exact absurd (hlacks.symm.trans hlacks') (by decide)
  · obtain ⟨-, -, hfind, -⟩ := id hruns
    obtain ⟨rfl, rfl⟩ := findCmd_key hfind
    rw [exec, execMatmul, onLanes_row hruns (by rw [hop]; rfl), mmBody]
    dsimp only at hsetup ⊢
    rw [hsetup]
  · rw [exec, execFusedChunkReady, onQueue_of hq, fusedChunkReady, hfind]
    dsimp only
    rw [if_pos ⟨hop, hstage⟩]
  · obtain ⟨-, -, hfind, -⟩ := id hruns
    obtain ⟨rfl, rfl⟩ := findCmd_key hfind
    obtain ⟨hbad, hgood⟩ := twSetup_sound (s := putCmd (putCmd s { e with stage := .running }) { e with
      stage := .running, arrays := namedArrays { e with stage := .running } })
      (e := { e with stage := .running, arrays := namedArrays { e with stage := .running } }) hhits halign hin hsound rfl
    rw [exec, execMatmulTwin, onLanes_row hruns (by rw [hop]; rfl)]
    refine ⟨fun st d hcheck => ?_, fun hcheck hG hW hX hfind2 => ?_⟩
    · rw [twBody]
      dsimp only
      rw [hbad _ hcheck]
    · exact congrArg Host.Outcome.next (twBody_ok rfl (hgood shG shW shX hcheck hG hW hX) rfl hfind2)
  · obtain ⟨-, -, hfind, -⟩ := id hruns
    obtain ⟨rfl, rfl⟩ := findCmd_key hfind
    rw [exec_vecRun hruns hop]
    obtain ⟨hbad, hgood⟩ := vecRunBody_sound (s := putCmd s { e with stage := .running })
      (e := { e with stage := .running }) hhits halign hin hsound rfl
    refine ⟨fun st d hcheck => congrArg Host.Outcome.next (hbad (st, d) hcheck), fun hcheck => ?_⟩
    have hvec := hgood hcheck
    rw [hvec]
    rfl

end Sys2Proof.Machine
end

section
/-! DMA.COPY, SCALE.FIND and CONVERT where they are placed (07_numerics R185, 09_memory). -/

namespace Sys2Proof.Machine

section
variable {s : State} {q idx : Nat} {e : CmdEntry} {sur : Surround}

/-- A command that is placed is not dispatched again. -/
theorem onDispatch_of_runsNow (h : RunsNow s q idx e sur) (ok : CmdEntry → Bool) (body : State → CmdEntry → State) :
    onDispatch s q idx ok sur body = s := by
  obtain ⟨-, -, hfind, hroute, hrole, hstage, -⟩ := h
  rw [onDispatch, hfind]
  dsimp only
  have hadmit : admitCmd (failEntries s sur) e sur.table = (s, false) := by
    rw [failEntries_none s hroute hrole, admitCmd, if_pos (.inl (by rw [hstage]; decide))]
  rw [hadmit]
  exact ite_self s

theorem exec_dmaCopy (h : RunsNow s q idx e sur) (hop : e.opcode = 0x0201) : exec (.dmaCopy q idx sur) s =
    .next (if dmaMayRun s e then dmaBody sur (putCmd s { e with stage := .running }) { e with stage := .running } else s) := by
  obtain ⟨hq, -, hfind, -, -, hstage, hfront⟩ := id h
  rw [exec, execDmaCopy, onQueue_of hq, dmaStep]
  dsimp only
  rw [onDispatch_of_runsNow h, hfind]
  dsimp only
  simp only [hop, hstage, hfront, true_and, beq_self_eq_true]

/-! ### SCALE.FIND and CONVERT -/

variable {find : Bool} {b : List Byte}

theorem convBody_checked (hhits : sur.hits = []) (hblock : BlockAt s e 64 64) (hb : peek s e.block 64 = b) :
    (∀ r, convCheck s b (convOpOf find b) = some r → convBody find sur s e = endAllParts s e.q e.idx r.1 r.2 []) ∧
    ∀ (c : ConvOp) (sh : Int), convOpOf find b = c → convCheck s b c = none →
      (if hasHeader c.sf = true then Sound s c.src 64 ∧ headerShift (peek s c.src 64) c.sf = some sh else sh = 0) →
      convBody find sur s e = match (if c.slot = 0xFFFF then some s else useSlot s c.slot c.step) with
        | none => endAllParts s e.q e.idx 0x01 5 []
        | some s => convRun c e sur sh s := by
  obtain ⟨halign, hin, hsound⟩ := hblock
  subst hb
  have hread := readBlock_sound halign hin hsound
  refine ⟨fun r hcheck => ?_, fun c sh hc hcheck hhead => ?_⟩
  · rw [convBody]
    dsimp only
    rw [hhits, hread]
    dsimp only
    rw [hcheck]
  · rw [convBody]
    dsimp only
    rw [hhits, hread]
    dsimp only
    rw [hc, hcheck]
    dsimp only
    split at hhead
    next hsf =>
      obtain ⟨hsrc, hshift⟩ := hhead
      rw [if_pos hsf, memRead_sound hsrc]
      dsimp only
      rw [if_pos hsf, hshift]
      rfl
    next hsf =>
      rw [if_neg hsf]
      dsimp only
      rw [if_neg hsf, hhead]
      rfl

/-- The rows of SCALE.FIND and CONVERT differ in their opcodes alone. -/
theorem exec_conv (h : RunsNow s q idx e sur) (hop : e.opcode = if find then 0x0210 else 0x0211) :
    (if find then exec (.scaleFind q idx sur) s else exec (.convert q idx sur) s) =
      .next (convBody find sur (putCmd s { e with stage := .running }) { e with stage := .running }) := by
  cases find with
  | true => rw [if_pos rfl, exec, execScaleFind, onLanes_row h (by rw [hop]; rfl)]
  | false => rw [if_neg Bool.false_ne_true, exec, execConvert, onLanes_row h (by rw [hop]; rfl)]

end

/-- Settles O46. -/
theorem dataMoves : Obligations.DataMoves := by
  refine ⟨fun s q idx e sur hruns hop => ?_, fun s q idx e sur hruns hhits hblock => ?_⟩
  · rw [exec_dmaCopy hruns hop]
    refine ⟨fun hroom => ?_, fun hroom => ?_⟩
    · rw [if_pos (show dmaMayRun s e = true from hroom)]
    · rw [show dmaMayRun s e = false from hroom, if_neg Bool.false_ne_true]
  · obtain ⟨-, -, hfind, -⟩ := id hruns
    obtain ⟨rfl, rfl⟩ := findCmd_key hfind
    intro e1 s1 b row find hop
    obtain ⟨hbad, hgood⟩ := convBody_checked (s := s1) (e := e1) (find := find) (b := b) hhits hblock rfl
    have hrow := exec_conv hruns hop
    refine ⟨fun st d hcheck => ?_, fun sh hcheck hhead => ?_⟩
    · exact hrow.trans (congrArg Host.Outcome.next (hbad (st, d) hcheck))
    · have hbody := hgood _ sh rfl hcheck hhead
      refine ⟨fun hslot => ?_, fun s2 hslot huse => ?_, fun hslot huse => ?_⟩
      · rw [if_pos hslot] at hbody
        exact hrow.trans (congrArg Host.Outcome.next hbody)
      · rw [if_neg hslot, huse] at hbody
        exact hrow.trans (congrArg Host.Outcome.next hbody)
      · rw [if_neg hslot, huse] at hbody
        exact hrow.trans (congrArg Host.Outcome.next hbody)

end Sys2Proof.Machine
end

section
/-! A collective's start (12_collectives R300, 05_commands R110). -/

namespace Sys2Proof.Machine

section
variable {s : State} {q idx : Nat} {e : CmdEntry} {sur : Surround}

/-- The class of a command is the high byte of its opcode. -/
theorem cls_of_opcode {c n : Nat} (h : e.opcode = c * 256 + n) (hn : n < 256) : e.cls = c := by
  have hopcode : e.opcode = (e.bytes[0]?.getD 0).toNat + 256 * e.cls := rfl
  have hbyte : (e.bytes[0]?.getD 0).toNat < 256 := (e.bytes[0]?.getD 0).isLt
  omega

/-- A command whose engine has no room is not dispatched. -/
theorem admitCmd_full (hfind : findCmd s q idx = some e) (hlocal : anyRemoteRef e = false)
    (hepoch : epochTest s e = .equal) (hend : dispatchEnd s e false = none) (hunits : unitsOk s e = false) :
    admitCmd s e false = (s, false) := by
  obtain ⟨rfl, rfl⟩ := findCmd_key hfind
  have hlocal' := hlocal
  simp only [anyRemoteRef, Bool.or_eq_false_iff] at hlocal'
  obtain ⟨⟨h0, h1⟩, h2⟩ := hlocal'
  have hs0 : sendWatch s e 0 = (s, true) := by simp [sendWatch, h0]
  have hs1 : sendWatch s e 1 = (s, true) := by simp [sendWatch, h1]
  simp [admitCmd, hlocal, List.findSome?, refEnd_of_local h0, refEnd_of_local h1, refEnd_of_local h2, hs0, hfind,
    hs1, hepoch, hend, hunits]

theorem unitsOk_full (hcls : e.cls = 3) (hfull : 16 ≤ s.coll.running.length) : unitsOk s e = false := by
  have hroom : decide (s.coll.running.length < 16) = false := decide_eq_false (by omega)
  simp [unitsOk, hcls, hroom]

theorem collRow_dispatched {op : Nat} (h : Dispatches s q idx e sur) (hop : e.opcode = op) :
    collRow op q idx sur s = .next (takeSlot (onStages pgCOL sur (startColl sur) s e) q) := by
  obtain ⟨hq, -⟩ := id h
  rw [collRow, onQueue_of hq, onDispatch_of_dispatches h, if_pos (by rw [hop]; exact beq_self_eq_true op)]

theorem collRow_full {op n : Nat} (hq : q < 64) (hfind : findCmd s q idx = some e) (hroute : sur.routeFails = [])
    (hrole : sur.roleFails = []) (htable : sur.table = false) (hlocal : anyRemoteRef e = false)
    (hepoch : epochTest s e = .equal) (hend : dispatchEnd s e false = none) (hfull : 16 ≤ s.coll.running.length)
    (hop : e.opcode = 3 * 256 + n) (hn : n < 256) : collRow op q idx sur s = .next s := by
  have hadmit := admitCmd_full hfind hlocal hepoch hend (unitsOk_full (cls_of_opcode hop hn) hfull)
  rw [collRow, onQueue_of hq, onDispatch, hfind]
  dsimp only
  rw [failEntries_none s hroute hrole, htable, hadmit]
  exact congrArg Host.Outcome.next (ite_self s)

theorem startColl_unreachable (hblock : e.block % 64 ≠ 0 ∨ inMemory e.block 64 = false) :
    startColl sur s e = endCmd s e.q e.idx 0x01 16 [] := by
  have hbad : ¬ (e.block % 64 = 0 ∧ inMemory e.block 64 = true) := by
    rintro ⟨halign, hin⟩
    rcases hblock with hne | hout
    · exact hne halign
    · exact absurd (hin.symm.trans hout) (by decide)
  rw [startColl, readBlock, if_neg hbad]
  dsimp only
  rw [blockFault, if_neg hbad]
  rfl

theorem startColl_error (hhits : sur.hits = []) (hblock : BlockAt s e 64 64) {st d : Nat}
    (hcheck : collCheck s (peek s e.block 64) (collOpOf e.opcode (peek s e.block 64)) = .error (st, d)) :
    startColl sur s e = endCmd s e.q e.idx st d [] := by
  obtain ⟨halign, hin, hsound⟩ := hblock
  rw [startColl, hhits, readBlock_sound halign hin hsound]
  dsimp only
  rw [hcheck]

theorem startColl_ok (hhits : sur.hits = []) (hblock : BlockAt s e 64 64) {o : CollOp} {me : Nat} {devs : List Nat}
    (ho : collOpOf e.opcode (peek s e.block 64) = o) (hcheck : collCheck s (peek s e.block 64) o = .ok (me, devs))
    {s1 s2 : State} {r : CollRun}
    (hs1 : putCmd (if o.coded then takeRef s o.codec (cbzSlot s o.codec).curGen else s) { e with
      stage := .running, held := (if o.coded then some (o.codec, (cbzSlot s o.codec).curGen) else none),
      dest := [(o.dst, o.destBytes)] } = s1)
    (hr : { q := e.q, idx := e.idx, cmdId := e.cmdId, epoch := e.epoch, o := o, me := me, devs := devs, k5 := k5Job s1 } = r)
    (hs2 : armLanding (openStep { s1 with coll := { s1.coll with running := s1.coll.running ++ [r] } } o.step) o = s2) :
    startColl sur s e = takeHeld (settleColl (produce s2 e.q e.idx [] sur.lostChunks) e.q e.idx)
      (fun h => h.1.cmdId == e.cmdId && h.1.step == o.step && h.1.epoch == e.epoch) sur.lostChunks := by
  obtain ⟨halign, hin, hsound⟩ := hblock
  subst hs2 hr hs1
  rw [startColl, hhits, readBlock_sound halign hin hsound]
  dsimp only
  rw [ho, hcheck]

end

/-- Settles O48. -/
theorem collectiveStarts : Obligations.CollectiveStarts := by
  intro s q idx e sur hhits b o row hrow hop
  have hexec : exec row.1 s = collRow row.2 q idx sur s := by
    simp only [List.mem_cons, List.not_mem_nil, or_false] at hrow
    rcases hrow with rfl | rfl | rfl | rfl | rfl <;> rfl
  have hclass : row.2 = 3 * 256 + row.2 % 256 := by
    simp only [List.mem_cons, List.not_mem_nil, or_false] at hrow
    rcases hrow with rfl | rfl | rfl | rfl | rfl <;> norm_num
  have hmod : row.2 % 256 < 256 := Nat.mod_lt _ (by decide)
  rw [hexec]
  refine ⟨fun hq _ hfind hroute hrole htable hlocal hepoch hend hfull => ?_, fun k o' hdisp hstage => ?_,
    fun hdisp hstage hblock => ?_, fun hdisp hstage hblock => ⟨fun st d hcheck => ?_, fun me devs hcheck => ?_⟩⟩
  · exact collRow_full hq hfind hroute hrole htable hlocal hepoch hend hfull (hop.trans hclass) hmod
  all_goals
    obtain ⟨-, -, hfind, -⟩ := id hdisp
    obtain ⟨rfl, rfl⟩ := findCmd_key hfind
    rw [collRow_dispatched hdisp hop]
  · rw [onStages_lost _ hstage]
  · rw [onStages_none _ hstage, startColl_unreachable hblock]
  · rw [onStages_none _ hstage, startColl_error hhits hblock hcheck]
  · rw [onStages_none _ hstage, startColl_ok hhits hblock rfl hcheck rfl rfl rfl]

end Sys2Proof.Machine
end

section
/-! Chunk messages (12_collectives R293-R297). -/

namespace Sys2Proof.Machine

section
variable {s : State} {m : ChunkMsg} {x : Meet}

theorem exec_chunkRow {msg : Nat} (hlife : s.life = .running) (hmsg : m.msg = msg) : chunkRow msg m x s =
    .next (collArrive { s with coll := { s.coll with staged := s.coll.staged.filter (fun p => !ofMessage m p) } } m x) := by
  rw [chunkRow, whileRunning_of hlife, if_pos hmsg]

theorem collArrive_ended (hmsg : ¬ (m.msg = 0 ∨ 8 < m.msg)) (h : s.coll.ended.contains (m.cmdId, m.step, m.epoch) = true) :
    collArrive s m x = satF s COL_DISCARD_mismatched 1 := by
  rw [collArrive, if_neg hmsg, if_pos h, mismatched]

/-- What a message of a command that has not ended meets. -/
theorem collArrive_current (hmsg : ¬ (m.msg = 0 ∨ 8 < m.msg))
    (h : s.coll.ended.contains (m.cmdId, m.step, m.epoch) = false) :
    (epochCmp m.epoch (engineEpoch s) = .newer → collArrive s m x = holdChunk s m x.bad) ∧
    (epochCmp m.epoch (engineEpoch s) = .stale →
      (runOf s m = none ∨ (hurdleOpen s && m.epoch == getF s CMD_EPOCH_current) = false) →
      collArrive s m x = staleChunk s m) ∧
    (epochCmp m.epoch (engineEpoch s) = .equal → runOf s m = none → collArrive s m x = holdChunk s m x.bad) ∧
    ∀ r, (epochCmp m.epoch (engineEpoch s) = .equal ∨ (epochCmp m.epoch (engineEpoch s) = .stale ∧
      (hurdleOpen s && m.epoch == getF s CMD_EPOCH_current) = true)) → runOf s m = some r →
      collArrive s m x = onMessage s r m x := by
  have hended : ¬ s.coll.ended.contains (m.cmdId, m.step, m.epoch) = true := by rw [h]; decide
  rw [collArrive, if_neg hmsg, if_neg hended]
  refine ⟨fun hnewer => ?_, fun hstale hrun => ?_, fun hequal hrun => ?_, fun r hserved hrun => ?_⟩
  · rw [hnewer]
  · rw [hstale]
    cases hr : runOf s m with
    | none => rfl
    | some r =>
      dsimp only
      rcases hrun with hrun | hclosing
      · exact absurd (hrun.symm.trans hr) nofun
      · rw [if_neg]
        rintro ⟨hopen, hepoch⟩
        rw [hopen, hepoch, beq_self_eq_true] at hclosing
        exact absurd hclosing (by decide)
  · rw [hequal, hrun]
  · rw [hrun]
    rcases hserved with hequal | ⟨hstale, hclosing⟩
    · rw [hequal]
    · rw [Bool.and_eq_true, beq_iff_eq] at hclosing
      rw [hstale]
      exact if_pos hclosing

variable {r : CollRun}

theorem onMessage_disagrees (h : ¬ (m.opcode = r.o.op % 256 ∧ m.count = r.o.count ∧ m.k5 = r.k5)) :
    onMessage s r m x = raiseEv (satF s COL_DISCARD_mismatched 1) pgCOL ⟨0x4806, 2⟩
      [m.src, m.cmdId, m.step, m.epoch, m.opcode, m.count] := by
  rw [onMessage, if_pos (by tauto)]
  rfl

theorem onMessage_unkeyed (h : m.opcode = r.o.op % 256 ∧ m.count = r.o.count ∧ m.k5 = r.k5)
    (hkey : chunkKeyOk r.o (chunkKey m.owner m.chunk) = false) :
    onMessage s r m x = satF s COL_DISCARD_mismatched 1 := by
  rw [onMessage, if_neg (by tauto), if_pos (by rw [hkey]; rfl), mismatched]

theorem onMessage_taken (hmsg : ¬ (m.msg = 0 ∨ 8 < m.msg)) (h : m.opcode = r.o.op % 256 ∧ m.count = r.o.count ∧ m.k5 = r.k5)
    (hkey : chunkKeyOk r.o (chunkKey m.owner m.chunk) = true) : onMessage s r m x = match m.msg with
      | 1 => onContrib s r m x
      | 2 => onResult s r m x
      | 3 => onAck s r m
      | 4 => onNak s r m x
      | 5 => onConfirm s r m
      | 6 => onVoid s r m
      | 7 => onLater s r m
      | _ => onStale s r m := by
  rw [onMessage, if_neg (by tauto), hkey, if_neg (by decide)]
  have hrange : m.msg = 1 ∨ m.msg = 2 ∨ m.msg = 3 ∨ m.msg = 4 ∨ m.msg = 5 ∨ m.msg = 6 ∨ m.msg = 7 ∨ m.msg = 8 := by omega
  rcases hrange with h | h | h | h | h | h | h | h <;> (rw [h]; rfl)

end

/-- Settles O49. -/
theorem chunkMessages : Obligations.ChunkMessages := by
  refine ⟨?_, fun s q idx key p r rest x hq hlife hrun hlaters => ?_, fun s q idx hq => ?_⟩
  · intro s m x hlife t now run closing row hrow hmsg
    have hexec : exec row.1 s = .next (collArrive t m x) := by
      simp only [List.mem_cons, List.not_mem_nil, or_false] at hrow
      rcases hrow with rfl | rfl | rfl | rfl | rfl | rfl | rfl | rfl <;> exact exec_chunkRow hlife hmsg
    have hkind : ¬ (m.msg = 0 ∨ 8 < m.msg) := by
      simp only [List.mem_cons, List.not_mem_nil, or_false] at hrow
      rcases hrow with rfl | rfl | rfl | rfl | rfl | rfl | rfl | rfl <;> (dsimp only at hmsg; omega)
    rw [hexec]
    refine ⟨fun hended => ?_, fun hended => ?_⟩
    · rw [collArrive_ended (s := t) hkind hended]
    · obtain ⟨hnewer, hstale, hhold, htake⟩ := collArrive_current (s := t) (x := x) hkind hended
      refine ⟨fun h => ?_, fun h hor => ?_, fun h hnone => ?_, fun r hserved hsome =>
        ⟨fun hno => ?_, fun hag hkey => ?_, fun hag hkey => ?_⟩⟩
      · rw [hnewer h]
      · rw [hstale h hor]
        rfl
      · rw [hhold h hnone]
      · rw [htake r hserved hsome, onMessage_disagrees hno]
      · rw [htake r hserved hsome, onMessage_unkeyed hag hkey]
      · rw [htake r hserved hsome]
        exact congrArg Host.Outcome.next (onMessage_taken hkind hag hkey)
  · rw [exec, execLaterRetryExpiry, onQueue_of hq, whileRunning_of hlife, laterRetry, hrun]
    dsimp only
    rw [hlaters]
    dsimp only
    refine ⟨fun howner => ?_, fun howner hvoid hformed => ?_⟩
    · rw [if_pos howner]
    · rw [if_neg (not_not.mpr howner), if_neg (not_not.mpr hvoid), if_pos hformed]
  · rw [exec, execHurdleWaitExpiry, onQueue_of hq]
    refine ⟨fun hhurdle hpassed => ?_, fun h => ?_⟩
    · rw [if_pos ⟨hhurdle, by rw [hurdleOpen, hhurdle, hpassed]; rfl⟩]
    · rw [if_neg]
      rintro ⟨hhurdle, hopen⟩
      rw [hurdleOpen, Bool.and_eq_true, Bool.not_eq_true'] at hopen
      rcases h with hne | hpassed
      · exact hne hhurdle
      · exact absurd (hpassed.symm.trans hopen.2) (by decide)

end Sys2Proof.Machine
end

section
/-! The update engine's commands (13_training_state R307-R325). -/

namespace Sys2Proof.Machine

theorem bytesAt_peek (s : State) (a : Nat) {o n k : Nat} (h : o + n ≤ k) : bytesAt (peek s a k) o n = peek s (a + o) n := by
  refine List.map_congr_left fun i hi => ?_
  have hlt : o + i < k := by
    have := List.mem_range.mp hi
    omega
  rw [peek, List.getElem?_map, List.getElem?_range hlt, Option.map_some, Option.getD_some, Nat.add_assoc]

theorem leAt_peek (s : State) (a : Nat) {o n k : Nat} (h : o + n ≤ k) : leAt (peek s a k) o n = leNat (peek s (a + o) n) := by
  rw [leAt, bytesAt_peek s a h]

section
variable {s : State} {q idx : Nat} {e : CmdEntry} {sur : Surround} {b : List Byte}

/-! ### UPD.SWEEP -/

/-- A row of UPD.SWEEP on a command that may be dispatched. -/
theorem updRow_dispatches (h : Dispatches s q idx e sur) (hop : e.opcode = 0x0401) (mode : Nat) :
    updRow mode q idx sur s = .next (if (updMode mode s e && (decide (mode ≤ 2) || txnRoom s 2)) = true then
      takeSlot (onStages pgUPD sur (updBody sur) s e) q else s) := by
  obtain ⟨hq, hlife, -⟩ := id h
  rw [updRow, onQueueRunning_of hq hlife, onDispatch_of_dispatches h, hop]
  rfl

theorem updMode_of {mode : Nat} (h : min 4 (blockField s e 24 1) = mode) : updMode mode s e = true := by
  rw [updMode]
  split
  · exact decide_eq_true (by omega)
  · exact beq_iff_eq.mpr (by omega)

theorem updBody_checked (hhits : sur.hits = []) (hblock : BlockAt s e 64 64) (hb : peek s e.block 64 = b) :
    (updBlockOk b (updOpOf b) = true → ∀ r, runShards (⟨e.q, e.idx, e.epoch, updOpOf b, sur⟩ : UpdCtx)
        (putCmd s { e with stage := .running, opnd := b }) (List.replicate (updOpOf b).shards { pend := true }) = r →
      updBody sur s e = finishUpd r.1 e.q e.idx (updOpOf b) r.2) ∧
    (updBlockOk b (updOpOf b) = false →
      updBody sur s e = endCmd (putCmd s { e with stage := .running, opnd := b }) e.q e.idx 0x01 19 []) := by
  obtain ⟨halign, hin, hsound⟩ := hblock
  subst hb
  rw [updBody, hhits, readBlock_sound halign hin hsound]
  refine ⟨fun hok r hr => ?_, fun hok => ?_⟩
  · dsimp only
    rw [hok, Bool.not_true, if_neg Bool.false_ne_true, hr]
  · dsimp only
    rw [hok, Bool.not_false, if_pos rfl]
    rfl

/-! ### Shards that wait -/

theorem fetchRetry_room {r : FetchRun} (hfind : findCmd s q idx = some e)
    (hrun : s.upd.runs.find? (fun r => r.q == q && r.idx == idx) = some r) (hstage : sur.stage = {}) :
    fetchRetry s q idx sur = if txnRoom s 2 = true then
      finishUpd (runShards (⟨q, idx, e.epoch, updOpOf e.opnd, sur⟩ : UpdCtx) s r.outs).1 q idx (updOpOf e.opnd)
        (runShards (⟨q, idx, e.epoch, updOpOf e.opnd, sur⟩ : UpdCtx) s r.outs).2 else s := by
  rw [fetchRetry, hfind, hrun]
  dsimp only
  rw [hstage, stageWords_none]
  cases txnRoom s 2 with
  | true => rfl
  | false => rfl

/-! ### EXPORT and IMPORT -/

theorem exportMayRun_eq : exportMayRun s e = ((deviceOf s (leAt (peek s e.block 64) 8 8)).1.isNone || txnRoom s 5) := by
  rw [exportMayRun, blockField, leAt_peek s e.block (by decide)]

theorem exec_exportCmd (h : Dispatches s q idx e sur) (hop : e.opcode = 0x0410) : exec (.exportCmd q idx sur) s =
    .next (if exportMayRun s e = true then takeSlot (onStages pgUPD sur (exportBody sur) s e) q else s) := by
  obtain ⟨hq, hlife, -⟩ := id h
  rw [exec, execExportCmd, onQueueRunning_of hq hlife, onDispatch_of_dispatches h, hop]
  rfl

theorem exec_importCmd (h : Dispatches s q idx e sur) (hop : e.opcode = 0x0411) : exec (.importCmd q idx sur) s =
    .next (takeSlot (onStages pgUPD sur (importBody sur) s e) q) := by
  obtain ⟨hq, hlife, -⟩ := id h
  rw [exec, execImportCmd, onQueueRunning_of hq hlife, onDispatch_of_dispatches h, hop, if_pos (by decide)]

/-- A format of the stream that needs K5 emulation. -/
theorem namesK5_iff (x : ExpOp) : [x.wFmt, x.m1Fmt, x.m2Fmt].contains 5 = (x.wFmt == 5 || x.m1Fmt == 5 || x.m2Fmt == 5) := by
  simp only [List.contains_cons, List.contains_nil, Bool.or_false, Bool.or_assoc, BEq.comm (a := 5)]

theorem exportBody_checked (hhits : sur.hits = []) (hblock : BlockAt s e 64 64) (hb : peek s e.block 64 = b) {s1 : State}
    (hs1 : putCmd s { e with stage := .running } = s1) :
    (exportOk b (expOpOf b) = false → exportBody sur s e = endCmd s1 e.q e.idx 0x01 19 []) ∧
    (exportOk b (expOpOf b) = true → (!k5Job s && [(expOpOf b).wFmt, (expOpOf b).m1Fmt, (expOpOf b).m2Fmt].contains 5) = true →
      exportBody sur s e = endCmd s1 e.q e.idx 0x10 3 []) ∧
    (exportOk b (expOpOf b) = true → (!k5Job s && [(expOpOf b).wFmt, (expOpOf b).m1Fmt, (expOpOf b).m2Fmt].contains 5) = false →
      ∀ t acc r, exportRun (plainUpd e sur) (expOpOf b) s1 = (t, acc, r) → exportBody sur s e =
        endCmd t e.q e.idx ((r.map (·.1)).getD 0) ((r.map (·.2)).getD 0) (exportResult acc)) := by
  obtain ⟨halign, hin, hsound⟩ := hblock
  subst hb hs1
  have hk5 : k5Job (putCmd s { e with stage := .running }) = k5Job s := rfl
  rw [exportBody, hhits, readBlock_sound halign hin hsound]
  refine ⟨fun hok => ?_, fun hok hnamed => ?_, fun hok hnamed t acc r hrun => ?_⟩
  · dsimp only
    rw [hok, Bool.not_false, if_pos rfl]
    rfl
  · dsimp only
    rw [hok, Bool.not_true, if_neg Bool.false_ne_true, hk5, if_pos (Bool.and_eq_true_iff.mp hnamed)]
    rfl
  · dsimp only
    rw [hok, Bool.not_true, if_neg Bool.false_ne_true, hk5, if_neg, hrun]
    exact fun hand => absurd ((Bool.and_eq_true_iff.mpr hand).symm.trans hnamed) (by decide)

theorem importBody_checked (hhits : sur.hits = []) (hblock : BlockAt s e 64 64) (hb : peek s e.block 64 = b) {s1 : State}
    (hs1 : putCmd s { e with stage := .running } = s1) :
    (importOk b (expOpOf b) = false → importBody sur s e = endCmd s1 e.q e.idx 0x01 19 []) ∧
    (importOk b (expOpOf b) = true → ∀ t done n r, importRun (plainUpd e sur) (expOpOf b) s1 = (t, done, n, r) →
      importBody sur s e = endCmd t e.q e.idx ((r.map (·.1)).getD 0) ((r.map (·.2)).getD 0)
        (natLe 4 done ++ [0, 0, 0, 0] ++ natLe 4 n)) := by
  obtain ⟨halign, hin, hsound⟩ := hblock
  subst hb hs1
  rw [importBody, hhits, readBlock_sound halign hin hsound]
  refine ⟨fun hok => ?_, fun hok t done n r hrun => ?_⟩
  · dsimp only
    rw [hok, Bool.not_false, if_pos rfl]
    rfl
  · dsimp only
    rw [hok, Bool.not_true, if_neg Bool.false_ne_true, hrun]

theorem exec_updSweep {row : Instr × Nat} (hrow : row ∈ [(Instr.updSweepAdamw q idx sur, 0),
    (.updSweepMomentum q idx sur, 1), (.updSweepOuter q idx sur, 2), (.updSweepFetch q idx sur, 3),
    (.updSweepAudit q idx sur, 4)]) : exec row.1 s = updRow row.2 q idx sur s := by
  simp only [List.mem_cons, List.not_mem_nil, or_false] at hrow
  rcases hrow with rfl | rfl | rfl | rfl | rfl <;> rfl

/-- A background audit goes on where the transaction table has room. -/
theorem auditDone_room {a : BgAudit} {rest : List BgAudit} (haudits : s.upd.audits = a :: rest) (hstage : sur.stage = {})
    {t : State × List ShardOut} (ht : runShards (⟨64, 0, getF s CMD_EPOCH_current,
      { updOpOf a.block with mode := 4, copies := (updOpOf a.block).mode == 3 }, sur⟩ : UpdCtx) s
      (if a.outs = [] then List.replicate (updOpOf a.block).shards { pend := true } else a.outs) = t)
    {left : List BgAudit} (hleft : (if t.2.any (·.pend) = true then { a with outs := t.2 } :: rest else rest) = left) :
    auditDone s sur = if txnRoom s 2 = true then
      setF { t.1 with upd := { t.1.upd with audits := left } } UPD_AUDIT_busy (b2n (!left.isEmpty)) else s := by
  subst hleft ht
  rw [auditDone, haudits]
  dsimp only
  rw [hstage, stageWords_none]
  cases txnRoom s 2 with
  | true => simp only [Bool.not_true, Bool.false_eq_true, if_false, if_true, List.isEmpty_iff]
  | false => rfl

end

/-- Settles O51. -/
theorem updateSweeps : Obligations.UpdateSweeps := by
  refine ⟨?_, ?_, ?_, ?_, ?_⟩
  · intro s q idx e sur hdisp hhits hstage hblock hop b o s1 r row hrow hmode
    obtain ⟨-, -, hfind, -⟩ := id hdisp
    obtain ⟨rfl, rfl⟩ := findCmd_key hfind
    have hsel : updMode row.2 s e = true :=
      updMode_of ((congrArg (min 4) (leAt_peek s e.block (o := 24) (by decide)).symm).trans hmode)
    obtain ⟨hgood, hbad⟩ := updBody_checked (sur := sur) hhits hblock rfl
    rw [exec_updSweep hrow, updRow_dispatches hdisp hop, hsel, Bool.true_and, onStages_none _ hstage]
    refine ⟨fun hmode hroom => ?_, fun hroom hok => ?_, fun hroom hok => ?_⟩
    · rw [decide_eq_false (by omega), hroom, Bool.false_or, if_neg Bool.false_ne_true]
    · rw [if_pos (by simpa using hroom), hgood hok _ rfl]
    · rw [if_pos (by simpa using hroom), hbad hok]
  · intro s q idx e r sur hq hlife hfind hrun o v hstage
    rw [exec, execFetchRetryExpiry, onQueueRunning_of hq hlife, fetchRetry_room hfind hrun hstage]
  · intro s a rest sur hlife haudits hstage o t left
    rw [exec, execBackgroundAuditDone, whileRunning_of hlife, auditDone_room haudits hstage rfl rfl]
  · intro s q idx e sur k o hdisp hstage t
    obtain ⟨-, -, hfind, -⟩ := id hdisp
    obtain ⟨rfl, rfl⟩ := findCmd_key hfind
    refine ⟨fun hop hmode => ?_, fun hop => ?_⟩
    · have hsel : updMode 0 s e = true := updMode_of (by rw [hmode]; rfl)
      rw [show exec (.updSweepAdamw e.q e.idx sur) s = updRow 0 e.q e.idx sur s from rfl, updRow_dispatches hdisp hop, hsel,
        Bool.true_and, decide_eq_true (Nat.zero_le 2), Bool.true_or, if_pos rfl, onStages_lost _ hstage]
    · rw [exec_importCmd hdisp hop, onStages_lost _ hstage]
  · intro s q idx e sur hdisp hhits hstage hblock b x s1 c k5Named room
    obtain ⟨-, -, hfind, -⟩ := id hdisp
    obtain ⟨rfl, rfl⟩ := findCmd_key hfind
    obtain ⟨hexpBad, hexpK5, hexpRun⟩ := exportBody_checked (sur := sur) (s1 := s1) hhits hblock rfl rfl
    obtain ⟨himpBad, himpRun⟩ := importBody_checked (sur := sur) (s1 := s1) hhits hblock rfl rfl
    rw [namesK5_iff] at hexpK5 hexpRun
    have hexport : e.opcode = 0x0410 → exec (.exportCmd e.q e.idx sur) s =
        .next (if room = true then takeSlot (exportBody sur s e) e.q else s) := fun hop => by
      rw [exec_exportCmd hdisp hop, exportMayRun_eq, onStages_none _ hstage]
    have himport : e.opcode = 0x0411 → exec (.importCmd e.q e.idx sur) s = .next (takeSlot (importBody sur s e) e.q) :=
      fun hop => by rw [exec_importCmd hdisp hop, onStages_none _ hstage]
    refine ⟨fun hop hroom => ?_, fun hop hroom hok hk5 t acc r hrun => ?_, fun hop hroom hok hk5 => ?_,
      fun hop hroom hok => ?_, fun hop hok t done n r hrun => ?_, fun hop hok => ?_⟩
    · rw [hexport hop, hroom, if_neg Bool.false_ne_true]
    · rw [hexport hop, if_pos hroom, hexpRun hok hk5 t acc r hrun]
      rfl
    · rw [hexport hop, if_pos hroom, hexpK5 hok hk5]
    · rw [hexport hop, if_pos hroom, hexpBad hok]
    · rw [himport hop, himpRun hok t done n r hrun]
    · rw [himport hop, himpBad hok]

end Sys2Proof.Machine
end

section
/-! BATON.SEND (14_milant R331, R345-R358). -/

namespace Sys2Proof.Machine

section
variable {s : State} {q idx : Nat} {e : CmdEntry} {sur : Surround} {o : BatonOp}

/-- A row of BATON.SEND on a command dispatched now whose block is in sound memory. -/
theorem milRow_dispatches {op : Nat} (h : Dispatches s q idx e sur) (hhits : sur.hits = []) (hstage : sur.stage = {})
    (hblock : BlockAt s e 64 64) (hop : e.opcode = 0x0501) (ho : batonOpOf (peek s e.block 64) = o)
    (hrow : o.op = op ∨ (op = 0 ∧ 6 < o.op)) (body : BatonOp → State → CmdEntry → State) :
    milRow op q idx sur body s = .next (takeSlot (if batonOpOk (peek s e.block 64) o = true then body o s e
      else endCmd s e.q e.idx 0x01 28 []) q) := by
  subst ho
  obtain ⟨hq, hlife, -⟩ := id h
  obtain ⟨halign, hin, hsound⟩ := hblock
  have hfield : blockField s e 0 1 = (batonOpOf (peek s e.block 64)).op := (leAt_peek s e.block (o := 0) (by decide)).symm
  have hsel : milOp op s e = true := by
    rw [milOp, hfield]
    rcases hrow with hsame | ⟨rfl, hres⟩
    · rw [hsame]
      simp
    · rw [decide_eq_true hres]
      simp
  rw [milRow, onQueueRunning_of hq hlife, onDispatch_of_dispatches h, hop, hsel, if_pos (by rfl), onStages_none _ hstage,
    hhits, readBlock_sound halign hin hsound]
  dsimp only
  cases batonOpOk (peek s e.block 64) (batonOpOf (peek s e.block 64)) with
  | true => rfl
  | false => rfl

/-- A row of BATON.SEND on a good block. -/
theorem milRow_ok {op : Nat} (h : Dispatches s q idx e sur) (hhits : sur.hits = []) (hstage : sur.stage = {})
    (hblock : BlockAt s e 64 64) (hop : e.opcode = 0x0501) (ho : batonOpOf (peek s e.block 64) = o)
    (hok : batonOpOk (peek s e.block 64) o = true) (hrow : o.op = op) (body : BatonOp → State → CmdEntry → State) :
    milRow op q idx sur body s = .next (takeSlot (body o s e) q) := by
  rw [milRow_dispatches h hhits hstage hblock hop ho (.inl hrow), if_pos hok]

theorem sendMust_gone {hs : List Parcel} {d : Nat} (h : hs.findSome? (pathFault s) = some d) (pre : List Byte)
    (src len : Nat) : sendMust s sur e o hs pre src len = endCmd s e.q e.idx 0x01 d [] := by
  rw [sendMust, h]
  rfl

theorem sendMust_reached {hs : List Parcel} (h : hs.findSome? (pathFault s) = none) (pre : List Byte) (src len : Nat) :
    sendMust s sur e o hs pre src len =
      settleMil (hs.foldl (fun s h => launch s sur e h pre src len) (beginMil s e o)) e.q e.idx := by
  rw [sendMust, h]

/-! ### Timeouts -/

/-- Messages of a command that is not running are left alone. -/
theorem resend_idle {α : Type} {p : State → Bool} (f : State → α → State) (h : p s = false) (ms : List α) :
    ms.foldl (fun s m => if p s = true then f s m else s) s = s := by
  induction ms with
  | nil => rfl
  | cons m ms ih => rw [List.foldl_cons, h, if_neg Bool.false_ne_true, ih]

theorem resendAll_clean (hstage : sur.stage = {}) : resendAll s q idx sur =
    ((sendsOf s q idx).filter (fun m => !m.acked && !m.dead)).foldl (fun s m =>
      if s.mil.runs.any (fun r => r.q == q && r.idx == idx) then sendMsg s sur.hits m true (allPieces m) else s) s := by
  rw [resendAll]
  cases hrun : s.mil.runs.any (fun r => r.q == q && r.idx == idx) with
  | true => rw [hstage, stageWords_none, Bool.not_true, if_neg Bool.false_ne_true]
  | false =>
    rw [Bool.not_false, if_pos rfl]
    exact (resend_idle (p := fun s => s.mil.runs.any (fun r => r.q == q && r.idx == idx))
      (fun s m => sendMsg s sur.hits m true (allPieces m)) hrun _).symm

theorem exec_relayTimeout (hq : q < 64) (hlife : s.life = .running) :
    exec (.relayTimeout q idx) s = .next (relayTimeout s q idx) := by
  rw [exec, execRelayTimeout, onQueueRunning_of hq hlife]

end

/-- Settles O53. -/
theorem batonSends : Obligations.BatonSends := by
  refine ⟨?_, fun s q idx sur hq hlife hstage => ?_, fun s q idx r hq hlife hrun => ?_⟩
  · intro s q idx e sur hdisp hhits hstage hblock hop b o gone goes desc relay flags transfer others
    obtain ⟨hq, -, hfind, -⟩ := id hdisp
    obtain ⟨rfl, rfl⟩ := findCmd_key hfind
    have hrow : ∀ {op : Nat} (body : BatonOp → State → CmdEntry → State), batonOpOk b o = true → o.op = op →
        milRow op e.q e.idx sur body s = .next (takeSlot (body o s e) e.q) := fun body hok hkind =>
      milRow_ok hdisp hhits hstage hblock hop rfl hok hkind body
    refine ⟨fun row hmem hkind hbad => ?_, fun d hok hgone hkind => ?_, fun hok hgone hkind => ?_, fun hok hgone hkind => ?_,
      fun hok hgone hkind => ?_, fun hok hkind => ?_, fun hok hkind => ⟨fun hroom => ?_, fun hroom hcur => ?_,
      fun hroom hcur => ?_⟩, fun hok hkind hfree => ?_, fun hok hkind hfree => ?_, fun hbusy => ⟨?_, ?_⟩⟩
    · have hrefuse : ∀ {op : Nat} (body : BatonOp → State → CmdEntry → State), o.op = op ∨ (op = 0 ∧ 6 < o.op) →
          milRow op e.q e.idx sur body s = .next (takeSlot (endCmd s e.q e.idx 0x01 28 []) e.q) := fun body hkind => by
        rw [milRow_dispatches hdisp hhits hstage hblock hop rfl hkind, hbad, if_neg Bool.false_ne_true]
      simp only [List.mem_cons, List.not_mem_nil, or_false] at hmem
      rcases hmem with rfl | rfl | rfl | rfl | rfl
      · exact hrefuse (sendRelay sur) hkind
      · exact hrefuse (sendFlag sur) hkind
      · exact hrefuse (sendBatons sur) hkind
      · exact hrefuse (sendManifest sur) hkind
      · exact hrefuse (sendTransfer sur) hkind
    · rw [exec, execBatonSendRelay, hrow _ hok hkind, sendRelay, sendMust_gone hgone]
    · rw [exec, execBatonSendRelay, hrow _ hok hkind, sendRelay, sendMust_reached hgone]
    · rw [exec, execBatonSendFlag, hrow _ hok hkind, sendFlag, sendMust_reached hgone]
    · rw [exec, execBatonSendTransfer, hrow _ hok hkind, sendTransfer, sendMust_reached hgone]
    · rw [exec, execBatonSendManifest, hrow _ hok hkind, sendManifest]
      rfl
    · rw [exec, execBatonSendBaton, hrow _ hok hkind, sendBatons, if_pos hroom]
      rfl
    · rw [exec, execBatonSendBaton, hrow _ hok hkind, sendBatons, if_neg hroom, hcur, Bool.not_false, if_pos rfl]
      rfl
    · rw [exec, execBatonSendBaton, hrow _ hok hkind, sendBatons, if_neg hroom, hcur, Bool.not_true,
        if_neg Bool.false_ne_true]
    · rw [exec, execBatonSendMerge, if_pos hfree, hrow _ hok hkind]
    · rw [exec, execBatonSendRebase, if_pos hfree, hrow _ hok hkind, runRebase]
    · rw [exec, execBatonSendMerge, hbusy, if_neg Bool.false_ne_true, onQueue_of hq]
    · rw [exec, execBatonSendRebase, hbusy, if_neg Bool.false_ne_true, onQueue_of hq]
  · rw [exec, execResendTimeout, onQueueRunning_of hq hlife, resendAll_clean hstage]
  · rw [exec_relayTimeout hq hlife, relayTimeout, hrun]
    dsimp only
    refine ⟨fun hop => ?_, fun h2 h4 => ?_⟩
    · rw [if_pos hop]
    · rw [if_neg (by tauto)]
      rfl

end Sys2Proof.Machine
end

section
/-! The link layer: flits, replay and the spare lane (11_stadium_fabric R258-R263). -/

namespace Sys2Proof.Machine

section
variable {s : State} {n : Nat}

theorem port_setPort (h : tableWf (fun _ => ({} : PortSt)) s.fab.ports = true) (n : Nat) (p : PortSt) :
    port (setPort s n p) n = p := tget_tset_same _ h n p

theorem port_satF (s : State) (f : Fld) (k n : Nat) : port (satF s f k) n = port s n := rfl

/-! ### The decoder -/

/-- Counts added to the first k entries of a table. -/
def addCounts (c : List Nat) (t : Table Nat) (l : Nat) : Table Nat :=
  tset (fun _ => 0) t l (tget (fun _ => 0) t l + c.getD l 0)

theorem addCounts_range {t : Table Nat} (h : tableWf (fun _ => (0 : Nat)) t = true) (c : List Nat) (k : Nat) :
    tableWf (fun _ => (0 : Nat)) ((List.range k).foldl (addCounts c) t) = true ∧
    ∀ l, tget (fun _ => 0) ((List.range k).foldl (addCounts c) t) l =
      if l < k then tget (fun _ => 0) t l + c.getD l 0 else tget (fun _ => 0) t l := by
  induction k with
  | zero => exact ⟨h, fun l => by rw [if_neg (Nat.not_lt_zero l)]; rfl⟩
  | succ k ih =>
    obtain ⟨hwf, hget⟩ := ih
    rw [List.range_succ, List.foldl_append, List.foldl_cons, List.foldl_nil]
    refine ⟨tableWf_tset _ hwf _ _, fun l => ?_⟩
    by_cases hl : l = k
    · subst hl
      rw [addCounts, tget_tset_same _ hwf, hget, if_neg (Nat.lt_irrefl l), if_pos (Nat.lt_succ_self l)]
    · rw [addCounts, tget_tset_ne _ _ _ hl, hget]
      by_cases hlt : l < k
      · rw [if_pos hlt, if_pos (by omega)]
      · rw [if_neg hlt, if_neg (by omega)]

theorem codewordBegins_iff (p : PortSt) : codewordBegins p = true ↔ p.rxBits = 0 ∨ 2570 < p.rxBits + 2048 := by
  rw [codewordBegins, Bool.or_eq_true, beq_iff_eq, decide_eq_true_iff]

theorem decodeFlit_frame (s : State) (n : Nat) (c : List Nat) (unc : Bool) : (decodeFlit s n c unc).1 = { s with
    regs := (decodeFlit s n c unc).1.regs
    fab := { s.fab with ports := (decodeFlit s n c unc).1.fab.ports } } := rfl

/-- The port a flit leaves behind it. -/
theorem port_decodeFlit (h : tableWf (fun _ => ({} : PortSt)) s.fab.ports = true) (n : Nat) (c : List Nat) (unc : Bool) :
    port (decodeFlit s n c unc).1 n = { port s n with
      laneCorrected := (List.range 8).foldl (addCounts c) (port s n).laneCorrected
      rxBits := ((port s n).rxBits + 2048) % 2570
      badWord := if codewordBegins (port s n) then unc else (port s n).badWord } := by
  rw [decodeFlit]
  dsimp only
  rw [port_satF, port_satF]
  exact port_setPort h n _

theorem decodeFlit_bad (s : State) (n : Nat) (c : List Nat) (unc : Bool) : (decodeFlit s n c unc).2 = true ↔
    (((port s n).rxBits = 0 ∨ 2570 < (port s n).rxBits + 2048) ∧ unc = true) ∨
      ((port s n).rxBits ≠ 0 ∧ (port s n).badWord = true) := by
  show (codewordBegins (port s n) && unc || ((port s n).rxBits != 0 && (port s n).badWord)) = true ↔ _
  rw [Bool.or_eq_true, Bool.and_eq_true, Bool.and_eq_true, codewordBegins_iff, bne_iff_ne]

theorem b2n_newWord (p : PortSt) (unc : Bool) : b2n (codewordBegins p && unc) =
    if (p.rxBits = 0 ∨ 2570 < p.rxBits + 2048) ∧ unc = true then 1 else 0 := by
  rw [b2n]
  exact if_congr (by rw [Bool.and_eq_true, codewordBegins_iff]) rfl rfl

theorem decodeFlit_regs (s : State) (n : Nat) (c : List Nat) (unc : Bool) : (decodeFlit s n c unc).1.regs =
    (satF (satF s (PORT_FEC_corrected n) (c.take 8).sum) (PORT_FEC_uncorrectable n)
      (if ((port s n).rxBits = 0 ∨ 2570 < (port s n).rxBits + 2048) ∧ unc = true then 1 else 0)).regs := by
  rw [← b2n_newWord]
  rfl

/-! ### Flits and replay -/

theorem exec_flitReceive (hn : n < 20) (hlife : s.life = .running) (htrain : (port s n).train = .trained) (f : Flit)
    (c : List Nat) (unc par bad : Bool) {s1 : State} (hs1 : (if par then satF (decodeFlit s n c unc).1 DEV_REPLAY_path_replays 1
      else (decodeFlit s n c unc).1) = s1) : exec (.flitReceive n f c unc par bad) s = .next
      (if (decodeFlit s n c unc).2 = true ∨ par = true ∨ f.crc ≠ crc32c (flitBytes f) then
        sendNak (satF s1 (PORT_CRC_crc_fail n) 1) n
      else if f.null then takeFields s1 n f bad
      else if f.seq = (port s1 n).expected then
        if (port (deliverFlit (takeFields s1 n f bad) n f) n).train ≠ .trained then deliverFlit (takeFields s1 n f bad) n f
        else sendNull (setPort (deliverFlit (takeFields s1 n f bad) n f) n { port (deliverFlit (takeFields s1 n f bad) n f) n with
          expected := ((port (deliverFlit (takeFields s1 n f bad) n f) n).expected + 1) % 65536, naking := false }) n false
      else
        if (port (takeFields (satF s1 (PORT_CRC_seq_fail n) 1) n f bad) n).train = .trained ∧
          f.seq ≠ ((port (takeFields (satF s1 (PORT_CRC_seq_fail n) 1) n f bad) n).expected + 65535) % 65536 then
          sendNak (takeFields (satF s1 (PORT_CRC_seq_fail n) 1) n f bad) n
        else takeFields (satF s1 (PORT_CRC_seq_fail n) 1) n f bad) := by
  subst hs1
  rw [exec, execFlitReceive, onPort_of hn hlife, receiveFlit, if_neg (not_not.mpr htrain)]

theorem exec_replayTimeout (hn : n < 20) (hlife : s.life = .running) (bad : Bool) :
    exec (.replayTimeout n bad) s = .next (replay s n (lastAcked (port s n)) bad) := by
  rw [exec, execReplayTimeout, onPort_of hn hlife]

theorem replay_going {a : Nat} (h : (port s n).replay ≠ []) {s1 : State} (hs1 : satF (setPort s n { port s n with
      replayRun := (port s n).replayRun + 1, replayFrom := some a }) (PORT_REPLAY_replays n) 1 = s1) :
    replay s n a false = if replayLimit s1 n ≤ (port s n).replayRun + 1 then
      portDown (raiseEv s1 pgFAB evReplayExhausted [n, lastAcked (port s n)]) n 1
      else (port s n).replay.foldl (resendFlit n) s1 := by
  subst hs1
  rw [replay]
  dsimp only
  rw [if_neg (by rwa [List.isEmpty_iff]), if_neg Bool.false_ne_true]

/-! ### The spare lane -/

theorem onPortLane_of {lane : Nat} (hn : n < 20) (hlane : lane < 8) (hlife : s.life = .running) (t : State) :
    onInstance (isPort n && isLaneNo lane) (whileRunning s t) = .next t := by
  rw [whileRunning_of hlife, isPort_of hn, isLaneNo, decide_eq_true hlane, onInstance_of (by rfl)]

theorem exec_laneLossOfLock {lane : Nat} (hn : n < 20) (hlane : lane < 8) (hlife : s.life = .running) :
    exec (.laneLossOfLock n lane) s = .next (lossOfLock s n lane) := by
  rw [exec, execLaneLossOfLock, onPortLane_of hn hlane hlife]

theorem exec_correctedSymbolLimit {lane : Nat} (hn : n < 20) (hlane : lane < 8) (hlife : s.life = .running) (k : Nat) :
    exec (.correctedSymbolLimit n lane k) s = .next (symbolLimit s n lane k) := by
  rw [exec, execCorrectedSymbolLimit, onPortLane_of hn hlane hlife]

theorem exec_swapRequestReceived {lane : Nat} (hn : n < 20) (hlane : lane < 8) (hlife : s.life = .running)
    (htrain : (port s n).train = .trained) (answer : Bool) : exec (.swapRequestReceived n lane answer) s =
      .next (if answer then swapAnswer s n lane else swapRequest s n lane) := by
  rw [exec, execSwapRequestReceived, onPortLane_of hn hlane hlife, if_neg (not_not.mpr htrain)]

theorem bitOf_or_eight (v : Word) : bitOf (v ||| 8).toNat 3 = true := by
  rw [bitOf_eq_testBit, BitVec.toNat_or, Nat.testBit_or, show (8 : Word).toNat.testBit 3 = true from rfl, Bool.or_true]

/-- A host's write asks for a swap where the spare is free and the port is up. -/
theorem writePortLane_asks {v : Word} {s1 : State} (h : bitOf v.toNat 3 = true) (hs1 : setF (setF (setF s
      (PORT_LANE_swap_lane n) v.toNat) (PORT_LANE_auto_swap n) (bitsOf v.toNat 4 1)) (PORT_LANE_lane_log2 n)
      (bitsOf v.toNat 8 5) = s1) : writePortLane s n v =
      if isSet s1 (PORT_STATE_spare_used n) = false ∧ (port s n).train = .trained then requestSwap s1 n (v.toNat % 8) false
      else s1 := by
  subst hs1
  rw [writePortLane]
  exact if_congr (by rw [h]; simp [port]) rfl rfl

end

/-- Settles O54. -/
theorem linkLayer : Obligations.LinkLayer := by
  refine ⟨?_, ?_, ?_, ?_, ?_⟩
  · intro s n c unc hwf p d begins
    have hport := port_decodeFlit hwf n c unc
    refine ⟨decodeFlit_bad s n c unc, decodeFlit_frame s n c unc, decodeFlit_regs s n c unc, ?_, ?_, fun hlanes l hl => ?_⟩
    · rw [congrArg PortSt.rxBits hport]
    · rw [congrArg PortSt.badWord hport]
      exact if_congr (codewordBegins_iff p) rfl rfl
    · rw [congrArg PortSt.laneCorrected hport, (addCounts_range hlanes c 8).2, if_pos hl]
  · intro s n c f unc par bad hn hlife htrain d s1 good
    rw [exec_flitReceive hn hlife htrain f c unc par bad (s1 := s1) rfl]
    have hbad : (d.2 = true ∨ par = true ∨ f.crc ≠ crc32c (flitBytes f)) ↔ ¬ good := by
      show _ ↔ ¬ (d.2 = false ∧ par = false ∧ f.crc = crc32c (flitBytes f))
      cases d.2 <;> cases par <;> simp
    refine ⟨fun hnot => ?_, fun hgood hnull => ?_, ?_, ?_⟩
    · rw [if_pos (hbad.mpr hnot)]
    · rw [if_neg (fun h => hbad.mp h hgood), if_pos hnull]
    · intro hgood hnull hseq s2 htrained
      rw [if_neg (fun h => hbad.mp h hgood), hnull, if_neg Bool.false_ne_true, if_pos hseq, if_neg (not_not.mpr htrained)]
    · intro hgood hnull hseq s2
      rw [if_neg (fun h => hbad.mp h hgood), hnull, if_neg Bool.false_ne_true, if_neg hseq]
  · intro s n hn hlife
    refine ⟨fun hnone => ?_, ?_⟩
    · rw [exec_replayTimeout hn hlife, replay]
      dsimp only
      rw [hnone, List.isEmpty_nil, if_pos rfl]
    · intro hsome p s1
      refine ⟨fun hlt => ?_, fun hle => ?_, ?_⟩
      · rw [exec_replayTimeout hn hlife, replay_going hsome (s1 := s1) rfl, if_neg (Nat.not_le.mpr hlt)]
      · rw [exec_replayTimeout hn hlife, replay_going hsome (s1 := s1) rfl, if_pos hle]
      · rw [exec_replayTimeout hn hlife, replay]
        dsimp only
        rw [if_neg (by rwa [List.isEmpty_iff]), if_pos rfl]
  · intro s n lane k hn hlane hlife htrain p spare
    refine ⟨?_, fun hspare hfor => ?_, fun hspare hfor => ?_, fun hspare hswap hauto => ?_,
      fun hspare hswap hauto => ⟨?_, fun hover => ?_, fun hunder => ?_⟩, fun hspare hfor => ?_, fun hspare hfor => ?_,
      fun hspare hswap => ?_, fun hswap => ?_, fun hswap hreplay hfree => ?_, ?_⟩
    · rw [exec, execLossOfLight, onPort_of hn hlife]
    · rw [exec_laneLossOfLock hn hlane hlife, lossOfLock]
      rw [if_neg (not_not.mpr htrain), if_pos hspare, if_pos hfor]
    · rw [exec_laneLossOfLock hn hlane hlife, lossOfLock]
      rw [if_neg (not_not.mpr htrain), if_pos hspare, if_neg hfor]
      rfl
    · rw [exec_laneLossOfLock hn hlane hlife, lossOfLock]
      rw [if_neg (not_not.mpr htrain), if_neg (fun h => absurd (h.symm.trans hspare) (by decide)), swapOf, hswap]
      dsimp only
      rw [hauto, if_neg Bool.false_ne_true]
    · rw [exec_laneLossOfLock hn hlane hlife, lossOfLock]
      rw [if_neg (not_not.mpr htrain), if_neg (fun h => absurd (h.symm.trans hspare) (by decide)), swapOf, hswap]
      dsimp only
      rw [if_pos hauto]
    · rw [exec_correctedSymbolLimit hn hlane hlife, symbolLimit, if_pos ⟨htrain, hover, hauto, Bool.not_eq_true' _ ▸ hspare⟩]
    · rw [exec_correctedSymbolLimit hn hlane hlife, symbolLimit, if_neg (by omega)]
    · rw [exec_swapRequestReceived hn hlane hlife htrain, if_neg Bool.false_ne_true, swapRequest]
      rw [if_pos hspare, if_pos hfor]
    · rw [exec_swapRequestReceived hn hlane hlife htrain, if_neg Bool.false_ne_true, swapRequest]
      rw [if_pos hspare, if_neg hfor]
      rfl
    · rw [exec_swapRequestReceived hn hlane hlife htrain, if_neg Bool.false_ne_true, swapRequest]
      rw [if_neg (fun h => absurd (h.symm.trans hspare) (by decide)), hswap]
    · rw [exec_swapRequestReceived hn hlane hlife htrain, if_pos rfl, swapAnswer, if_pos hswap]
    · rw [exec, execSwapDrainDone, onPort_of hn hlife, swapDrainDone]
      rw [hswap]
      dsimp only
      rw [if_pos ⟨by rw [hreplay]; rfl, hfree⟩]
    · intro hswap hnext s1 s2
      rw [exec, execSpareLaneTrained, onPort_of hn hlife, spareTrained]
      dsimp only
      rw [hswap, hnext]
      rfl
  · intro s n v hn hopen w s1
    rw [exec, execLaneSwapHost, onInstance_of (isPort_of hn), onPage_of hopen,
      writePortLane_asks (bitOf_or_eight v) (s1 := s1) rfl]
    refine ⟨fun h => ?_, fun hspare htrain => ?_⟩
    · rw [if_neg]
      rintro ⟨hspare, htrain⟩
      rcases h with hused | hdown
      · exact absurd (hspare.symm.trans hused) (by decide)
      · exact hdown htrain
    · rw [if_pos ⟨hspare, htrain⟩]

end Sys2Proof.Machine
end

section
/-! A write from a partner that initialises the last region of the cellar (11_stadium_fabric R267, 09_memory R226): its
event may signal by interrupt, so it can change the host interface's pending-bit array. -/

namespace Sys2Proof.Machine

theorem pumpGo_host (fuel : Nat) (s : State) (n : Nat) : (pumpGo fuel s n).host = s.host := by
  induction fuel generalizing s with
  | zero => rfl
  | succ fuel ih =>
    simp only [pumpGo]
    split
    · rfl
    · split
      · rfl
      · rfl
      · split
        · rfl
        · exact ih _

/-- A packet sent leaves the host interface alone. -/
theorem respond_host (s : State) (p : Packet) (st : Nat) (data : List Byte) : (respond s p st data).host = s.host := by
  unfold respond
  dsimp only
  split
  · rfl
  · unfold transmit
    dsimp only
    split
    · rfl
    · exact pumpGo_host ..

/-- A partner's write of sound local memory. -/
theorem perform_write {s : State} {p : Packet} (hvc : p.vc = 2) (hop : p.op = 2) (hregion : regionOf p.addr = .cellar)
    (hrange : rangeOk p = true) (hlen : (bytesAt p.data 0 p.length).length = p.length)
    (hup : memoryUp s p.addr p.length = true) (hsound : Sound s p.addr p.length) : perform s p {} =
      respond (freshLines (poke s p.addr (bytesAt p.data 0 p.length)) p.addr p.length) p 0 [] := by
  rw [perform, if_neg (by omega), if_neg Bool.false_ne_true, if_neg (by omega), if_neg (by rw [hregion]; decide),
    stageWords_none]
  dsimp only
  rw [performMem, if_neg (by omega), if_pos hop, serveWrite, hrange, Bool.not_true, if_neg Bool.false_ne_true, targetWrite,
    if_neg (by rw [hregion]; decide), hlen, if_pos hup, memWrite_sound (hlen.symm ▸ hsound), hlen]

/-- almostInit with the cellar ready. -/
def almostServing : State := { almostInit with regs := [(0x148, 4), (0x8108, 0x80001)] }

/-- A partner's write of four zero bytes at address 0. -/
def zeroWrite : Packet := { vc := 2, src := 1, dst := 0, op := 2, length := 4 }

theorem almostServing_sound (a n : Nat) : Sound almostServing a n := fun _ _ => List.not_mem_nil

theorem poke_almostServing (n : Nat) : poke almostServing 0 (List.replicate n 0) = almostServing := by
  have h := congrArg (fun s : State => { s with regs := almostServing.regs }) (poke_almostInit n)
  exact h

theorem freshLines_almostServing : (freshLines almostServing 0 4).host.msixPending = [0] := by
  rw [freshLines_last (s := almostServing) rfl rfl (by decide) (by decide)]
  decide +kernel

theorem perform_almostServing : (perform almostServing zeroWrite {}).host.msixPending = [0] := by
  rw [perform_write rfl rfl (by decide) (by decide) rfl (by decide) (almostServing_sound _ _), respond_host]
  show (freshLines (poke almostServing 0 (List.replicate 4 0)) 0 4).host.msixPending = [0]
  rw [poke_almostServing]
  exact freshLines_almostServing

/-- Refutes O55: a partner's write may initialise the cellar's last region, whose event pends an interrupt. -/
theorem not_fabricRequests : ¬ Obligations.FabricRequests := by
  intro h
  obtain ⟨-, -, -, hmem, -⟩ := h
  obtain ⟨-, hwrite, -⟩ := hmem almostServing zeroWrite {} rfl rfl rfl (.inl rfl) rfl (by decide) (almostServing_sound _ _)
  obtain ⟨t, hperform, -, hframe, -⟩ := hwrite rfl (by decide)
  have hhost := congrArg State.host hframe
  dsimp only at hhost
  have hpend := perform_almostServing
  rw [hperform, respond_host, hhost] at hpend
  exact absurd hpend (by decide)

end Sys2Proof.Machine
end

section
/-! Milant links, frames, parcels and erasure groups (14_milant R328-R353). -/

namespace Sys2Proof.Machine

section
variable {s : State} {n : Nat}

theorem onMilPort_of (hn : n < 2) (hlife : s.life = .running) (t : State) :
    onInstance (isMilPort n) (whileRunning s t) = .next t := by
  rw [whileRunning_of hlife, isMilPort, onInstance_of (decide_eq_true hn)]

/-- A port's state other than the one a port starts with is read back. -/
theorem milPort_setMilPort (s : State) (n : Nat) {p : MilPort} (h : p ≠ {}) : milPort (setMilPort s n p) n = p :=
  tget_tset_of_ne_default _ _ _ h

/-! ### Links -/

theorem milLink_stays {up : Bool} (h : up = true ∧ isSet s CLK_STATUS_net_ref_ok = false) : milLink s n up = s := by
  obtain ⟨hup, href⟩ := h
  rw [milLink, if_pos (.inr (.inr (.inr ⟨hup, by rw [href]; rfl⟩)))]

theorem milLink_moves {up : Bool} (hprof : bitOf s.pac.milPorts n = true) (hstw : isSet s DEV_START_steward_ready = true)
    (hold : milUp s n = !up) (href : up = true → isSet s CLK_STATUS_net_ref_ok = true) :
    ¬ ((!bitOf s.pac.milPorts n) = true ∨ (!isSet s DEV_START_steward_ready) = true ∨ milUp s n = up ∨
      (up = true ∧ (!isSet s CLK_STATUS_net_ref_ok) = true)) := by
  rw [hprof, hstw, hold]
  cases up with
  | true => simp [href rfl]
  | false => simp

theorem closeGroup_sends (h : (milPort s n).group ≠ []) : closeGroup s n = setMilPort { s with
    out := s.out ++ (List.range 4).map (fun j => Output.repair n (toPeer s n)
      (repairOf ((milPort s n).live.getD 0) (milPort s n).groupNo j (milPort s n).group)) } n
    { milPort s n with group := [], groupNo := (milPort s n).groupNo + 1 } := by
  have hemit : ∀ (f : Nat → Output) (s : State), (List.range 4).foldl (fun s j => emit s (f j)) s =
      { s with out := s.out ++ (List.range 4).map f } := fun f s => by
    simp only [List.range_succ, List.range_zero, List.nil_append, List.cons_append, List.foldl_cons, List.foldl_nil, emit,
      List.append_assoc, List.map_cons, List.map_nil]
  rw [closeGroup]
  dsimp only
  rw [if_neg h, hemit]

/-! ### Frames -/

theorem peerAddr_satF {f : Fld} (k : Nat) (hlo : 0x1d104 + 0x1000 * n ≠ f.addr) (hhi : 0x1d108 + 0x1000 * n ≠ f.addr) :
    peerAddr (satF s f k) n = peerAddr s n := by
  rw [peerAddr, getF_satF_ne s k hlo, getF_satF_ne s k hhi, peerAddr]

/-- A frame's codewords counted. -/
def wireCounted (s : State) (n : Nat) (w : Wire) : State :=
  satF (satF s (MIL_FEC_low n) w.corrected) (MIL_FEC_high n) w.uncorrectable

theorem milPort_wireCounted (s : State) (n : Nat) (w : Wire) : milPort (wireCounted s n w) n = milPort s n := rfl

theorem takeWire_eq (s : State) (n : Nat) (w : Wire) (len : Nat) : takeWire s n w len =
    if w.peer = peerAddr s n ∧ 64 ≤ 16 + 4 * b2n w.vlan + len ∧ 16 + 4 * b2n w.vlan + len ≤ 9216 then
      (wireCounted s n w, true) else (satF (wireCounted s n w) (MIL_DROP_low n) 1, false) := by
  have hpeer : peerAddr (wireCounted s n w) n = peerAddr s n := by
    rw [wireCounted, peerAddr_satF _ (by simp [MIL_FEC_high]) (by simp [MIL_FEC_high]),
      peerAddr_satF _ (by simp [MIL_FEC_low]) (by simp [MIL_FEC_low])]
  rw [← hpeer]
  rfl

theorem takeWire_good {w : Wire} {len : Nat} (hpeer : w.peer = peerAddr s n) (hmin : 64 ≤ 16 + 4 * b2n w.vlan + len)
    (hmax : 16 + 4 * b2n w.vlan + len ≤ 9216) : takeWire s n w len = (wireCounted s n w, true) := by
  rw [takeWire_eq, if_pos ⟨hpeer, hmin, hmax⟩]

theorem takeWire_bad {w : Wire} {len : Nat} (h : w.peer ≠ peerAddr s n ∨ 16 + 4 * b2n w.vlan + len < 64 ∨
    9216 < 16 + 4 * b2n w.vlan + len) : takeWire s n w len = (satF (wireCounted s n w) (MIL_DROP_low n) 1, false) := by
  rw [takeWire_eq, if_neg]
  rintro ⟨hpeer, hmin, hmax⟩
  omega

variable {f : DataFrame}

/-- An association's receive state after a frame. -/
def rxMoved (p : MilPort) (f : DataFrame) : MilPort :=
  { p with rx := p.rx.map (fun y => if y.an = f.an then { y with pn := max y.pn f.pn } else y) }

theorem verifyFrame_found {a : Assoc} (h : (milPort s n).rx.find? (fun a => a.an == f.an) = some a) : verifyFrame s n f =
    if f.icv = false then (satF s (MIL_DROP_high n) 1, false)
    else if f.pn + 8192 ≤ a.pn then (satF s (MIL_DROP_low n) 1, false)
    else (setMilPort s n (rxMoved (milPort s n) f), true) := by
  have han : a.an = f.an := by simpa using List.find?_some h
  rw [verifyFrame, h]
  dsimp only
  rw [han]
  cases f.icv <;> rfl

theorem rxMoved_ne {p : MilPort} {a : Assoc} (h : p.rx.find? (fun a => a.an == f.an) = some a) : rxMoved p f ≠ {} := by
  intro hdefault
  have hrx : p.rx.map _ = [] := congrArg MilPort.rx hdefault
  rw [List.map_eq_nil_iff] at hrx
  rw [hrx] at h
  exact absurd h (by simp)

theorem resolveGroups_none {found : List DataFrame} (h : (milPort s n).groups = []) : resolveGroups s n found = (s, []) := by
  rw [resolveGroups, h]
  rfl

/-- A group that lacks more frames than repairs came for it waits. -/
theorem resolveGroups_short {g : GroupRx} {found : List DataFrame} (h : (milPort s n).groups = [g]) (hopen : g.closed = false)
    (hshort : g.repairs.length < (missingOf (milPort s n) g).length) : resolveGroups s n found = (s, []) := by
  have hsome : missingOf (milPort s n) g ≠ [] := List.ne_nil_of_length_pos (by omega)
  rw [resolveGroups, h, List.filter_cons, hopen, Bool.not_false, if_pos rfl, List.filter_nil, List.foldl_cons, List.foldl_nil]
  dsimp only
  rw [if_neg hsome, if_neg (Nat.not_le.mpr hshort)]

theorem receiveFrame_taken {p : MilPort} {a : Assoc} {found : List DataFrame} (hup : milUp s n = true)
    (hpeer : f.wire.peer = peerAddr s n) (hmin : 64 ≤ 16 + 4 * b2n f.wire.vlan + f.span.length)
    (hmax : 16 + 4 * b2n f.wire.vlan + f.span.length ≤ 9216) (hp : milPort s n = p)
    (hrx : p.rx.find? (fun a => a.an == f.an) = some a) (hicv : f.icv = true) (hnew : a.pn < f.pn + 8192)
    {r : State × List DataFrame} (hr : resolveGroups (setMilPort (setMilPort (wireCounted s n f.wire) n (rxMoved p f)) n
      { rxMoved p f with recent := ((f.an, f.pn, f.span) :: p.recent).take 8192 }) n found = r) :
    receiveFrame s n f found = (r.1, f :: r.2) := by
  subst hp hr
  rw [receiveFrame, hup, Bool.not_true, if_neg Bool.false_ne_true, takeWire_good hpeer hmin hmax]
  dsimp only
  rw [verifyFrame_found (s := wireCounted s n f.wire) hrx, hicv, if_neg (by decide), if_neg (by omega), milPort_wireCounted]
  dsimp only
  rw [milPort_setMilPort _ _ (rxMoved_ne hrx)]
  rfl

theorem receiveFrame_dropped {a : Assoc} {found : List DataFrame} (hup : milUp s n = true)
    (hpeer : f.wire.peer = peerAddr s n) (hmin : 64 ≤ 16 + 4 * b2n f.wire.vlan + f.span.length)
    (hmax : 16 + 4 * b2n f.wire.vlan + f.span.length ≤ 9216)
    (hrx : (milPort s n).rx.find? (fun a => a.an == f.an) = some a) :
    (f.icv = false → receiveFrame s n f found = (satF (wireCounted s n f.wire) (MIL_DROP_high n) 1, [])) ∧
    (f.icv = true → f.pn + 8192 ≤ a.pn →
      receiveFrame s n f found = (satF (wireCounted s n f.wire) (MIL_DROP_low n) 1, [])) := by
  refine ⟨fun hicv => ?_, fun hicv hold => ?_⟩ <;>
    rw [receiveFrame, hup, Bool.not_true, if_neg Bool.false_ne_true, takeWire_good hpeer hmin hmax]
  · dsimp only
    rw [verifyFrame_found (s := wireCounted s n f.wire) hrx, if_pos hicv]
  · dsimp only
    rw [verifyFrame_found (s := wireCounted s n f.wire) hrx, hicv, if_neg (by decide), if_pos hold]

theorem receiveFrame_refused {found : List DataFrame} (hup : milUp s n = true) :
    (f.wire.peer ≠ peerAddr s n ∨ 16 + 4 * b2n f.wire.vlan + f.span.length < 64 ∨
        9216 < 16 + 4 * b2n f.wire.vlan + f.span.length →
      receiveFrame s n f found = (satF (wireCounted s n f.wire) (MIL_DROP_low n) 1, [])) ∧
    (f.wire.peer = peerAddr s n → 64 ≤ 16 + 4 * b2n f.wire.vlan + f.span.length →
      16 + 4 * b2n f.wire.vlan + f.span.length ≤ 9216 → (milPort s n).rx.find? (fun a => a.an == f.an) = none →
      receiveFrame s n f found = (satF (wireCounted s n f.wire) (MIL_DROP_high n) 1, [])) := by
  refine ⟨fun hbad => ?_, fun hpeer hmin hmax hnone => ?_⟩ <;>
    rw [receiveFrame, hup, Bool.not_true, if_neg Bool.false_ne_true]
  · rw [takeWire_bad hbad]
  · rw [takeWire_good hpeer hmin hmax]
    dsimp only
    rw [verifyFrame, show (milPort (wireCounted s n f.wire) n).rx.find? (fun a => a.an == f.an) = none from hnone]
    rfl

/-! ### Parcels -/

variable {found : List DataFrame} {x : Meet} {ok : Parcel → Bool}

/-- The rows of parcels, each with the parcels it takes. -/
def parcelRows (n : Nat) (f : DataFrame) (found : List DataFrame) (x : Meet) : List (Instr × (Parcel → Bool)) :=
  [(.relayParcel n f found x, fun p => p.kind == 1 || p.kind == 0 || decide (7 ≤ p.kind)),
    (.flagParcel n f found x, fun p => p.kind == 2), (.batonParcel n f found x, fun p => p.kind == 3),
    (.manifestParcel n f found x, fun p => p.kind == 4), (.transferParcel n f found x, fun p => p.kind == 5),
    (.controlAcknowledge n f found x, fun p => p.kind == 6 && ctlCode p != 2 && ctlCode p != 3),
    (.controlResend n f found x, fun p => p.kind == 6 && ctlCode p == 2),
    (.controlWithdraw n f found x, fun p => p.kind == 6 && ctlCode p == 3)]

theorem exec_parcelRows {row : Instr × (Parcel → Bool)} (h : row ∈ parcelRows n f found x) :
    exec row.1 s = parcelRow row.2 n f found x s := by
  simp only [parcelRows, List.mem_cons, List.not_mem_nil, or_false] at h
  rcases h with rfl | rfl | rfl | rfl | rfl | rfl | rfl | rfl <;> rfl

theorem parcelRow_port (hn : n < 2) (hlife : s.life = .running) (hok : ok f.parcel = true) {u : State} {fs : List DataFrame}
    (h : receiveFrame s n f found = (u, fs)) :
    parcelRow ok n f found x s = .next (fs.foldl (fun s g => takeParcel s n x g.parcel) u) := by
  rw [parcelRow, whileRunning_of hlife, onInstance_of (decide_eq_true (by omega)), if_pos hok, parcelIn, if_neg (by omega), h]

theorem parcelRow_handed (hlife : s.life = .running) (hok : ok f.parcel = true) : parcelRow ok 2 f found x s =
    .next (if isSet s DEV_START_fabric_ready then takeParcel s 2 x f.parcel else s) := by
  rw [parcelRow, whileRunning_of hlife, onInstance_of (by rfl), if_pos hok, parcelIn, if_pos rfl]

theorem parcelRow_early (hlife : s.life = .running) (hready : isSet s DEV_START_fabric_ready = false) :
    parcelRow ok 2 f found x s = .next s := by
  rw [parcelRow, whileRunning_of hlife, onInstance_of (by rfl), parcelIn, if_pos rfl, hready, if_neg Bool.false_ne_true,
    ite_self]

/-- The control rows share their parcels by the code of the first entry. -/
theorem controlRows_handed (hlife : s.life = .running) (hready : isSet s DEV_START_fabric_ready = true)
    (h6 : f.parcel.kind = 6) {t : State} (h : takeParcel s 2 x f.parcel = t) :
    (ctlCode f.parcel ≠ 2 → ctlCode f.parcel ≠ 3 → exec (.controlAcknowledge 2 f found x) s = .next t) ∧
    (ctlCode f.parcel = 2 → exec (.controlResend 2 f found x) s = .next t) ∧
    (ctlCode f.parcel = 3 → exec (.controlWithdraw 2 f found x) s = .next t) := by
  refine ⟨fun h2 h3 => ?_, fun h2 => ?_, fun h3 => ?_⟩
  · rw [exec, execControlAcknowledge, parcelRow_handed hlife (by simp [h6, h2, h3]), if_pos hready, h]
  · rw [exec, execControlResend, parcelRow_handed hlife (by simp [h6, h2]), if_pos hready, h]
  · rw [exec, execControlWithdraw, parcelRow_handed hlife (by simp [h6, h3]), if_pos hready, h]

theorem saysStored_kind {ws : List BatonWait} {p : Parcel} (h : p.kind ≠ 6) : ws.any (saysStored p) = false := by
  rw [List.any_eq_false]
  intro w _
  rw [saysStored, beq_eq_false_iff_ne.mpr h]
  exact Bool.false_ne_true

/-- A parcel handed over whose way ends here. -/
theorem takeParcel_here {p : Parcel} (h0 : p.kind ≠ 0) (h7 : ¬ 7 ≤ p.kind) (hwaits : s.mil.waits.any (saysStored p) = false)
    (hhop : hopOf s p = .here) :
    takeParcel s 2 x p = if p.kind = 6 then takeControl s p x else deliverAll (collect s 2 p) x := by
  rw [takeParcel, if_neg (by tauto), hwaits, if_neg Bool.false_ne_true, hhop, ite_self]

theorem takeParcel_lands {p : Parcel} (h0 : p.kind ≠ 0) (h6 : p.kind < 6) (hhop : hopOf s p = .here) :
    takeParcel s 2 x p = deliverAll (collect s 2 p) x := by
  rw [takeParcel_here h0 (by omega) (saysStored_kind (by omega)) hhop, if_neg (by omega)]

theorem takeParcel_goes {p : Parcel} (h0 : p.kind ≠ 0) (h7 : ¬ 7 ≤ p.kind) (hwaits : s.mil.waits.any (saysStored p) = false)
    (hbaton : ¬ (p.kind = 3 ∧ p.dstBld = myParticipant s)) (hhop : hopOf s p ≠ .here) :
    takeParcel s 2 x p = sendHop (endTransit (noteTransit s 2 p) p) (hopOf s p) p := by
  rw [takeParcel, if_neg (by tauto), hwaits, if_neg Bool.false_ne_true, if_neg (by tauto)]
  cases h : hopOf s p with
  | here => exact absurd h hhop
  | ports ns => rfl
  | device vc d => rfl
  | nowhere => rfl

theorem takeParcel_heard {p : Parcel} (h6 : p.kind = 6) (hwaits : s.mil.waits.any (saysStored p) = true) :
    takeParcel s 2 x p = hearStored s 2 p := by
  rw [takeParcel, if_neg (by omega), if_pos hwaits]

/-- What one control entry does. -/
def actEntry (p : Parcel) (x : Meet) (s : State) (c : CtlEntry) : State :=
  if c.code = 1 then onAckEntry s p.srcBld c
  else if c.code = 2 then onResendEntry s x.hits p.srcBld c
  else if c.code = 3 then onWithdrawEntry s p.dstBld c else s

theorem takeParcel_control {p : Parcel} (h6 : p.kind = 6) (hwaits : s.mil.waits.any (saysStored p) = false)
    (hhop : hopOf s p = .here) :
    takeParcel s 2 x p = deliverAll ((ctlEntries p.body).foldl (actEntry p x) s) x := by
  rw [takeParcel_here (by omega) (by omega) hwaits hhop, if_pos h6, takeControl]
  refine congrArg (deliverAll · x) (congrArg (fun g => (ctlEntries p.body).foldl g s) ?_)
  funext s c
  rw [actEntry]
  split
  next h => rw [if_pos h]
  next h => rw [if_neg (by omega), if_pos h]
  next h => rw [if_neg (by omega), if_neg (by omega), if_pos h]
  next h1 h2 h3 => rw [if_neg h1, if_neg h2, if_neg h3]

/-! ### Repair frames -/

variable {r : Repair}

theorem receiveRepair_bad (hup : milUp s n = true) (h : r.wire.peer ≠ peerAddr s n ∨
    9216 < 162 + 4 * b2n r.wire.vlan + r.bytes.length) :
    receiveRepair s n r found = (satF (wireCounted s n r.wire) (MIL_DROP_low n) 1, []) := by
  rw [receiveRepair, hup, Bool.not_true, if_neg Bool.false_ne_true, takeWire_bad (by omega)]

theorem receiveRepair_good (hup : milUp s n = true) (hpeer : r.wire.peer = peerAddr s n)
    (hmax : 162 + 4 * b2n r.wire.vlan + r.bytes.length ≤ 9216) :
    ((4 ≤ r.j ∨ r.n = 0 ∨ 32 < r.n) → receiveRepair s n r found = (wireCounted s n r.wire, [])) ∧
    ∀ g : GroupRx, ¬ (4 ≤ r.j ∨ r.n = 0 ∨ 32 < r.n) → (milPort s n).groups = [] →
      ⟨r.an, r.pnFirst, r.n, r.len, r.entries, [(r.j, r.bytes)], false⟩ = g → 2 ≤ (missingOf (milPort s n) g).length →
      receiveRepair s n r found = (setMilPort (wireCounted s n r.wire) n { milPort s n with groups := [g] }, []) := by
  rw [receiveRepair, hup, Bool.not_true, if_neg Bool.false_ne_true, takeWire_good hpeer (by omega) (by omega)]
  dsimp only
  refine ⟨fun hshape => by rw [if_pos hshape], fun g hshape hnone hg hmiss => ?_⟩
  subst hg
  rw [if_neg hshape, milPort_wireCounted, hnone, List.any_nil, if_neg Bool.false_ne_true, List.nil_append]
  have hne : ({ milPort s n with
      groups := [⟨r.an, r.pnFirst, r.n, r.len, r.entries, [(r.j, r.bytes)], false⟩] } : MilPort) ≠ {} := fun h =>
    absurd (congrArg MilPort.groups h) (List.cons_ne_nil _ _)
  have hport := milPort_setMilPort (wireCounted s n r.wire) n hne
  rw [resolveGroups_short (congrArg MilPort.groups hport) rfl]
  rw [hport]
  exact hmiss

theorem exec_repairFrame (hn : n < 2) (hlife : s.life = .running) {u : State} (h : receiveRepair s n r found = (u, [])) :
    exec (.repairFrame n r found x) s = .next u := by
  rw [exec, execRepairFrame, onMilPort_of hn hlife, repairIn, h]
  rfl

end

/-- Settles O56. -/
theorem milantRows : Obligations.MilantRows := by
  refine ⟨?_, ?_, ?_, ?_, ?_, ?_, ?_⟩
  · intro s n hn hlife
    refine ⟨fun hprof hstw => ⟨fun hold href => ?_, fun hold href => ?_, fun hold => ?_⟩, fun hup => ?_, fun hup => ?_,
      fun hgroup => ?_, fun hgroup => ?_⟩
    · rw [exec, execMilantLinkUp, onMilPort_of hn hlife, milLink_stays ⟨rfl, href⟩]
    · rw [exec, execMilantLinkUp, onMilPort_of hn hlife, milLink, if_neg (milLink_moves (up := true) hprof hstw hold (fun _ => href))]
      rfl
    · rw [exec, execMilantLinkDown, onMilPort_of hn hlife, milLink, if_neg (milLink_moves (up := false) hprof hstw hold nofun)]
      rfl
    · rw [exec, execForeignFrame, onMilPort_of hn hlife, if_pos hup]
    · rw [exec, execForeignFrame, onMilPort_of hn hlife, hup, if_neg Bool.false_ne_true]
    · rw [exec, execGroupHoldExpiry, onMilPort_of hn hlife, closeGroup]
      dsimp only
      rw [if_pos hgroup]
    · rw [exec, execGroupHoldExpiry, onMilPort_of hn hlife, closeGroup_sends hgroup]
  · intro s n f found x hn hlife hup p s1 bytes row hmem hok
    have hrow : ∀ u fs, receiveFrame s n f found = (u, fs) →
        exec row.1 s = .next (fs.foldl (fun s g => takeParcel s n x g.parcel) u) := fun u fs h => by
      obtain ⟨r, hr, rfl⟩ := List.mem_map.mp (show row ∈ (parcelRows n f found x).map (fun r => (r.1, r.2 f.parcel)) from hmem)
      rw [exec_parcelRows hr]
      exact parcelRow_port hn hlife hok h
    obtain ⟨hrefuse, hunknown⟩ := receiveFrame_refused (f := f) (found := found) hup
    refine ⟨fun hbad => ?_, fun hpeer hmin hmax => ⟨fun hnone => ?_, fun a hrx => ?_⟩⟩
    · rw [hrow _ _ (hrefuse hbad)]
      rfl
    · rw [hrow _ _ (hunknown hpeer hmin hmax hnone)]
      rfl
    · obtain ⟨hicv, hold⟩ := receiveFrame_dropped (found := found) hup hpeer hmin hmax hrx
      refine ⟨fun h => ?_, fun h hpn => ?_, ?_⟩
      · rw [hrow _ _ (hicv h)]
        rfl
      · rw [hrow _ _ (hold h hpn)]
        rfl
      · intro h hpn rx t r
        refine ⟨hrow _ _ (receiveFrame_taken hup hpeer hmin hmax rfl hrx h hpn rfl), fun hgroups => ?_⟩
        have hne : ({ p with rx := rx, recent := ((f.an, f.pn, f.span) :: p.recent).take 8192 } : MilPort) ≠ {} := fun h =>
          absurd (congrArg MilPort.recent h) (List.cons_ne_nil _ _)
        exact resolveGroups_none ((congrArg MilPort.groups (milPort_setMilPort _ n hne)).trans hgroups)
  · intro s f found x hlife
    refine ⟨fun hready row hmem _ => ?_, fun hready => ⟨fun row hmem hkind => ?_, fun h6 hwaits hcode => ?_,
      fun h6 hwaits hhop => ?_, fun h6 hwaits c hone => ?_⟩⟩
    · obtain ⟨r, hr, hrow⟩ := List.mem_map.mp
        (show row.1 ∈ (parcelRows 2 f found x).map Prod.fst from List.mem_map_of_mem (f := Prod.fst) hmem)
      rw [← hrow, exec_parcelRows hr, parcelRow_early hlife hready]
    · have hrow : exec row.1 s = .next (takeParcel s 2 x f.parcel) ∧ row.2 ≠ 0 ∧ row.2 < 6 := by
        have hkindRow : ∀ {ok : Parcel → Bool}, ok f.parcel = true →
            parcelRow ok 2 f found x s = .next (takeParcel s 2 x f.parcel) := fun hok => by
          rw [parcelRow_handed hlife hok, if_pos hready]
        simp only [List.mem_cons, List.not_mem_nil, or_false] at hmem
        rcases hmem with rfl | rfl | rfl | rfl | rfl
        · exact ⟨hkindRow (ok := fun p => p.kind == 1 || p.kind == 0 || decide (7 ≤ p.kind)) (by rw [hkind]; rfl),
            by simp, by simp⟩
        · exact ⟨hkindRow (ok := fun p => p.kind == 2) (by rw [hkind]; rfl), by simp, by simp⟩
        · exact ⟨hkindRow (ok := fun p => p.kind == 3) (by rw [hkind]; rfl), by simp, by simp⟩
        · exact ⟨hkindRow (ok := fun p => p.kind == 4) (by rw [hkind]; rfl), by simp, by simp⟩
        · exact ⟨hkindRow (ok := fun p => p.kind == 5) (by rw [hkind]; rfl), by simp, by simp⟩
      obtain ⟨hexec, h0, h6⟩ := hrow
      rw [← hkind] at h0 h6
      refine ⟨fun hhop => ?_, fun hbaton hhop => ?_⟩
      · rw [hexec, takeParcel_lands h0 h6 hhop]
      · rw [hexec, takeParcel_goes h0 (by omega) (saysStored_kind (by omega)) (by rw [hkind]; tauto) hhop]
    · exact (controlRows_handed hlife hready h6 (takeParcel_heard h6 hwaits)).1 (by omega) (by omega)
    · exact controlRows_handed hlife hready h6 (takeParcel_control h6 hwaits hhop)
    · have hcode : ctlCode f.parcel = c.code := by rw [ctlCode, hone]; rfl
      refine ⟨fun hhop => ?_, fun hhop => ?_⟩
      · have hact := takeParcel_control (x := x) h6 hwaits hhop
        rw [hone, List.foldl_cons, List.foldl_nil] at hact
        obtain ⟨hack, hresend, hwithdraw⟩ := controlRows_handed (found := found) hlife hready h6 hact
        rw [hcode] at hack hresend hwithdraw
        refine ⟨fun h1 => ?_, fun h2 => ?_, fun h3 => ?_⟩
        · rw [hack (by omega) (by omega), actEntry, if_pos h1]
        · rw [hresend h2, actEntry, if_neg (by omega), if_pos h2]
        · rw [hwithdraw h3, actEntry, if_neg (by omega), if_neg (by omega), if_pos h3]
      · obtain ⟨hack, hresend, hwithdraw⟩ := controlRows_handed (found := found) hlife hready h6
          (takeParcel_goes (x := x) (by omega) (by omega) hwaits (by omega) hhop)
        rw [hcode] at hack hresend hwithdraw
        exact ⟨fun h1 => hack (by omega) (by omega), hresend, hwithdraw⟩
  · intro s m c is hfind
    rw [onAckEntry]
    dsimp only
    rw [hfind]
  · intro s d c hnone
    rw [onWithdrawEntry]
    dsimp only
    rw [hnone]
    exact List.find?_cons_of_pos (beq_self_eq_true _)
  · intro s n r found x hn hlife
    refine ⟨fun hdown => ?_, ?_⟩
    · refine exec_repairFrame hn hlife ?_
      rw [receiveRepair, hdown, Bool.not_false, if_pos rfl]
    · intro s1 bytes
      refine ⟨fun hup hbad => ?_, fun hup hpeer hmax hshape => ?_, ?_⟩
      · exact exec_repairFrame hn hlife (receiveRepair_bad hup hbad)
      · exact exec_repairFrame hn hlife ((receiveRepair_good hup hpeer hmax).1 hshape)
      · intro hup hpeer hmax hj h0 h32 hgroups p g hmiss
        exact exec_repairFrame hn hlife ((receiveRepair_good hup hpeer hmax).2 g (by omega) hgroups rfl hmiss)
  · intro s n first hn hlife open'
    refine ⟨fun hnone => ?_, ?_⟩
    · rw [exec, execGroupWaitExpiry, onMilPort_of hn hlife, groupWait, hnone]
    · intro g hsome t
      rw [exec, execGroupWaitExpiry, onMilPort_of hn hlife, groupWait, hsome]
      rfl

end Sys2Proof.Machine
end

section
/-! Device time (14_milant R340-R343, 03_first_second R70). -/

namespace Sys2Proof.Machine

section
variable {s : State} {n : Nat}

/-! ### Exchanges -/

theorem exec_stadiumTimeExchange (hn : n < 20) (hlife : s.life = .running) (htrain : (port s n).train = .trained)
    (m : Option LinkMsg) (stamp : Nat) : exec (.stadiumTimeExchange n m stamp) s = .next (stadiumTime s n m stamp) ∧
      ¬ (port s n).train ≠ .trained := by
  rw [exec, execStadiumTimeExchange, onPort_of hn hlife]
  exact ⟨rfl, not_not.mpr htrain⟩

/-- The smaller of two round trips. -/
def shorter (b x : Int × Int) : Int × Int := if x.1 < b.1 then x else b

theorem shorter_foldl (xs : List (Int × Int)) (b : Int × Int) : (xs.foldl shorter b ∈ b :: xs) ∧
    ∀ x ∈ b :: xs, (xs.foldl shorter b).1 ≤ x.1 := by
  induction xs generalizing b with
  | nil => simp
  | cons x xs ih =>
    obtain ⟨hmem, hle⟩ := ih (shorter b x)
    have hfirst : (shorter b x = b ∨ shorter b x = x) ∧ (shorter b x).1 ≤ b.1 ∧ (shorter b x).1 ≤ x.1 := by
      unfold shorter
      split
      · exact ⟨.inr rfl, by omega, le_refl _⟩
      · exact ⟨.inl rfl, le_refl _, by omega⟩
    obtain ⟨heither, hb, hx⟩ := hfirst
    rw [List.foldl_cons]
    refine ⟨?_, fun y hy => ?_⟩
    · rcases List.mem_cons.mp hmem with h | h
      · rw [h]
        rcases heither with h | h <;> rw [h] <;> simp
      · exact List.mem_cons_of_mem _ (List.mem_cons_of_mem _ h)
    · have hroot := hle _ List.mem_cons_self
      rcases List.mem_cons.mp hy with rfl | hy
      · omega
      · rcases List.mem_cons.mp hy with rfl | hy
        · omega
        · exact hle _ (List.mem_cons_of_mem _ hy)

theorem takeExchange_kept {t1 t2 t3 t4 a : Int} (hlen : s.tim.exch.length < 3) : takeExchange s t1 t2 t3 t4 a =
    { (if getF s TIM_SERVO_state = 3 then setF (setF s TIM_SERVO_state 1) TIM_SERVO_lock_count 0 else s) with
      tim := { s.tim with exch := s.tim.exch ++ [((t4 - t1) - (t3 - t2), ((t2 - t1) - (t4 - t3) - a).tdiv 2)] } } := by
  have htim : (if getF s TIM_SERVO_state = 3 then setF (setF s TIM_SERVO_state 1) TIM_SERVO_lock_count 0 else s).tim = s.tim := by
    split <;> rfl
  rw [takeExchange]
  dsimp only
  rw [htim, if_pos (by rw [List.length_append, List.length_singleton]; omega)]

theorem takeExchange_fourth {t1 t2 t3 t4 a : Int} (hlen : s.tim.exch.length = 3) (hstate : getF s TIM_SERVO_state ≠ 3)
    {four : List (Int × Int)}
    (hfour : s.tim.exch ++ [((t4 - t1) - (t3 - t2), ((t2 - t1) - (t4 - t3) - a).tdiv 2)] = four) :
    takeExchange s t1 t2 t3 t4 a =
      applyOffset { s with tim := { s.tim with exch := [] } } (four.foldl shorter (four.headD (0, 0))).2 := by
  subst hfour
  rw [takeExchange, if_neg hstate]
  dsimp only
  rw [if_neg (by rw [List.length_append, List.length_singleton]; omega)]
  rfl

/-! ### The clock -/

theorem tickClock_due {due : Int} (hdue : s.tim.slew + (s.tim.freq + (if 0 < s.tim.phaseLeft then s.tim.phase else 0)) * 65536 = due) :
    tickClock s = if due / 250000000000 = 0 then { s with
        deviceTime := s.deviceTime + 1
        tim := { s.tim with slew := due % 250000000000, phaseLeft := s.tim.phaseLeft - 1 } }
      else { s with
        deviceTime := ((((s.deviceTime + 1) * 65536 + s.tim.frac : Nat) : Int) - due / 250000000000).toNat / 65536
        tim := { s.tim with
          slew := due % 250000000000
          phaseLeft := s.tim.phaseLeft - 1
          frac := ((((s.deviceTime + 1) * 65536 + s.tim.frac : Nat) : Int) - due / 250000000000).toNat % 65536 } } := by
  subst hdue
  rfl

/-- The time a nanosecond adds, and what it leaves alone. -/
theorem tickClock_spec {due : Int}
    (hdue : s.tim.slew + (s.tim.freq + (if 0 < s.tim.phaseLeft then s.tim.phase else 0)) * 65536 = due)
    (hclock : 0 ≤ (s.deviceTime : Int) * 65536 + s.tim.frac + 65536 - due / 250000000000) (hfrac : s.tim.frac < 65536) :
    ((tickClock s).deviceTime : Int) * 65536 + (tickClock s).tim.frac =
      (s.deviceTime : Int) * 65536 + s.tim.frac + 65536 - due / 250000000000 ∧
    (tickClock s).tim.frac < 65536 ∧ (tickClock s).tim.slew = due % 250000000000 ∧
    (tickClock s).tim.phaseLeft = s.tim.phaseLeft - 1 ∧ { tickClock s with deviceTime := s.deviceTime, tim := s.tim } = s := by
  rw [tickClock_due hdue]
  generalize hwhole : due / 250000000000 = whole at *
  split
  next hzero =>
    subst hzero
    exact ⟨by push_cast; omega, hfrac, rfl, rfl, rfl⟩
  next hne =>
    refine ⟨?_, Nat.mod_lt _ (by decide), rfl, rfl, rfl⟩
    dsimp only
    push_cast at hclock ⊢
    omega

/-! ### PTP -/

theorem sendPtp_live {m : PtpMsg} {a : Assoc} (hlive : (milPort s n).liveTx = some a) (hup : milUp s n = true)
    (hpn : a.pn < 2 ^ 62) : sendPtp s n m =
      takePn { s with out := s.out ++ [.ptp n (addressed s n ptpAddr) a.an a.pn (getF s TIM_SRC_domain) m] } n a := by
  rw [sendPtp, hlive]
  dsimp only
  rw [if_pos ⟨hup, hpn⟩, emit]

theorem exec_ptpMessage {an pn domain stamp : Nat} {icv : Bool} {m : PtpFrame} (hn : n < 2) (hlife : s.life = .running) :
    exec (.ptpMessage n an pn icv domain m stamp) s = .next (ptpMessage s n an pn icv domain m stamp) := by
  rw [exec, execPtpMessage, onMilPort_of hn hlife]

theorem ptpMessage_stray {an pn domain stamp : Nat} {icv : Bool} {m : PtpMsg} {w : Wire} (hup : milUp s n = true)
    (hpeer : w.peer ≠ peerAddr s n) : ptpMessage s n an pn icv domain ⟨m, w⟩ stamp =
      satF (wireCounted s n w) (MIL_DROP_low n) 1 := by
  rw [ptpMessage, hup, Bool.not_true, if_neg Bool.false_ne_true, takeWire_bad (.inl hpeer)]

/-- A PTP message of the peer acts where its frame passes and is of the domain. -/
theorem ptpMessage_peer {an pn domain stamp : Nat} {icv : Bool} {m : PtpMsg} {w : Wire} (hup : milUp s n = true)
    (hpeer : w.peer = peerAddr s n) {u : State} {pass : Bool}
    (h : verifyFrame (wireCounted s n w) n { an := an, pn := pn, icv := icv, parcel := { kind := 0 } } = (u, pass)) :
    ptpMessage s n an pn icv domain ⟨m, w⟩ stamp =
      if pass = true ∧ domain = getF u TIM_SRC_domain then ptpIn u n m stamp else u := by
  have hvlan : b2n w.vlan ≤ 1 := by cases w.vlan <;> decide
  rw [ptpMessage, hup, Bool.not_true, if_neg Bool.false_ne_true, takeWire_good hpeer (by omega) (by omega)]
  dsimp only
  rw [h]
  cases pass with
  | true => exact if_congr (by rw [eq_self_iff_true, true_and]) rfl rfl
  | false => exact (if_neg (fun h => absurd h.1 Bool.false_ne_true)).symm

theorem domain_wireCounted (s : State) (n : Nat) (w : Wire) (p : MilPort) :
    getF (setMilPort (wireCounted s n w) n p) TIM_SRC_domain = getF s TIM_SRC_domain := by
  have hpage : TIM_SRC_domain.addr ≠ 0x1d114 + 0x1000 * n := by show 0xe100 ≠ _; omega
  rw [show getF (setMilPort (wireCounted s n w) n p) TIM_SRC_domain = getF (wireCounted s n w) TIM_SRC_domain from rfl,
    wireCounted, getF_satF_ne (f := MIL_FEC_high n) _ _ hpage, getF_satF_ne (f := MIL_FEC_low n) _ _ hpage]

/-- What the slave does with the messages of its source. -/
theorem ptpIn_slave {q : Nat} (hsrc : getF s TIM_SRC_source = 20 + n) (stamp t1 t4 : Nat) :
    ptpIn s n (.sync q) stamp = { s with tim := { s.tim with sync := some (q, ((stamp : Int) - rxDelay s n).toNat) } } ∧
    (∀ t2, s.tim.sync = some (q, t2) → ptpIn s n (.followUp q t1) stamp = sendPtp { s with tim := { s.tim with
      sync := none
      asked := some (s.tim.seqOut % 65536, t1, t2, ((nowPs s : Int) + txDelay s n).toNat)
      seqOut := s.tim.seqOut % 65536 + 1 } } n (.delayReq (s.tim.seqOut % 65536))) ∧
    (∀ u1 u2 u3 : Nat, s.tim.asked = some (q, u1, u2, u3) → ptpIn s n (.delayResp q t4) stamp =
      takeExchange { s with tim := { s.tim with asked := none } } u1 u2 u3 t4 (asymOf s n)) := by
  have hslave : (getF s TIM_SRC_source == 20 + n) = true := beq_iff_eq.mpr hsrc
  refine ⟨?_, fun t2 hsync => ?_, fun u1 u2 u3 hasked => ?_⟩
  · rw [ptpIn]
    dsimp only
    rw [if_pos hslave]
  · rw [ptpIn]
    dsimp only
    rw [hsync]
    dsimp only
    rw [if_pos ⟨hslave, rfl⟩]
    rfl
  · rw [ptpIn]
    dsimp only
    rw [hasked]
    dsimp only
    rw [if_pos ⟨hslave, rfl⟩]

/-! ### The site master -/

theorem aside_servo : Aside TIM_SERVO_state.addr := by unfold Aside; decide

theorem aside_start : Aside DEV_START_time_valid.addr := by unfold Aside; decide

/-- An edge that rounds to the nearest second. -/
theorem ppsEdge_unarmed (hsrc : getF s TIM_SRC_source = 30) (harmed : s.tim.armed = none) : ppsEdge s = { s with
    deviceTime := (s.deviceTime + 500000000) / 1000000000 * 1000000000
    tim := { s.tim with
      frac := 0
      stepped := s.tim.stepped +
        (((s.deviceTime + 500000000) / 1000000000 * 1000000000 : Nat) - (s.deviceTime : Int)) } } := by
  rw [ppsEdge, if_neg (not_not.mpr hsrc)]
  dsimp only
  rw [harmed]

/-- An edge that takes armed seconds. -/
theorem ppsEdge_armed {secs : Nat} (hsrc : getF s TIM_SRC_source = 30) (harmed : s.tim.armed = some secs) :
    ∃ k u, u = setF { s with
        deviceTime := secs * 1000000000
        tim := { s.tim with frac := 0, stepped := k, armed := none } } TIM_SERVO_state 2 ∧
      ppsEdge s = if isSet u DEV_START_time_valid then u
        else raiseEv (setF u DEV_START_time_valid 1) pgTIM evTimeValid [timeNow s, u.deviceTime] := by
  refine ⟨s.tim.stepped + ((secs * 1000000000 : Nat) - (s.deviceTime : Int)), _, rfl, ?_⟩
  rw [ppsEdge, if_neg (not_not.mpr hsrc)]
  dsimp only
  rw [harmed]

theorem isSet_setF_one (hwf : s.regsWf = true) {f : Fld} (hw : f.w = 1) (h : f.lo + f.w ≤ 32) :
    isSet (setF s f 1) f = true := by
  rw [isSet, getF_setF_same hwf 1 h, hw]
  rfl

theorem ppsEdge_armed_spec {secs : Nat} (hwf : s.regsWf = true) (hsrc : getF s TIM_SRC_source = 30)
    (harmed : s.tim.armed = some secs) : (ppsEdge s).deviceTime = secs * 1000000000 ∧ (ppsEdge s).tim.frac = 0 ∧
      (ppsEdge s).tim.armed = none ∧ getF (ppsEdge s) TIM_SERVO_state = 2 ∧ isSet (ppsEdge s) DEV_START_time_valid = true ∧
      (isSet s DEV_START_time_valid = true → (ppsEdge s).ev = s.ev) := by
  obtain ⟨k, u, hu, hpps⟩ := ppsEdge_armed hsrc harmed
  have hu' : u.regsWf = true ∧ u.deviceTime = secs * 1000000000 ∧ u.tim.frac = 0 ∧ u.tim.armed = none ∧ u.ev = s.ev ∧
      isSet u DEV_START_time_valid = isSet s DEV_START_time_valid ∧ getF u TIM_SERVO_state = 2 := by
    subst hu
    exact ⟨setF_regsWf (s := { s with
      deviceTime := secs * 1000000000
      tim := { s.tim with frac := 0, stepped := k, armed := none } }) hwf _ _, rfl, rfl, rfl, rfl,
      isSet_setF_ne (f := TIM_SERVO_state) _ _ (by decide), getF_setF_same hwf (f := TIM_SERVO_state) 2 (by decide)⟩
  obtain ⟨huwf, htime, hfrac, hnone, hev, hvalid, hstate⟩ := hu'
  rw [hpps]
  split
  next hset => exact ⟨htime, hfrac, hnone, hstate, hset, fun _ => hev⟩
  next hunset =>
    rw [raiseEv_deviceTime, raiseEv_tim, setF_deviceTime, setF_tim, getF_raiseEv_aside aside_servo,
      isSet_raiseEv_aside aside_start, getF_setF_ne (f := DEV_START_time_valid) _ _ (by decide)]
    exact ⟨htime, hfrac, hnone, hstate, isSet_setF_one huwf rfl (by decide), fun hset => absurd (hvalid.trans hset) hunset⟩

end

/-- Settles O57. -/
theorem timeRows : Obligations.TimeRows := by
  refine ⟨?_, ?_, ?_, ?_, ?_, ?_, ?_, ?_, ?_, ?_, ?_⟩
  · intro s n stamp hn hlife htrain
    obtain hexec := fun m => (exec_stadiumTimeExchange hn hlife htrain m stamp).1
    refine ⟨fun hsrc => ⟨?_, fun t1 t3 t4 => ?_⟩, fun hsrc => ⟨?_, fun t1 t3 t4 => ?_⟩, fun t3 hserve => ?_,
      fun t3 hserve => ?_⟩ <;> rw [hexec, stadiumTime, if_neg (not_not.mpr htrain)]
    · rw [if_pos hsrc]
    · rw [if_pos hsrc]
    · rw [if_neg hsrc]
    · rw [if_neg hsrc]
    · rw [if_pos hserve]
    · rw [hserve, if_neg Bool.false_ne_true]
  · intro s t1 t2 t3 t4 a hlen kept s1
    refine ⟨fun hstate => ?_, fun hstate => ?_⟩
    · rw [takeExchange_kept hlen, if_neg hstate]
    · rw [takeExchange_kept hlen, if_pos hstate]
  · intro s t1 t2 t3 t4 a hlen hstate four
    have hhead : ∃ x xs, four = x :: xs := List.exists_cons_of_ne_nil (List.append_ne_nil_of_right_ne_nil _ (List.cons_ne_nil _ _))
    obtain ⟨x, xs, hfour⟩ := hhead
    obtain ⟨hmem, hle⟩ := shorter_foldl four x
    have hsame : ∀ y ∈ x :: four, y ∈ four := fun y hy => by
      rcases List.mem_cons.mp hy with rfl | hy
      · rw [hfour]
        exact List.mem_cons_self
      · exact hy
    refine ⟨four.foldl shorter x, hsame _ hmem, fun y hy => hle y (List.mem_cons_of_mem _ hy), ?_⟩
    rw [takeExchange_fourth hlen hstate (four := four) rfl]
    rw [show four.headD (0, 0) = x by rw [hfour]; rfl]
  · intro s theta step
    refine ⟨fun hstep => ?_, fun hstep => ?_⟩
    · refine ⟨s.tim.stepped + (((setPs s ((nowPs s : Int) - theta)).deviceTime : Int) - s.deviceTime), ?_⟩
      rw [applyOffset, if_pos (of_decide_eq_true hstep)]
      rfl
    · rw [applyOffset, if_neg (of_decide_eq_false hstep)]
      rfl
  · intro s due clock t hclock hfrac
    exact tickClock_spec rfl hclock hfrac
  · intro s n m a hlive hup hpn dest
    rw [sendPtp_live hlive hup hpn]
    rfl
  · intro s n an pn domain stamp a m w hn hlife hup s1
    refine ⟨fun icv hpeer => ?_, fun hpeer hnone icv => ?_, fun hpeer hrx => ?_⟩
    · rw [exec_ptpMessage hn hlife, ptpMessage_stray hup hpeer]
      rfl
    · have hverify : verifyFrame (wireCounted s n w) n { an := an, pn := pn, icv := icv, parcel := { kind := 0 } } =
          (satF s1 (MIL_DROP_high n) 1, false) := by
        rw [verifyFrame, show (milPort (wireCounted s n w) n).rx.find? (fun y => y.an == an) = none from hnone]
        rfl
      rw [exec_ptpMessage hn hlife, ptpMessage_peer hup hpeer hverify, if_neg (fun h => absurd h.1 Bool.false_ne_true)]
    · have hverify := fun icv => verifyFrame_found (s := wireCounted s n w) (n := n)
        (f := { an := an, pn := pn, icv := icv, parcel := { kind := 0 } }) hrx
      refine ⟨?_, fun hold => ?_, ?_⟩
      · have hbad := hverify false
        rw [if_pos rfl] at hbad
        rw [exec_ptpMessage hn hlife, ptpMessage_peer hup hpeer hbad, if_neg (fun h => absurd h.1 Bool.false_ne_true)]
        rfl
      · have hbad := hverify true
        rw [if_neg (show ¬ true = false by decide), if_pos (show pn + 8192 ≤ a.pn from hold)] at hbad
        rw [exec_ptpMessage hn hlife, ptpMessage_peer hup hpeer hbad, if_neg (fun h => absurd h.1 Bool.false_ne_true)]
        rfl
      · intro hnew p t
        have hgood := hverify true
        rw [if_neg (show ¬ true = false by decide), if_neg (show ¬ pn + 8192 ≤ a.pn by omega)] at hgood
        rw [exec_ptpMessage hn hlife, ptpMessage_peer hup hpeer hgood, domain_wireCounted]
        refine ⟨fun hdomain => ?_, fun hdomain => ?_⟩
        · rw [if_neg (fun h => hdomain h.2)]
          rfl
        · rw [if_pos ⟨rfl, hdomain⟩]
          rfl
  · intro s n stamp q t1 t4 rx
    refine ⟨fun hsrc => ?_, fun hsrc => ?_, fun hserve => ?_, fun hserve => ?_⟩
    · exact ptpIn_slave hsrc stamp t1 t4
    · rw [ptpIn]
      dsimp only
      rw [if_neg (by rwa [beq_iff_eq])]
    · rw [ptpIn, if_pos hserve]
    · rw [ptpIn, hserve, if_neg Bool.false_ne_true]
  · intro s n hn hlife
    refine ⟨fun hserve => ?_, ?_⟩
    · rw [exec, execPtpSyncTimer, onMilPort_of hn hlife, ptpSync, hserve, if_neg Bool.false_ne_true]
    · intro hserve k t1
      rw [exec, execPtpSyncTimer, onMilPort_of hn hlife, ptpSync, if_pos hserve]
      rfl
  · intro s hlife
    have hlost : exec .timeSourceLost s = .next (sourceLost s) := by rw [exec, execTimeSourceLost, whileRunning_of hlife]
    have hpps : exec .ppsEdge s = .next (ppsEdge s) := by rw [exec, execPpsEdge, whileRunning_of hlife]
    refine ⟨fun h => ?_, fun h => ?_, fun hsrc => ?_, fun hsrc harmed => ?_, fun secs hwf hsrc harmed => ?_⟩
    · rw [hlost, sourceLost, if_pos h]
      rfl
    · rw [hlost, sourceLost, if_neg (by omega)]
    · rw [hpps, ppsEdge, if_pos hsrc]
    · refine ⟨_, hpps, ?_⟩
      rw [ppsEdge_unarmed hsrc harmed]
      exact ⟨rfl, rfl, rfl, rfl⟩
    · refine ⟨_, hpps, ?_⟩
      exact ppsEdge_armed_spec hwf hsrc harmed
  · intro s v hwf hopen
    refine ⟨armSeconds s v, by rw [exec, execTimSetArm, onPage_of hopen], ?_, ?_, rfl, rfl⟩
    · rw [armSeconds]
      dsimp only
      rw [getF_setF_ne (f := TIM_SET_HI_seconds) _ _ (by decide)]
      rfl
    · have hget := getF_setF_same hwf (f := TIM_SET_HI_seconds) (v.toNat % 65536) (by decide)
      exact hget.trans (Nat.mod_eq_of_lt (lt_of_lt_of_le (Nat.mod_lt _ (by decide)) (by decide)))

end Sys2Proof.Machine
end

section
/-! MACsec associations (14_milant R335-R339). -/

namespace Sys2Proof.Machine

section
variable {s : State} {v : Word} {n an : Nat} {rx : Bool} {p : MilPort}

theorem exec_keyInstall (hopen : regsOpen s pgKEY = true) (v : Word) (ok : Bool) :
    exec (.keyInstall v ok) s = .next (keyInstall s v ok) := by rw [exec, execKeyInstall, onPage_of hopen]

theorem exec_keyErase (hopen : regsOpen s pgKEY = true) (v : Word) : exec (.keyErase v) s = .next (keyErase s v) := by
  rw [exec, execKeyErase, onPage_of hopen]

theorem exec_keySchedArm (hopen : regsOpen s pgKEY = true) (v : Word) : exec (.keySchedArm v) s = .next (keySched s v) := by
  rw [exec, execKeySchedArm, onPage_of hopen]

/-! ### Installing and erasing -/

theorem keyInstall_wrapped {ok : Bool} (h : ok = false ∨ s.stw.kek = none) : keyInstall s v ok =
    raiseEv (setF (keyFields s v) KEY_INSTALL_result 1) pgKEY evUnwrapFailed
      [bitsOf v.toNat 0 1, b2n (bitOf v.toNat 1), bitsOf v.toNat 2 2] := by
  rw [keyInstall]
  dsimp only
  rw [if_pos]
  rcases h with rfl | hkek
  · exact .inl rfl
  · exact .inr (by rw [show (keyFields s v).stw.kek = none from hkek]; rfl)

/-- An install whose key unwraps. -/
theorem keyInstall_unwrapped (hkek : s.stw.kek.isSome = true) (hn : bitsOf v.toNat 0 1 = n) (hrx : bitOf v.toNat 1 = rx)
    (han : bitsOf v.toNat 2 2 = an) {t : State} (ht : keyFields s v = t) (hp : milPort t n = p) {used : Bool}
    (hused : (if rx then p.rx.any (fun a => a.an == an) else p.live == some an) = used) {others : List Assoc}
    (hothers : (if rx then p.rx else p.tx).filter (fun a => a.an != an) = others) : keyInstall s v true =
      if used = true then setF t KEY_INSTALL_result 2
      else if 2 ≤ others.length then setF t KEY_INSTALL_result 3
      else raiseEv (showKeys (setF (if rx then setMilPort t n { p with rx := p.rx ++ [⟨an, keyNumber t, 0⟩] }
        else setMilPort t n { p with
          tx := others ++ [⟨an, keyNumber t, 1⟩]
          live := if p.live.isNone then some an else p.live
          exhausted := p.exhausted && p.live.isSome }) KEY_INSTALL_result 0)) pgKEY evKeyInstalled [n, b2n rx, an] := by
  subst hn han ht hp hused hothers
  have hnone : ¬ ((!true) = true ∨ (keyFields s v).stw.kek.isNone = true) := by
    rw [show (keyFields s v).stw.kek = s.stw.kek from rfl, ← Option.not_isSome, hkek]
    decide
  rw [keyInstall]
  dsimp only
  rw [if_neg hnone, hrx]
  cases rx with
  | true => rfl
  | false => rfl

theorem keyErase_eq (hn : bitsOf v.toNat 0 1 = n) (hrx : bitOf v.toNat 1 = rx) (han : bitsOf v.toNat 2 2 = an) {t : State}
    (ht : keyFields s v = t) (hp : milPort t n = p) {held : Bool}
    (hheld : (if rx then p.rx else p.tx).any (fun a => a.an == an) = held) : keyErase s v =
      if (!held) = true then setF t KEY_INSTALL_result 4
      else if (!rx) = true ∧ p.live = some an then setF t KEY_INSTALL_result 2
      else showKeys (setF (setMilPort t n (if rx then { forgetAn p an with grace := p.grace.filter (· != an) }
        else { p with
          tx := p.tx.filter (fun a => a.an != an)
          oldTx := if p.oldTx = some an then none else p.oldTx })) KEY_INSTALL_result 0) := by
  subst hn hrx han ht hp hheld
  rfl

/-! ### Scheduled changes -/

theorem keySched_eq {ms : Nat} (hn : bitsOf v.toNat 0 1 = n) (hrx : bitOf v.toNat 1 = rx) (han : bitsOf v.toNat 2 2 = an)
    (hms : bitsOf v.toNat 16 16 = ms) {t : State} (ht : setF (setF (setF (setF s KEY_SCHED_port n) KEY_SCHED_dir (b2n rx))
      KEY_SCHED_an an) KEY_SCHED_grace_ms ms = t) (hp : milPort t n = p) {valid : Bool}
    (hvalid : isSet t DEV_START_time_valid = valid) : keySched s v =
      if (!valid) = true then
        raiseEv (setF t KEY_SCHED_refused 1) pgKEY evSchedRefused [n, b2n rx, 1]
      else if keyAt t < s.deviceTime + 1000000 then
        raiseEv (setF t KEY_SCHED_refused 1) pgKEY evSchedRefused [n, b2n rx, 2]
      else if (!rx) = true ∧ (!p.tx.any (fun a => a.an == an)) = true then
        raiseEv (setF t KEY_SCHED_refused 1) pgKEY evSchedRefused [n, b2n rx, 3]
      else showKeys (setF (setMilPort t n (if rx then { p with armRx := some (an, keyAt t, max 1 ms) }
        else { p with armTx := some (an, keyAt t) })) KEY_SCHED_refused 0) := by
  subst hn hrx han hms ht hp hvalid
  rfl

/-! ### The instant and after -/

theorem exec_keyChangeInstant (hn : n < 2) (hlife : s.life = .running) (receive : Bool) :
    exec (.keyChangeInstant n receive) s = .next (keyInstant s n receive) := by
  rw [exec, execKeyChangeInstant, onMilPort_of hn hlife]

theorem keyInstant_transmit {at' : Nat} (harm : (milPort s n).armTx = some (an, at')) {c : State} (hc : closeGroup s n = c)
    (hp : milPort c n = p) : keyInstant s n false =
      if (!p.tx.any (fun a => a.an == an)) = true then showKeys (setMilPort c n { p with armTx := none })
      else raiseEv (showKeys (setMilPort c n { p with
        armTx := none
        live := some an
        exhausted := false
        oldTx := if p.live = some an then none else p.live })) pgKEY evKeySwitched [n, p.live.getD an, an, at'] := by
  subst hc hp
  rw [keyInstant, if_neg Bool.false_ne_true, harm]

theorem graceExpiry_last (h : (milPort s n).grace.getLast? = some an) : graceExpiry s n =
    raiseEv (showKeys (setMilPort s n { forgetAn (milPort s n) an with grace := (milPort s n).grace.dropLast })) pgKEY
      evKeyRetired [n, an] := by
  obtain ⟨rest, hrev⟩ : ∃ rest, (milPort s n).grace.reverse = an :: rest := by
    rw [List.getLast?_eq_head?_reverse] at h
    exact List.head?_eq_some_iff.mp h
  rw [graceExpiry, hrev]

end

/-- Settles O58. -/
theorem keyRows : Obligations.KeyRows := by
  refine ⟨?_, ?_, ?_⟩
  · intro s v hopen n rx an t p others used key
    have hinstall := exec_keyInstall hopen v
    have hgood : s.stw.kek.isSome = true → _ := fun hkek => (hinstall true).trans (congrArg Host.Outcome.next
      (keyInstall_unwrapped (n := n) (rx := rx) (an := an) (t := t) (p := p) (used := used) (others := others)
        hkek rfl rfl rfl rfl rfl rfl rfl))
    have herase : ∀ {held : Bool}, (if rx then p.rx else p.tx).any (fun a => a.an == an) = held → _ := fun hheld =>
      (exec_keyErase hopen v).trans (congrArg Host.Outcome.next
        (keyErase_eq (n := n) (rx := rx) (an := an) (t := t) (p := p) rfl rfl rfl rfl rfl hheld))
    have hside : (rx = true → (if rx then p.rx else p.tx) = p.rx) ∧ (rx = false → (if rx then p.rx else p.tx) = p.tx) :=
      ⟨fun h => if_pos h, fun h => if_neg (by rw [h]; decide)⟩
    obtain ⟨hsideRx, hsideTx⟩ := hside
    have hothersTx : rx = false → others = p.tx.filter (fun a => a.an != an) := fun h =>
      congrArg (List.filter (fun a => a.an != an)) (hsideTx h)
    have hothersRx : rx = true → others = p.rx.filter (fun a => a.an != an) := fun h =>
      congrArg (List.filter (fun a => a.an != an)) (hsideRx h)
    refine ⟨fun ok hbad => ?_, fun hkek hused => ?_, fun hkek hused hfull => ?_, fun hused hroom hkek hrx => ?_,
      fun hused hroom hkek hrx => ?_, fun hnone => ?_, fun hrx hsome hlive => ?_, fun hrx hsome hlive => ?_,
      fun hrx hsome => ?_⟩
    · rw [hinstall, keyInstall_wrapped hbad]
      rfl
    · rw [hgood hkek, if_pos hused]
    · rw [hgood hkek, if_neg (by rw [hused]; decide), if_pos hfull]
    · rw [hgood hkek, if_neg (by rw [hused]; decide), if_neg (by omega), if_pos hrx, hrx]
      rfl
    · rw [hgood hkek, if_neg (by rw [hused]; decide), if_neg (by omega), hrx, if_neg Bool.false_ne_true]
      rfl
    · rw [herase hnone]
      rfl
    · rw [herase (hsideTx hrx ▸ hsome), if_neg (by decide), if_pos ⟨by rw [hrx]; rfl, hlive⟩]
    · rw [herase (hsideTx hrx ▸ hsome), if_neg (by decide), if_neg (fun h => hlive h.2),
        if_neg (by rw [hrx]; decide), hothersTx hrx]
    · rw [herase (hsideRx hrx ▸ hsome), if_neg (by decide), if_neg (fun h => by simp [hrx] at h),
        if_pos hrx, hothersRx hrx]
      rfl
  · intro s v hopen n rx an ms t p no valid early
    have hsched := (exec_keySchedArm hopen v).trans (congrArg Host.Outcome.next
      (keySched_eq (n := n) (rx := rx) (an := an) (ms := ms) (t := t) (p := p) rfl rfl rfl rfl rfl rfl (valid := valid) rfl))
    refine ⟨fun hvalid => ?_, fun hvalid hearly => ?_, fun hvalid hearly hrx hnone => ?_, fun hvalid hearly hrx hsome => ?_,
      fun hvalid hearly hrx => ?_⟩
    · exact hsched.trans (congrArg Host.Outcome.next (if_pos (by rw [hvalid]; rfl)))
    · rw [if_neg (by rw [hvalid]; decide), if_pos (show keyAt t < s.deviceTime + 1000000 from hearly)] at hsched
      exact hsched
    · rw [if_neg (by rw [hvalid]; decide), if_neg (show ¬ keyAt t < s.deviceTime + 1000000 from hearly),
        if_pos ⟨by rw [hrx]; rfl, by rw [hnone]; rfl⟩] at hsched
      exact hsched
    · rw [if_neg (by rw [hvalid]; decide), if_neg (show ¬ keyAt t < s.deviceTime + 1000000 from hearly),
        if_neg (fun h => by simp [hsome] at h), hrx, if_neg Bool.false_ne_true]
        at hsched
      exact hsched
    · rw [if_neg (by rw [hvalid]; decide), if_neg (show ¬ keyAt t < s.deviceTime + 1000000 from hearly),
        if_neg (fun h => by simp [hrx] at h), if_pos hrx] at hsched
      exact hsched
  · intro s n hn hlife p
    refine ⟨?_, fun an at' ms harm => ?_, fun harm => ?_, fun harm => ?_, fun an hold => ?_, fun hold => ?_,
      fun hgrace => ?_, fun an hgrace => ?_⟩
    · intro an at' harm c q
      have hinstant := keyInstant_transmit harm (c := c) (p := q) rfl rfl
      refine ⟨fun hsome => ?_, fun hnone => ?_⟩
      · rw [exec_keyChangeInstant hn hlife, hinstant, if_neg (by rw [hsome]; decide)]
        rfl
      · rw [exec_keyChangeInstant hn hlife, hinstant, if_pos (by rw [hnone]; rfl)]
    · rw [exec_keyChangeInstant hn hlife, keyInstant, if_pos rfl, harm]
    · rw [exec_keyChangeInstant hn hlife, keyInstant, if_neg Bool.false_ne_true, harm]
    · rw [exec_keyChangeInstant hn hlife, keyInstant, if_pos rfl, harm]
    · rw [exec, execOldTxAssocErase, onMilPort_of hn hlife, eraseOldTx, hold]
    · rw [exec, execOldTxAssocErase, onMilPort_of hn hlife, eraseOldTx, hold]
    · rw [exec, execKeyGraceExpiry, onMilPort_of hn hlife, graceExpiry, hgrace]
      rfl
    · rw [exec, execKeyGraceExpiry, onMilPort_of hn hlife, graceExpiry_last hgrace]
      rfl

end Sys2Proof.Machine
end

section
/-! The Steward's watchdogs, updates and identity services (15_steward_security). -/

namespace Sys2Proof.Machine

section
variable {s u : State}

/-! ### A watchdog's expiry and the restart (R363) -/

theorem watchdogExpiry_served {w : Nat} (hlife : s.life = .running) (hfuses : isSet s DEV_START_fuses_done = true)
    (hheld : isSet s STW_STATE_held = false) {near : List Nat}
    (hnear : s.stw.expiries.filter (fun t => decide (elapsed s ≤ t + hourNs)) ++ [elapsed s] = near) {s0 s1 s2 s3 : State}
    (hs0 : satF { s with stw := { s.stw with expiries := near } } STW_STATE_expiries 1 = s0)
    (hs1 : lapseTrial (raiseEv { s0 with flash := { s0.flash with
      watchdogs := s0.flash.watchdogs ++ [(w, timeNow s0)]
      crashes := if w < 4 then s0.flash.crashes ++ [(w, timeNow s0)] else s0.flash.crashes } } pgSTW evWatchdog
      [w, near.length]) = s1)
    (hs2 : (s1.cmds.table.filter (fun e => e.cls == 7 && e.stage == .running)).foldl
      (fun s e => endCmd s e.q e.idx stUnitFault 0 []) s1 = s2)
    (hs3 : setBlk { s2 with stw := { s2.stw with
      restarting := true
      applying := false
      downAt := elapsed s2 } } pgSTW 1 = s3) :
    watchdogExpiry s w = if 3 ≤ near.length then
      blkFault (setF { s3 with pins := { s3.pins with faultN := true } } STW_STATE_held 1) pgSTW evWatchdog.code else s3 := by
  subst hnear hs0 hs1 hs2 hs3
  exact if_neg (by simp [hlife, hfuses, hheld])

theorem watchdogExpiry_ignored {w : Nat}
    (h : s.life ≠ .running ∨ isSet s DEV_START_fuses_done = false ∨ isSet s STW_STATE_held = true) :
    watchdogExpiry s w = s :=
  if_pos (by simpa using h)

theorem stewardRestarted_ignored {readOk : Bool} (h : (s.life ≠ .running ∨ s.stw.restarting = false ∨
    isSet s STW_STATE_held = true ∨ isSet s DEV_START_steward_ready = false) ∨ readOk = false ∨
    bankOk s.fuses (getF s DEV_INFO_arith_rev) (bankBytes s.flash (isSet s DEV_START_boot_bank)) = false) :
    stewardRestarted s readOk = s :=
  if_pos (by simp only [Bool.not_eq_true']; tauto)

theorem stewardRestarted_serves (hlife : s.life = .running) (hdown : s.stw.restarting = true)
    (hheld : isSet s STW_STATE_held = false) (hready : isSet s DEV_START_steward_ready = true)
    (hbank : bankOk s.fuses (getF s DEV_INFO_arith_rev) (bankBytes s.flash (isSet s DEV_START_boot_bank)) = true)
    {t : State} (ht : serveAgain s = t) : stewardRestarted s true = maybeApply (if t.host.doe.isSome then
      emit { t with host := { t.host with doe := none } } .doeAborted else t) := by
  subst ht
  exact if_neg (by simp [hlife, hdown, hheld, hready, hbank])

/-! ### The data objects (04_registers_host R85) -/

theorem doeFits_iff (b : List Byte) : doeFits b = true ↔ b.length ≤ 131064 := by
  rw [doeFits, decide_eq_true_iff]
  omega

theorem doeWait_fits {p : Nat} {b : List Byte} (hlife : s.life = .running) (hready : isSet s DEV_START_steward_ready = true)
    (hfits : b.length ≤ 131064) : doeWait s p b = { s with host := { s.host with doe := some (p, b) } } := by
  rw [doeWait, if_neg (by simp [hlife, hready]), (doeFits_iff b).mpr hfits]
  rfl

theorem doeWait_long {p : Nat} {b : List Byte} (hlife : s.life = .running) (hready : isSet s DEV_START_steward_ready = true)
    (hlong : 131064 < b.length) : doeWait s p b = emit s (.doeError p) := by
  rw [doeWait, if_neg (by simp [hlife, hready]),
    if_pos (by rw [Bool.not_eq_true', Bool.eq_false_iff, ne_eq, doeFits_iff]; omega)]

theorem life_of_stewardUp (h : stewardUp s = true) : s.life = .running := by
  simp only [stewardUp, Bool.and_eq_true, beq_iff_eq] at h
  exact h.1.1

theorem attestRow_down {req : List Byte} (hdown : stewardUp s = false) (t : State) : attestRow s req t = doeWait s 1 req := by
  rw [attestRow, hdown]
  rfl

theorem attestRow_fits {req : List Byte} (hup : stewardUp s = true) (hfits : req.length ≤ 131064) (t : State) :
    attestRow s req t = t := by
  rw [attestRow, hup, (doeFits_iff req).mpr hfits]
  rfl

theorem attestRow_long {req : List Byte} (hup : stewardUp s = true) (hlong : 131064 < req.length) (t : State) :
    attestRow s req t = emit s (.doeError 1) := by
  rw [attestRow, hup, if_neg (by decide), if_neg (by rw [doeFits_iff]; omega)]

/-! ### Update records (R370) -/

/-- The three record rows, each with the kinds of record it takes and what it does with one. -/
theorem exec_recordRows (hlife : s.life = .running) (mailbox : Bool) (b : List Byte) (hi : Word) (hits : List Hit) :
    exec (.updateManifest mailbox b hi hits) s =
      .next (recordRow (· == 1) s (byMailbox mailbox b) hi hits (updateManifest (byMailbox mailbox b))) ∧
    exec (.updatePiece mailbox b hi hits) s =
      .next (recordRow (· == 2) s (byMailbox mailbox b) hi hits (updatePiece (byMailbox mailbox b))) ∧
    exec (.updateStatus mailbox b hi hits) s = .next (recordRow (fun k => k != 1 && k != 2) s (byMailbox mailbox b) hi hits
      (updateStatus (byMailbox mailbox b))) := by
  refine ⟨?_, ?_, ?_⟩
  · rw [exec, execUpdateManifest, whileRunning_of hlife]
  · rw [exec, execUpdatePiece, whileRunning_of hlife]
  · rw [exec, execUpdateStatus, whileRunning_of hlife]

section
variable {ok : Nat → Bool} {b r : List Byte} {mailbox : Bool} {hi : Word} {hits : List Hit} {body : State → List Byte → State}

theorem recordRow_down (hdown : stewardUp s = false) : recordRow ok s (some b) hi hits body = doeWait s 2 b := by
  rw [recordRow, hdown]
  rfl

theorem recordRow_long (hup : stewardUp s = true) (hlong : 131064 < b.length) :
    recordRow ok s (some b) hi hits body = emit s (.doeError 2) := by
  have hno : doeFits b = false := by
    rw [Bool.eq_false_iff, ne_eq, doeFits_iff]
    omega
  rw [recordRow, hup, if_neg (by decide), Option.any_some, hno]
  rfl

/-- The record the row reads: the mailbox's, or the one that lies at the address of the submission. -/
theorem recordRow_read (hup : stewardUp s = true)
    (hrec : (mailbox = true ∧ b = r ∧ u = s ∧ r.length ≤ 131064) ∨
      (mailbox = false ∧ readRecord s none hi hits = (u, some r))) (hkind : ok (leAt r 8 1) = true) :
    recordRow ok s (byMailbox mailbox b) hi hits body = body u r := by
  rcases hrec with ⟨rfl, rfl, rfl, hfits⟩ | ⟨rfl, hread⟩
  · rw [byMailbox, if_pos rfl, recordRow, hup, if_neg (by decide), Option.any_some, (doeFits_iff b).mpr hfits,
      if_neg (by decide), readRecord]
    exact if_pos hkind
  · rw [byMailbox, if_neg (by decide), recordRow, hup, if_neg (by decide), Option.any_none, if_neg (by decide), hread]
    exact if_pos hkind

end

theorem answerRecord_byMailbox (mailbox : Bool) (b : List Byte) (t : State) (code : Nat) (more : List Byte) :
    answerRecord t (byMailbox mailbox b) code more =
      if mailbox = false then t else emit t (.doe 2 (natLe 4 code ++ natLe 4 t.flash.pieces.length ++ more)) := by
  cases mailbox <;> rfl

section
variable {record : Option (List Byte)} {r : List Byte}

theorem updateManifest_spoiled (h : recordOk r = false) : updateManifest record u r =
    answerRecord (raiseEv u pgFWU evManifestRefused [leAt (r.drop 32) 8 8, 1]) record 1 [] := by
  rw [updateManifest, h]
  rfl

theorem updateManifest_refused {why : Nat} (h : recordOk r = true) (hwhy : manifestFault u (r.drop 32) = some why) :
    updateManifest record u r =
      answerRecord (raiseEv u pgFWU evManifestRefused [leAt (r.drop 32) 8 8, why]) record 1 [] := by
  rw [updateManifest, h]
  dsimp only
  rw [if_pos rfl, hwhy]

theorem updateManifest_staged (h : recordOk r = true) (hgood : manifestFault u (r.drop 32) = none) :
    updateManifest record u r = answerRecord (showUpdate { u with flash := { u.flash with
      manifest := r.drop 32
      pieces := []
      journal := 0 } }) record 0 [] := by
  rw [updateManifest, h]
  dsimp only
  rw [if_pos rfl, hgood]

theorem updatePiece_refused (h : pieceOk u r = false) : updatePiece record u r =
    answerRecord (raiseEv u pgFWU evPieceRefused [leAt r 0 8, leAt r 12 4]) record 1 [] := by
  rw [updatePiece, h]
  rfl

theorem updatePiece_taken {held : Bool} (h : pieceOk u r = true)
    (hheld : u.flash.pieces.any (fun p => p.1 == leAt r 12 4) = held) : updatePiece record u r =
      answerRecord (if held then u else maybeApply { u with flash := { u.flash with
        pieces := tput (leAt r 12 4) (r.drop 32) u.flash.pieces } }) record 0 [] := by
  subst hheld
  rw [updatePiece, h]
  rfl

end

/-! ### Application (R371) -/

theorem applyDone_ignored {x : Option Nat} (h : stewardUp s = false ∨ s.stw.applying = false) : applyDone s x = s :=
  if_pos (by simpa using h)

section
variable {t : State} {st : List Byte} (hup : stewardUp s = true) (happly : s.stw.applying = true)
  (ht : { s with stw := { s.stw with applying := false } } = t) (hst : patchStream s = st)
include hup happly ht hst

omit hst in
theorem applyDone_flashFails (off : Nat) : applyDone s (some off) = applyFails t off := by
  subst ht
  exact if_neg (by simp [hup, happly])

theorem applyDone_streamFails {off : Nat}
    (hout : runPatch (bankBytes s.flash s.flash.boot.active) (st.length / 16 + 1) 0 st [] = .error off) :
    applyDone s none = applyFails t off := by
  subst ht hst
  rw [applyDone, if_neg (by simp [hup, happly])]
  dsimp only
  rw [hout]

theorem applyDone_built {bank : List Byte} {b : Bool} (hb : (!s.flash.boot.active) = b)
    (hout : runPatch (bankBytes s.flash s.flash.boot.active) (st.length / 16 + 1) 0 st [] = .ok bank) {s2 s3 s4 : State}
    (hs2 : { t with flash := if b then { s.flash with bankB := bank } else { s.flash with bankA := bank } } = s2)
    (hs3 : writeBoot s2 { markBank s2.flash.boot b false with pending := some b } = s3)
    (hs4 : showUpdate { s3 with flash := { s3.flash with journal := 3 } } = s4) :
    applyDone s none = if (!builtOk s2 bank) = true then applyFails s2 st.length
      else raiseEv (setF s4 STW_STATE_pending 1) pgFWU evFwuReady [updateId s4, b2n b] := by
  subst ht hst hb hs2 hs3 hs4
  rw [applyDone, if_neg (by simp [hup, happly])]
  dsimp only
  rw [hout]

end

/-! ### The trial and the controls (R369, R371, R372) -/

theorem exec_fwuRows_down (hdown : stewardUp s = false) {i : Instr} (hi : i ∈ [Instr.fwuConfirm, .fwuRevert, .fwuAbandon, .fwuApply]) :
    exec i s = .next s := by
  have hsame : ∀ t : State, t = s → onPage s pgFWU t = s := fun t h => by rw [h, onPage, ite_self]
  simp only [List.mem_cons, List.not_mem_nil, or_false] at hi
  rcases hi with rfl | rfl | rfl | rfl
  · rw [exec, execFwuConfirm, hsame (fwuConfirm s) (if_pos (.inl (by rw [hdown]; rfl)))]
  · rw [exec, execFwuRevert, hsame (fwuRevert s) (if_pos (.inl (by rw [hdown]; rfl)))]
  · rw [exec, execFwuAbandon, hsame (fwuAbandon s) (if_pos (.inl (by rw [hdown]; rfl)))]
  · rw [exec, execFwuApply, hsame (fwuApply s) (if_neg (by simp [hdown]))]

section
variable (hup : stewardUp s = true)
include hup

theorem fwuConfirm_trial (htrial : s.flash.boot.trial = true) {b : Bool} (hb : s.flash.boot.active = b) {s1 s2 : State}
    (hs1 : writeBoot s { s.flash.boot with trial := false } = s1)
    (hs2 : dropStaging (setF { s1 with fuses := { s1.fuses with confirmDue := some b } } STW_STATE_trial 0) = s2)
    (hactive : s1.flash.boot.active = s.flash.boot.active) :
    fwuConfirm s = if 41000 < s2.pins.bladeA ∧ 41000 < s2.pins.bladeB then confirmBurn s2 b else s2 := by
  subst hs2 hb hs1
  rw [fwuConfirm, if_neg (by simp [hup, htrial])]
  dsimp only
  rw [hactive]

theorem fwuRevert_trial (htrial : s.flash.boot.trial = true) : fwuRevert s = dropStaging (setF (setF (writeBoot s
    { s.flash.boot with
      trial := false
      pending := some (!s.flash.boot.active) }) STW_STATE_trial 0) STW_STATE_pending 1) :=
  if_neg (by simp [hup, htrial])

theorem fwuAbandon_drops (h : s.stw.applying = false) : fwuAbandon s = dropStaging s := if_neg (by simp [hup, h])

end

end

/-! ### The identity services (R374-R378) -/

theorem debugUnlock_refused {s : State} {key challenge sig : List Byte} {serial scope why : Nat}
    (h : tokenFault s key serial challenge scope sig = some why) : debugUnlock s key serial challenge scope sig =
      emit (raiseEv { s with stw := { s.stw with challenge := none } } pgSEC evDebugRefused [why]) (.doeError 1) := by
  rw [debugUnlock, h]

theorem debugUnlock_opens {s : State} {key challenge sig : List Byte} {serial scope : Nat} {t : State}
    (ht : { s with stw := { s.stw with challenge := none } } = t)
    (h : tokenFault s key serial challenge scope sig = none) : debugUnlock s key serial challenge scope sig =
      emit (raiseEv (setF (setF (showKeys (eraseAssocs (eraseAssocs { t with stw := { t.stw with kek := none } } 0) 1))
        SEC_STATE_kek_set 0) SEC_STATE_debug 1) pgSEC evDebugUnlocked [scope]) (.doe 1 []) := by
  subst ht
  rw [debugUnlock, h]

/-- Every request of an identity service takes the way of `attestRow`. -/
theorem exec_identityRows (s : State) (nonce ct key challenge sig : List Byte) (serial scope : Nat) :
    exec (.attestReport nonce) s = .next (attestRow s (attestHead 1 ++ nonce) (attestReport s nonce)) ∧
    exec .attestEndorsement s = .next (attestRow s (attestHead 2) (attestEndorsement s)) ∧
    exec (.setKek ct) s = .next (attestRow s (attestHead 3 ++ ct) (setKek s ct)) ∧
    exec .debugChallenge s = .next (attestRow s (attestHead 4) (debugChallenge s)) ∧
    exec (.debugUnlock key serial challenge scope sig) s =
      .next (attestRow s (attestHead 5 ++ key ++ natLe 8 serial ++ challenge ++ natLe 1 scope ++ sig)
        (debugUnlock s key serial challenge scope sig)) := ⟨rfl, rfl, rfl, rfl, rfl⟩

theorem attestHead_length (type : Nat) : (attestHead type).length = 4 := by
  rw [attestHead, List.length_append, natLe_size]
  rfl

/-- Settles O59. -/
theorem stewardRows : Obligations.StewardRows := by
  refine ⟨?_, ?_, ?_, ?_, ?_, ?_, ?_, ?_, ?_, ?_, ?_, ?_⟩
  · intro s w hw
    have hexec : exec (.watchdogExpiry w) s = .next (watchdogExpiry s w) := by
      rw [exec, execWatchdogExpiry, onInstance_of (decide_eq_true hw)]
    refine ⟨fun h => by rw [hexec, watchdogExpiry_ignored h], fun hlife hfuses hheld => ?_⟩
    intro near s0 s1 s2 s3
    have heq := watchdogExpiry_served (near := near) (s0 := s0) (s1 := s1) (s2 := s2) (s3 := s3) hlife hfuses hheld
      rfl rfl rfl rfl rfl
    exact ⟨fun hfew => by rw [hexec, heq, if_neg (by omega)], fun hmany => by rw [hexec, heq, if_pos hmany]; rfl⟩
  · intro s hlife hdown hheld hready s1 s2 bank
    have hrow : ∀ b, exec (.stewardRestarted b) s = .next (stewardRestarted s b) := fun _ => rfl
    refine ⟨fun hbank => ?_, fun hbank => by rw [hrow, stewardRestarted_ignored (.inr (.inr hbank))],
      by rw [hrow, stewardRestarted_ignored (.inr (.inl rfl))]⟩
    have heq := stewardRestarted_serves (t := s2) hlife hdown hheld hready hbank rfl
    refine ⟨fun hnone => ?_, fun hsome => ?_⟩
    · rw [hrow, heq, hnone]
      rfl
    · rw [hrow, heq, if_pos (Option.isSome_iff_ne_none.mpr hsome)]
      rfl
  · intro s readOk h
    rw [exec, execStewardRestarted, stewardRestarted_ignored (.inl h)]
  · intro s r hi hits hlife hdown hready i hmem
    obtain ⟨hmanifest, hpiece, hstatus⟩ := exec_recordRows hlife true r hi hits
    have hwaits : exec i s = .next (doeWait s 2 r) := by
      simp only [List.mem_cons, List.not_mem_nil, or_false] at hmem
      rcases hmem with rfl | rfl | rfl
      · exact hmanifest.trans (congrArg Host.Outcome.next (recordRow_down hdown))
      · exact hpiece.trans (congrArg Host.Outcome.next (recordRow_down hdown))
      · exact hstatus.trans (congrArg Host.Outcome.next (recordRow_down hdown))
    exact ⟨fun hfits => by rw [hwaits, doeWait_fits hlife hready hfits],
      fun hlong => by rw [hwaits, doeWait_long hlife hready hlong]⟩
  · intro s r hi hits hup hlong i hmem
    obtain ⟨hmanifest, hpiece, hstatus⟩ := exec_recordRows (life_of_stewardUp hup) true r hi hits
    simp only [List.mem_cons, List.not_mem_nil, or_false] at hmem
    rcases hmem with rfl | rfl | rfl
    · exact hmanifest.trans (congrArg Host.Outcome.next (recordRow_long hup hlong))
    · exact hpiece.trans (congrArg Host.Outcome.next (recordRow_long hup hlong))
    · exact hstatus.trans (congrArg Host.Outcome.next (recordRow_long hup hlong))
  · intro s u mailbox record r hi hits hup hrec m say
    obtain ⟨hmanifest, hpiece, hstatus⟩ := exec_recordRows (life_of_stewardUp hup) mailbox record hi hits
    have hm : leAt r 8 1 = 1 → _ := fun h => hmanifest.trans (congrArg Host.Outcome.next
      (recordRow_read (body := updateManifest (byMailbox mailbox record)) hup hrec (beq_iff_eq.mpr h)))
    have hp : leAt r 8 1 = 2 → _ := fun h => hpiece.trans (congrArg Host.Outcome.next
      (recordRow_read (body := updatePiece (byMailbox mailbox record)) hup hrec (beq_iff_eq.mpr h)))
    have hs : leAt r 8 1 ≠ 1 ∧ leAt r 8 1 ≠ 2 → _ := fun h => hstatus.trans (congrArg Host.Outcome.next
      (recordRow_read (ok := fun k => k != 1 && k != 2) (body := updateStatus (byMailbox mailbox record)) hup hrec
        (by simpa using h)))
    have hsay := answerRecord_byMailbox mailbox record
    refine ⟨fun hk hbad => ?_, fun why hk hok hwhy => ?_, fun hk hok hgood => ?_, fun hk hbad => ?_, fun hk hok hheld => ?_,
      fun hk hok hnew => ?_, fun hk => ?_, fun h1 h2 h3 => ?_⟩
    · rw [hm hk, updateManifest_spoiled hbad, hsay]
      rfl
    · rw [hm hk, updateManifest_refused hok hwhy, hsay]
      rfl
    · rw [hm hk, updateManifest_staged hok hgood, hsay]
    · rw [hp hk, updatePiece_refused hbad, hsay]
      rfl
    · rw [hp hk, updatePiece_taken hok hheld, if_pos rfl, hsay]
    · rw [hp hk, updatePiece_taken hok hnew, if_neg Bool.false_ne_true, hsay]
    · rw [hs (by omega), updateStatus, if_pos hk, hsay]
    · rw [hs ⟨h1, h2⟩, updateStatus, if_neg h3, hsay]
  · intro s x h
    rw [exec, execUpdateApplyDone, applyDone_ignored h]
  · intro s hup happly b st s1 out
    have hrow : ∀ x, exec (.updateApplyDone x) s = .next (applyDone s x) := fun _ => rfl
    refine ⟨fun off => ?_, fun off hout => ?_, ?_⟩
    · rw [hrow, applyDone_flashFails hup happly (t := s1) rfl]
    · rw [hrow, applyDone_streamFails hup happly (t := s1) (st := st) rfl rfl hout]
    · intro bank hout s2
      refine ⟨fun hbad => ?_, ?_⟩
      · rw [hrow, applyDone_built hup happly (t := s1) (st := st) (b := b) (s2 := s2) rfl rfl rfl hout rfl rfl rfl,
          if_pos (by rw [hbad]; rfl)]
      · intro hgood s3 s4
        rw [hrow, applyDone_built hup happly (t := s1) (st := st) (b := b) (s2 := s2) (s3 := s3) (s4 := s4)
          rfl rfl rfl hout rfl rfl rfl, if_neg (by rw [hgood]; decide)]
        rfl
  · intro s hdown i hmem
    exact exec_fwuRows_down hdown hmem
  · intro s hup hopen
    have hconfirm : exec .fwuConfirm s = .next (fwuConfirm s) := by rw [exec, execFwuConfirm, onPage_of hopen]
    have hrevert : exec .fwuRevert s = .next (fwuRevert s) := by rw [exec, execFwuRevert, onPage_of hopen]
    have habandon : exec .fwuAbandon s = .next (fwuAbandon s) := by rw [exec, execFwuAbandon, onPage_of hopen]
    have happly : exec .fwuApply s = .next (fwuApply s) := by rw [exec, execFwuApply, onPage_of hopen]
    refine ⟨fun hno => ⟨?_, ?_⟩, fun htrial => ⟨?_, ?_⟩, fun hbusy => ⟨?_, ?_⟩, fun hidle => ?_,
      fun hidle hhold hfull hjournal => ?_, fun hnot => ?_⟩
    · rw [hconfirm, fwuConfirm, if_pos (.inr (by rw [hno]; rfl))]
    · rw [hrevert, fwuRevert, if_pos (.inr (by rw [hno]; rfl))]
    · intro b s1 s2
      have hactive := congrArg (fun r : BootRec => r.active) (writeBoot_boot s { s.flash.boot with trial := false })
      rw [hconfirm, fwuConfirm_trial hup htrial (b := b) (s1 := s1) (s2 := s2) rfl rfl rfl hactive]
    · rw [hrevert, fwuRevert_trial hup htrial]
    · rw [habandon, fwuAbandon, if_pos (.inr hbusy)]
    · rw [happly, fwuApply, if_neg (by simp [hbusy])]
    · rw [habandon, fwuAbandon_drops hup hidle]
      rfl
    · rw [happly, fwuApply, if_pos (by simp [hup, hhold, hfull, hidle, hjournal])]
    · rw [happly, fwuApply, if_neg]
      rcases hnot with h | h | h
      · simp [h]
      · simp [h]
      · simp [h]
  · intro s nonce ct key challenge sig serial scope hlife hdown hready row hmem hfits
    obtain ⟨hreport, hendorse, hkek, hask, hunlock⟩ := exec_identityRows s nonce ct key challenge sig serial scope
    have hwaits : exec row.1 s = .next (doeWait s 1 row.2) := by
      simp only [List.mem_cons, List.not_mem_nil, or_false] at hmem
      rcases hmem with rfl | rfl | rfl | rfl | rfl
      · exact hreport.trans (congrArg Host.Outcome.next (attestRow_down hdown _))
      · exact hendorse.trans (congrArg Host.Outcome.next (attestRow_down hdown _))
      · exact hkek.trans (congrArg Host.Outcome.next (attestRow_down hdown _))
      · exact hask.trans (congrArg Host.Outcome.next (attestRow_down hdown _))
      · exact hunlock.trans (congrArg Host.Outcome.next (attestRow_down hdown _))
    rw [hwaits, doeWait_fits hlife hready hfits]
  · intro s nonce ct key challenge sig serial scope hup
    obtain ⟨hreport, hendorse, hkek, hask, hunlock⟩ := exec_identityRows s nonce ct key challenge sig serial scope
    have hhead : ∀ (n : Nat) (x : List Byte), (attestHead n ++ x).length = 4 + x.length := fun n x => by
      rw [List.length_append, attestHead_length]
    refine ⟨?_, ?_, ⟨fun hlong => ?_, fun hlong => ?_⟩, fun hbad => ?_, fun hdebug hlen => ?_, ?_, ?_⟩
    · intro hfits body
      rw [hreport, attestRow_fits hup (by rw [hhead]; omega)]
      rfl
    · rw [hendorse, attestRow_fits hup (by rw [attestHead_length]; omega)]
      rfl
    · rw [hreport, attestRow_long hup (by rw [hhead]; omega)]
    · rw [hkek, attestRow_long hup (by rw [hhead]; omega)]
    · rcases Nat.lt_or_ge 131060 ct.length with hlong | hfits
      · rw [hkek, attestRow_long hup (by rw [hhead]; omega)]
      · rw [hkek, attestRow_fits hup (by rw [hhead]; omega), setKek, if_pos hbad]
    · rw [hkek, attestRow_fits hup (by rw [hhead]; omega), setKek, if_neg (by simp [hdebug, hlen])]
      rfl
    · intro c
      rw [hask, attestRow_fits hup (by rw [attestHead_length]; omega)]
      rfl
    · intro hfits spent
      have hlen : (attestHead 5 ++ key ++ natLe 8 serial ++ challenge ++ natLe 1 scope ++ sig).length ≤ 131064 := by
        simp only [List.length_append, attestHead_length, natLe_size]
        omega
      refine ⟨fun why hwhy => ?_, fun hgood => ?_⟩
      · rw [hunlock, attestRow_fits hup hlen, debugUnlock_refused hwhy]
        rfl
      · rw [hunlock, attestRow_fits hup hlen, debugUnlock_opens (t := spent) rfl hgood]
        rfl

end Sys2Proof.Machine
end

section
/-! The pacers' loops and the profiles (16_pacers). -/

namespace Sys2Proof.Machine

/-! ### Reads and bits -/

theorem lineOf_mono {a b : Nat} (h : a ≤ b) : lineOf a ≤ lineOf b := by
  unfold lineOf
  omega

theorem linesOf_subset {a n m : Nat} (h : n ≤ m) {l : Nat} (hl : l ∈ linesOf a n) : l ∈ linesOf a m := by
  rw [linesOf] at hl ⊢
  split at hl
  next => exact absurd hl List.not_mem_nil
  next hn =>
    rw [if_neg (by omega)]
    obtain ⟨i, hi, rfl⟩ := List.mem_map.mp hl
    have hmono := lineOf_mono (show a + n - 1 ≤ a + m - 1 by omega)
    rw [List.mem_range] at hi
    exact List.mem_map.mpr ⟨i, List.mem_range.mpr (by omega), rfl⟩

theorem sound_shorter {s : State} {a n m : Nat} (h : Sound s a m) (hle : n ≤ m) : Sound s a n :=
  fun l hl => h l (linesOf_subset hle hl)

theorem bitsOf_zero (n w : Nat) : bitsOf n 0 w = n % 2 ^ w := by rw [bitsOf, Nat.shiftRight_zero]

section
variable {s : State}

/-! ### The voltage loop -/

theorem exec_voltageLoopTick {d : Nat} (hd : d < 4) (count : Nat) : exec (.voltageLoopTick d count) s = .next (voltageTick s d count) := by
  rw [exec, execVoltageLoopTick, onInstance_of (decide_eq_true hd)]

theorem vMax_setpoint {d : Nat} (v : Nat) : vMax (setF s (PAC_VOLT_setpoint_mv d) v) d = vMax s d := by
  have hfactory : (PAC_CAL_V_F_v_max d).addr ≠ (PAC_VOLT_setpoint_mv d).addr := by
    simp [PAC_CAL_V_F_v_max, PAC_VOLT_setpoint_mv]
  have huser : (PAC_CAL_V_U_v_max d).addr ≠ (PAC_VOLT_setpoint_mv d).addr := by
    simp [PAC_CAL_V_U_v_max, PAC_VOLT_setpoint_mv]
  rw [vMax, effective, getF_setF_ne s v hfactory, getF_setF_ne s v huser]
  rfl

/-- A voltage tick that counts: low where it is slow, high where it is past the margin, v the setpoint it comes to, and n the
ticks in a row at the top. -/
theorem voltageTick_counts {d count n : Nat} (hup : stewardUp s = true) (hfreeze : isSet s (PAC_LOOP_X_freeze_volt d) = false)
    {low high : Bool} {v : Int} (hlow : decide ((count : Int) * (16 + getF s (PAC_STATE_level 0)) < 16 * roTarget s d) = low)
    (hhigh : decide (16 * roTarget s d * (100 + roMargin s d) < (count : Int) * (16 + getF s (PAC_STATE_level 0)) * 100) = high)
    (hv : max (vMin s d) (min (vMax s d) (if low then getF s (PAC_VOLT_setpoint_mv d) + max 1 (getF s (PAC_LOOP_X_step_mv d) : Int)
      else if high then getF s (PAC_VOLT_setpoint_mv d) - max 1 (getF s (PAC_LOOP_X_step_mv d) : Int)
      else getF s (PAC_VOLT_setpoint_mv d))) = v)
    {t t' : State} (ht : setF s (PAC_VOLT_setpoint_mv d) v.toNat = t)
    (hn : (if v = vMax s d ∧ low = true then tget (fun _ => 0) t.pac.atMax d + 1 else 0) = n)
    (ht' : { t with pac := { t.pac with atMax := tset (fun _ => 0) t.pac.atMax d n } } = t') :
    voltageTick s d count = if n = 100 then raiseEv t' (pgPAC d) evVoltLimit [d, v.toNat] else t' := by
  have hon : ¬ ((!stewardUp s) = true ∨ isSet s (PAC_LOOP_X_freeze_volt d) = true) := by
    rw [hup, hfreeze]
    decide
  have hmax : vMax t d = vMax s d := by rw [← ht, vMax_setpoint]
  rw [voltageTick, if_neg hon]
  dsimp only
  rw [hlow, hhigh, hv, ht, hmax, hn, ht']

/-! ### The cap loop -/

theorem capTick_served {mvA maA mvB maB : Nat} (hup : stewardUp s = true) {xs : List Nat}
    (hxs : ((mvA * maA + mvB * maB) / 1000 :: s.pac.power).take 10 = xs) {sum cap level mean below : Nat}
    (hsum : xs.foldl (· + ·) 0 = sum) (hcap : getF s (PAC_CAP_cap_w 0) * 1000 * xs.length = cap)
    (hlevel : getF s (PAC_STATE_cap_level 0) = level) (hmean : sum / (1000 * xs.length) = mean)
    (hbelow : (if sum * 100 < cap * 97 then s.pac.capBelow + 1 else 0) = below) {s1 s2 s3 : State}
    (hs1 : { s with
      pins := { s.pins with
        bladeA := mvA
        bladeB := mvB }
      pac := { s.pac with
        power := xs
        mAmpA := maA
        mAmpB := maB } } = s1)
    (hs2 : setF (setF (setF s1 DEV_SUPPLY_blade_a (mvA / 20)) DEV_SUPPLY_blade_b (mvB / 20)) (PAC_CAP_power_w 0)
      (min 4095 mean) = s2)
    (hs3 : { s2 with pac := { s2.pac with capBelow := if 10 ≤ below then 0 else below } } = s3) :
    capTick s mvA maA mvB maB = settleAlert (if cap < sum then
        setPace (if level = 0 then raiseEv s3 (pgPAC 0) evCapActive [getF s3 (PAC_CAP_cap_w 0), mean] else s3)
          PAC_STATE_cap_level (min 16 (level + 1))
      else if 10 ≤ below then setPace s3 PAC_STATE_cap_level (level - 1) else s3) := by
  subst hxs hsum hcap hlevel hmean hbelow hs1 hs2 hs3
  have hon : ¬ (!stewardUp s) = true := by
    rw [hup]
    decide
  exact if_neg hon

/-! ### The thermal loop -/

/-- What a thermal sample does once it has stored what it measured: h and c are the hot and the cool samples in a row. -/
def thermalStep (s : State) (level h c die : Nat) (hot : Int) : State :=
  settleAlert (if 10 ≤ h then
      setPace (if level = 0 then raiseEv { s with
          pac := { s.pac with hotSamples := 0 }
          pins := { s.pins with thermWarn := true } } (pgPAC (min die 3)) evThrottleOn [die, unsigned 32 hot]
        else { s with pac := { s.pac with hotSamples := 0 } }) PAC_STATE_therm_level (min 16 (level + 1))
    else if 100 ≤ c ∧ 0 < level then
      (let t := setPace { s with pac := { s.pac with coolSamples := 0 } } PAC_STATE_therm_level (level - 1)
       if level = 1 then
         raiseEv { t with pins := { t.pins with thermWarn := false } } (pgPAC (min die 3)) evThrottleOff [die, t.pac.throttled / 10]
       else t)
    else s)

theorem thermalSample_eq {raw xs : List Int} {inlet outlet hot : Int} {die level h c : Nat}
    (hxs : raw.mapIdx (fun d t => if d < 4 then t + tjTrim s d else t) = xs) (hhot : hottestOf xs = (die, hot)) {s1 : State}
    (hs1 : (List.range 4).foldl (fun s d => setF s (PAC_TEMP_tj d) (clampInt 0 4095 (xs.getD d 0)).toNat)
      { s with pac := { s.pac with
        inlet := inlet
        outlet := outlet } } = s1)
    (hlevel : getF s1 (PAC_STATE_therm_level 0) = level) (hh : (if 400 ≤ hot then s1.pac.hotSamples + 1 else 0) = h)
    (hc : (if hot < 388 then s1.pac.coolSamples + 1 else 0) = c) :
    thermalSample s ⟨raw, inlet, outlet⟩ = thermalStep { s1 with pac := { s1.pac with
      hottest := hot
      hotSamples := h
      coolSamples := c
      throttled := if level = 0 then 0 else s1.pac.throttled + 1 } } level h c die hot := by
  subst hs1 hlevel hh hc hxs
  unfold thermalSample
  dsimp only
  have htrim : raw.mapIdx (fun d t => if d < 4 then t + tjTrim { s with pac := { s.pac with
      inlet := inlet
      outlet := outlet } } d else t) = raw.mapIdx (fun d t => if d < 4 then t + tjTrim s d else t) := rfl
  rw [htrim, hhot]
  rfl

/-! ### Profiles -/

theorem exec_profileWrite (hopen : regsOpen s pgPRF = true) (v : Word) : exec (.profileWrite v []) s = .next (profileWrite s v []) := by
  rw [exec, execProfileWrite, onPage_of hopen]

section
variable {v : Word} {slot : Nat} {t : State} (hslot : v.toNat % 4 = slot) (ht : setF s PRF_WRITE_slot slot = t)
include hslot ht

theorem profileWrite_selects (hbusy : isSet s PRF_WRITE_busy = false) (hbit : bitOf v.toNat 2 = false) : profileWrite s v [] = t := by
  subst hslot ht
  rw [profileWrite, bitsOf_zero, hbusy, hbit]
  rfl

variable (hbusy : isSet s PRF_WRITE_busy = false) (hbit : bitOf v.toNat 2 = true) (hup : stewardUp s = true)
include hbusy hbit hup

theorem profileWrite_reads {a : Nat} (ha : getF t PRF_SRC_LO_addr + 2 ^ 32 * getF t PRF_SRC_HI_addr = a) {r : Option (List Byte)}
    (hr : ((a % 64 ≠ 0 ∨ inMemory a 64 = false) ∧ r = none) ∨ (a % 64 = 0 ∧ inMemory a 64 = true ∧
      inMemory a (64 + 520 * leAt (peek s a 64) 6 2) = true ∧ Sound s a (64 + 520 * leAt (peek s a 64) 6 2) ∧
      r = some (peek s a (64 + 520 * leAt (peek s a 64) 6 2)))) :
    profileWrite s v [] = setF { t with stw := { t.stw with profileWrite := some (slot, r.getD [],
      if slot = 3 then 2 else if profOk slot (r.getD []) then 0 else 1) } } PRF_WRITE_busy 1 := by
  have hupT : stewardUp t = true := by
    rw [← ht, stewardUp, isSet_setF_ne s slot (by decide)]
    exact hup
  have hpeek : ∀ n, peek t a n = peek s a n := fun n => by
    rw [← ht]
    rfl
  have hsound : ∀ n, Sound s a n → Sound t a n := fun n h => by
    rw [← ht]
    exact h
  rw [profileWrite, bitsOf_zero, hbusy, if_neg Bool.false_ne_true, show v.toNat % 2 ^ 2 = slot from hslot, ht, hbit]
  dsimp only
  rw [hupT, if_neg (by decide), ha]
  rcases hr with ⟨hout, rfl⟩ | ⟨halign, hin, hall, hgood, rfl⟩
  · rw [if_pos (by simpa using hout)]
  · rw [if_neg (by simp [halign, hin]), memRead_sound (hsound _ (sound_shorter hgood (by omega)))]
    simp only [hpeek, hall, Bool.not_true, Bool.false_eq_true, if_false, memRead_sound (hsound _ hgood)]

end

theorem profOk_nil (n : Nat) : profOk n [] = false := by
  have hmagic : (leAt [] 0 4 == 0x4B375046) = false := by decide
  rw [profOk]
  simp only [hmagic, Bool.false_and]

theorem profileWriteDone_serves {n code out : Nat} {bytes : List Byte} {ok : Bool} (h : s.stw.profileWrite = some (n, bytes, code))
    (hup : stewardUp s = true) (hidle : s.stw.applying = false) (hout : (if code = 0 ∧ (!ok) = true then 3 else code) = out)
    {t : State} (ht : { s with stw := { s.stw with profileWrite := none } } = t) :
    profileWriteDone s ok = raiseEv (setF (setF (if out = 0 then
        { t with flash := { t.flash with profiles := tset (fun _ => []) t.flash.profiles n bytes } }
      else if out = 3 then { t with flash := { t.flash with profiles := tset (fun _ => []) t.flash.profiles n [] } }
      else t) PRF_WRITE_busy 0) PRF_WRITE_result out) pgPRF evPrfWritten [n, out] := by
  subst hout ht
  rw [profileWriteDone, h]
  exact if_neg (by simp [hup, hidle])

theorem profileWriteDone_waits {ok : Bool} (h : s.stw.applying = true) : profileWriteDone s ok = s := by
  rw [profileWriteDone]
  split
  next => rfl
  next => exact if_pos (.inr h)

/-- The operands of a profile switch that are defined. -/
theorem profileSwitch_valid {e : CmdEntry} : (leAt e.bytes 44 1 / 4 ≠ 0 ∨ leAt e.bytes 45 1 / 2 ≠ 0 ∨
    (!zeroAt e.bytes 46 18) = true) ↔ ¬ (leAt e.bytes 44 1 < 4 ∧ leAt e.bytes 45 1 < 2 ∧ zeroAt e.bytes 46 18 = true) := by
  cases zeroAt e.bytes 46 18
  · simp
  · simp only [Bool.not_true, Bool.false_eq_true, or_false, and_true]
    omega

theorem exec_profileSwitch {q idx : Nat} {e : CmdEntry} {sur : Surround} (h : Dispatches s q idx e sur) (hop : e.opcode = 0x0701) :
    exec (.profileSwitch q idx sur) s = .next (takeSlot (profileSwitch s e) q) := by
  obtain ⟨hq, hlife, -⟩ := id h
  rw [exec, execProfileSwitch, onQueueRunning_of hq hlife, onDispatch_of_dispatches h, hop, if_pos (by decide)]

end

/-- Settles O60. -/
theorem pacerRows : Obligations.PacerRows := by
  refine ⟨?_, ?_, ?_, ?_, ?_, ?_⟩
  · intro s d count hd
    refine ⟨fun hoff => ?_, fun hup hfreeze => ?_⟩
    · rw [exec_voltageLoopTick hd, voltageTick, if_pos (by simpa using hoff)]
    intro speed target sp step put none'
    have htick := fun low high v n hlow hhigh hv hn => (exec_voltageLoopTick (s := s) hd count).trans
      (congrArg Host.Outcome.next (voltageTick_counts (low := low) (high := high) (v := v) (n := n) (t := put v)
        hup hfreeze hlow hhigh hv rfl hn rfl))
    refine ⟨fun hfast hnear hlo hhi => ?_, fun hfast hfar hlo hhi => ?_, fun hslow hlo hhi => ?_, fun hslow hrange htop => ?_⟩
    · exact htick false false sp 0 (decide_eq_false (not_lt.mpr hfast)) (decide_eq_false (not_lt.mpr hnear))
        (by rw [if_neg (by decide), if_neg (by decide)]; omega) (if_neg (by simp))
    · exact htick false true (sp - step) 0 (decide_eq_false (by omega)) (decide_eq_true hfar)
        (by rw [if_neg (by decide), if_pos rfl]; omega) (if_neg (by simp))
    · exact htick true _ (sp + step) 0 (decide_eq_true hslow) rfl (by rw [if_pos rfl]; omega)
        (if_neg (fun h => absurd h.1 (by omega)))
    · exact htick true _ (vMax s d) _ (decide_eq_true hslow) rfl (by rw [if_pos rfl]; omega) (if_pos ⟨rfl, rfl⟩)
  · intro s mvA maA mvB maB
    have hrow : exec (.capLoopTick mvA maA mvB maB) s = .next (capTick s mvA maA mvB maB) := rfl
    refine ⟨fun hdown => by rw [hrow, capTick, if_pos (by rw [hdown]; rfl)], fun hup => ?_⟩
    intro xs sum mean cap level s1 s2 held
    have htick := fun below (hbelow : (if sum * 100 < cap * 97 then s.pac.capBelow + 1 else 0) = below) =>
      hrow.trans (congrArg Host.Outcome.next (capTick_served (xs := xs) (sum := sum) (cap := cap) (level := level) (mean := mean)
        (s1 := s1) (s2 := s2) hup rfl rfl rfl rfl rfl hbelow rfl rfl rfl))
    refine ⟨fun hover hzero => ?_, fun hover hlevel => ?_, fun hnear hunder => ?_, fun hlow hfew => ?_, fun hlow hmany => ?_⟩
    · rw [htick 0 (if_neg (by omega)), if_pos hover, if_pos hzero, if_neg (by decide), hzero]
      rfl
    · rw [htick 0 (if_neg (by omega)), if_pos hover, if_neg hlevel, if_neg (by decide)]
    · rw [htick 0 (if_neg (by omega)), if_neg (by omega), if_neg (by decide), if_neg (by decide)]
    · rw [htick _ (if_pos hlow), if_neg (by omega), if_neg (by omega), if_neg (by omega)]
    · rw [htick _ (if_pos hlow), if_neg (by omega), if_pos (by omega), if_pos (by omega)]
  · intro s raw inlet outlet
    refine ⟨fun hdown => ?_, fun hlife hready => ?_⟩
    · rw [exec, execThermalSample, hdown]
      rfl
    intro xs die hot s0 s1 level kept
    have hsample := fun h c (hh : (if 400 ≤ hot then s1.pac.hotSamples + 1 else 0) = h)
        (hc : (if hot < 388 then s1.pac.coolSamples + 1 else 0) = c) =>
      show exec (.thermalSample ⟨raw, inlet, outlet⟩) s = .next (thermalStep (kept h c) level h c die hot) by
        rw [exec, execThermalSample, hready, if_pos rfl, whileRunning_of hlife,
          thermalSample_eq (xs := xs) (die := die) (hot := hot) (s1 := s1) rfl rfl rfl rfl hh hc]
    refine ⟨fun hhot hfew => ?_, fun hhot hmany hlevel => ?_, fun hhot hmany hzero => ?_, fun hwarm hbelow => ?_,
      fun hcool hfew => ?_, fun hcool hmany hlevel => ?_, fun hcool hmany hone => ?_⟩
    · rw [hsample _ _ (if_pos hhot) (if_neg (by omega)), thermalStep, if_neg (by omega), if_neg (by omega)]
    · rw [hsample _ _ (if_pos hhot) (if_neg (by omega)), thermalStep, if_pos (by omega), if_neg (by omega)]
    · intro warn
      rw [hsample _ _ (if_pos hhot) (if_neg (by omega)), thermalStep, if_pos (by omega), if_pos hzero, hzero]
      rfl
    · rw [hsample _ _ (if_neg (by omega)) (if_neg (by omega)), thermalStep, if_neg (by decide), if_neg (by omega)]
    · rw [hsample _ _ (if_neg (by omega)) (if_pos hcool), thermalStep, if_neg (by decide), if_neg (by omega)]
    · rw [hsample _ _ (if_neg (by omega)) (if_pos hcool), thermalStep, if_neg (by decide), if_pos (by omega)]
      dsimp only
      rw [if_neg (by omega)]
    · intro t
      rw [hsample _ _ (if_neg (by omega)) (if_pos hcool), thermalStep, if_neg (by decide), if_pos (by omega)]
      dsimp only
      rw [if_pos hone, hone]
      rfl
  · intro s v hup hopen slot s1
    have hrow := exec_profileWrite hopen v
    refine ⟨fun hbusy => by rw [hrow, profileWrite, hbusy]; rfl,
      fun hbusy hbit => by rw [hrow, profileWrite_selects (slot := slot) (t := s1) rfl rfl hbusy hbit], fun hbusy hbit => ?_⟩
    intro a n
    have hread := fun r hr => hrow.trans (congrArg Host.Outcome.next
      (profileWrite_reads (slot := slot) (t := s1) rfl rfl hbusy hbit hup (a := a) (r := r) rfl hr))
    refine ⟨fun hout => ?_, fun halign hin hall hsound => ?_⟩
    · rw [hread none (.inl ⟨hout, rfl⟩), Option.getD_none, profOk_nil]
      rfl
    · exact hread (some (peek s a n)) (.inr ⟨halign, hin, hall, hsound, rfl⟩)
  · intro s slot code bytes hheld hup done put say
    have hrow : ∀ ok, exec (.profileWriteDone ok) s = .next (profileWriteDone s ok) := fun _ => rfl
    refine ⟨fun ok hbusy => by rw [hrow, profileWriteDone_waits hbusy], fun hidle hzero => ⟨?_, ?_⟩,
      fun ok hidle hcode => ?_⟩
    · rw [hrow, profileWriteDone_serves (t := done) hheld hup hidle (if_neg (fun h => absurd h.2 (by decide))) rfl, hzero]
      rfl
    · rw [hrow, profileWriteDone_serves (t := done) hheld hup hidle (if_pos ⟨hzero, rfl⟩) rfl]
      rfl
    · rw [hrow, profileWriteDone_serves (t := done) hheld hup hidle (if_neg (by omega)) rfl, if_neg (by omega),
        if_neg (by omega)]
      rfl
  · intro s q idx e sur h hop n valid
    have hrow := exec_profileSwitch h hop
    obtain ⟨-, -, hfind, -⟩ := id h
    obtain ⟨rfl, rfl⟩ := findCmd_key hfind
    refine ⟨fun hbusy => ?_, fun halone hbad => ?_, fun halone hvalid hnone => ?_, fun p halone hvalid hsome => ?_⟩
    · rw [hrow, profileSwitch, if_pos hbusy]
    · rw [hrow, profileSwitch, if_neg (by omega), if_pos (profileSwitch_valid.mpr hbad)]
    · rw [hrow, profileSwitch, if_neg (by omega), if_neg (fun h => profileSwitch_valid.mp h hvalid), bitsOf_zero,
        show leAt e.bytes 44 1 % 2 ^ 2 = n from rfl, hnone]
    · rw [hrow, profileSwitch, if_neg (by omega), if_neg (fun h => profileSwitch_valid.mp h hvalid), bitsOf_zero,
        show leAt e.bytes 44 1 % 2 ^ 2 = n from rfl, hsome]

end Sys2Proof.Machine
end
